-- ==== Sys2Proof/Word.lean ====
section
/-! DEFINITION. The two word types the spec's registers and memory are made of. -/
namespace Sys2Proof

/-- A byte of memory. -/
abbrev Byte := BitVec 8

/-- A register of BAR0: every register is 32 or 64 bits wide (R11); a 32-bit one fills the low half. -/
abbrev RegVal := BitVec 64

end Sys2Proof
end

