-- ==== Sys2Proof/Syntax.lean ====
section
/-! DEFINITION. The commands and events of spec/opcode_table.json, one constructor per row.
Indexes are plain numbers (their ranges are in WellFormed.lean); a value written to a register is the whole word written. -/
namespace Sys2Proof

/-- Who makes a register access: the host port, or a service core (R12, R424). Cores 0 to 7 are the region cores, 8 the hub core. -/
inductive Requester where
  | host
  | core (k : Nat)
  deriving DecidableEq, Repr

/-- What the settings sequencer read from the flash (R383): the JEDEC ID, the SFDP header and first parameter
header, the Basic Flash Parameter Table, and the 64 KiB areas of copies A and B. -/
structure FlashRead where
  jedec : List Byte
  sfdp : List Byte
  bfpt : List Byte
  copyA : List Byte
  copyB : List Byte
  deriving DecidableEq, Repr

/-- The status of a report on a cell port or LE port (R93). -/
inductive CellStatus where
  | ok
  | error
  deriving DecidableEq, Repr

/-- The four scopes of R230, by their SCOPE codes. -/
inductive Scope where
  | tile
  | region
  | chip
  | system
  deriving DecidableEq, Repr

/-- The conditions of R43. -/
inductive Cond where
  | flagSet
  | flagClear
  | tallyAtLeast
  | claim
  deriving DecidableEq, Repr

/-- What an access to the chip's own SRAMs meets (R51, R360): a counter copy of bad parity, a corrected or an uncorrectable word of the
node slot or of an edge slot, or an uncorrectable error in a sync object. -/
inductive Upset where
  | none
  | primary
  | shadow
  | nodeWord (fixed : Bool)
  | edgeWord (j : Nat) (fixed : Bool)
  | object (kind idx : Nat)
  deriving DecidableEq, Repr

/-- What the scrubber reads: slot `i` of a context, and what the access meets there (log entry 85). -/
structure ScrubRead where
  i : Nat
  met : Upset
  deriving DecidableEq, Repr

/-- A block of a region path or of the trace path that is not acknowledged: its SEQ, and how often it has been resent (R23, log entry 85). -/
structure PathBlock where
  seq : Nat
  resends : Nat
  deriving DecidableEq, Repr

/-- One command or event of the block. -/
inductive Instr where
  -- Front End: doorbells, slots and descriptors
  | doorbellWrite (n : Nat) (v : BitVec 32)
  | shadowPoll (n : Nat)
  | ringFetch (n : Nat)
  | slotIdleCheck (n : Nat)
  | slotEnable (who : Requester) (n : Nat) (v : BitVec 32)
  | slotDisable (who : Requester) (n : Nat) (v : BitVec 32)
  | destroy (who : Requester) (n : Nat)
  | destroyFinish (n : Nat)
  | restart (who : Requester) (n : Nat) (skip : Bool)
  | nop (n : Nat)
  | launchGraph (n : Nat)
  | appendNodes (n : Nat)
  | templateRelease (n : Nat)
  | rosterAdmit (n : Nat)
  | rosterExtend (n : Nat)
  | rosterFold (n : Nat)
  | foldCommand (n : Nat)
  | report (n : Nat)
  | indirectPointerRead (c i : Nat)
  | commandRetire (n seq : Nat)
  | completionRecordWrite (n : Nat)
  | irqCoalesceTimeout (n : Nat)
  | commandWatchdog (n seq : Nat)
  -- pods, tiles, contexts
  | tsetCommit (who : Requester) (p : Nat) (v : BitVec 32)
  | tsetSelect (who : Requester) (p : Nat) (v : BitVec 32)
  | tileOwnerWrite (who : Requester) (i : Nat) (v : BitVec 32)
  | tileDeparted (i : Nat)
  | swapqPush (who : Requester) (p : Nat) (v : BitVec 32)
  | swapqPop (who : Requester) (p : Nat) (v : BitVec 32)
  | contextSave (who : Requester) (c : Nat) (v : BitVec 32)
  | saveImageWrite (c : Nat)
  | contextRestore (who : Requester) (c : Nat) (v : BitVec 32)
  | restoreComplete (c : Nat)
  | rearm (who : Requester) (c : Nat) (v : BitVec 32)
  | windowWrite (who : Requester) (edges : Bool) (c : Nat) (v : BitVec 32)
  -- sync objects, by register
  | objInitCommit (who : Requester) (v : BitVec 64)
  | objFreeCommit (who : Requester) (v : BitVec 32)
  | objSelect (who : Requester) (v : BitVec 32)
  | xlatInv (who : Requester) (v : BitVec 64)
  | xlatInvDone
  | syncDumpStart (who : Requester) (v : BitVec 32)
  | syncDumpDone
  -- global control
  | modeWrite (who : Requester) (v : BitVec 32)
  | holdWrite (who : Requester) (v : BitVec 32)
  | lockstepRestart (who : Requester) (v : BitVec 32)
  | chipResetWrite (who : Requester) (v : BitVec 32)
  | compatWrite (who : Requester) (v : BitVec 32)
  | settingsReload (who : Requester) (v : BitVec 32)
  | reloadComplete (f : FlashRead)
  | spiGo (who : Requester) (v : BitVec 32)
  | spiDone (rx : List Byte)
  | firmwareLoad (who : Requester) (k : Nat) (v : BitVec 32)
  | firmwareLoaded (k : Nat)
  | watchdogKick (who : Requester) (k : Nat) (v : BitVec 32)
  | draoftLock (who : Requester) (v : BitVec 32)
  | driverTeardown (who : Requester) (v : BitVec 32)
  | unbench (who : Requester) (v : BitVec 32)
  | unbenchComplete (ok : Bool)
  | freeze (who : Requester)
  | quiesce (who : Requester)
  | quiesceReached
  | snap (who : Requester)
  | resume (who : Requester)
  | traceModeStart (who : Requester) (v : BitVec 32)
  | traceModeOff (who : Requester) (v : BitVec 32)
  | traceHostTrigger (who : Requester) (v : BitVec 32)
  | gcntSnap (who : Requester) (v : BitVec 32)
  | snapDumpStart (who : Requester) (v : BitVec 32)
  | snapDumpDone
  | inspSelect (who : Requester) (w : Nat) (v : BitVec 64)
  | inspectRead (who : Requester) (off : Nat) (wide : Bool)
  | rosterEnable (who : Requester) (k : Nat) (v : BitVec 32)
  | rosterDisable (who : Requester) (k : Nat) (v : BitVec 32)
  | foldTrick (who : Requester) (k : Nat) (v : BitVec 32)
  | rosterClose (who : Requester) (k : Nat) (v : BitVec 32)
  | linkAccept (who : Requester) (k : Nat) (v : BitVec 32)
  | portEnable (who : Requester) (k : Nat) (v : BitVec 32)
  | portDisable (who : Requester) (k : Nat) (v : BitVec 32)
  | portExpectWrite (who : Requester) (port : Option Nat) (v : BitVec 32)
  | serveCommit (who : Requester) (v : BitVec 32)
  | resCommit (who : Requester) (v : BitVec 32)
  | relCommit (who : Requester) (v : BitVec 32)
  | podPagesWrite (who : Requester) (p : Nat) (v : BitVec 64)
  | resBindingWrite (who : Requester) (c : Nat) (v : BitVec 64)
  | rqEnable (who : Requester) (v : BitVec 32)
  | rqDisable (who : Requester) (v : BitVec 32)
  | rqRdWrite (who : Requester) (v : BitVec 32)
  | cplRdWrite (who : Requester) (n : Nat) (v : BitVec 32)
  | registerWrite (who : Requester) (off : Nat) (v : BitVec 64)
  | lowHalfRead (who : Requester) (off : Nat)
  | lowHalfWrite (who : Requester) (off : Nat) (v : BitVec 32)
  | highHalfWrite (who : Requester) (off : Nat) (v : BitVec 32)
  | accessAbort (who : Requester) (bar off size : Nat) (write : Bool)
  -- the Resolver and dealing
  | resolverUpdate
  | scrub (c : Nat) (r : ScrubRead)
  | nodeDispatch (c i : Nat)
  | offerAnswer (r c i : Nat)
  | answerArrival (r c i : Nat)
  | collectWindowClose (c i : Nat)
  | offerConfirm (r c i : Nat)
  | offerWithdraw (r c i : Nat)
  | backlogDispatch (p r : Nat)
  | issueSlot (r : Nat)
  | leIssueSlot
  | startReport (e : Nat)
  | engineCompletion (e : Nat) (st : CellStatus) (word : BitVec 32)
  | completionAccept (e : Nat)
  | shareDone (r c i : Nat)
  | leCompletion (k : Nat) (st : CellStatus) (word : BitVec 32)
  | combineRequest (e : Nat)
  | combineDone (e : Nat)
  | loopStart (c i : Nat)
  | loopIterationEnd (c i : Nat)
  | sproutRead (c i : Nat)
  | remoteSend (c i : Nat)
  | dynRetry (c : Nat)
  | drainReport (e : Nat) (st : CellStatus)
  | drainLimitExpiry (e : Nat) (lines : List Nat)
  | cellResetDone (e : Nat)
  | cellResetTimeout (e : Nat)
  -- fan-out and landing
  | fanoutExpand
  | landingWaitResume
  | fanoutInstantiate
  | fanoutComplete (c i : Nat)
  | callSlotFree (x : Nat)
  | landingTimeout (l : Nat)
  | landingFree (l : Nat)
  -- the Roster
  | trickCompose (c i : Nat)
  | composeRetry (c i : Nat)
  | trickInstantiate (k : Nat)
  | trickEnd (k : Nat)
  | retireRecordWrite (k : Nat)
  | logRecordWrite (k : Nat)
  | importLanded (slot : Nat)
  -- sync operations
  | signalNode (c i : Nat)
  | waitNodeRegister (c i : Nat)
  | waiterRecordGrant
  | syncSet (e vid : Nat) (sc : Scope)
  | syncClear (e vid : Nat) (sc : Scope)
  | syncAdvance (e vid : Nat) (sc : Scope) (amt : BitVec 48)
  | syncRelease (e vid : Nat) (sc : Scope)
  | syncWait (e vid : Nat) (sc : Scope) (cond : Cond) (thr : BitVec 48)
  | syncClaim (e vid : Nat) (sc : Scope)
  | syncTryClaim (e vid : Nat) (sc : Scope)
  | syncRead (e vid : Nat) (sc : Scope)
  | xlatFill (c vid : Nat)
  | invalRequest (e addr len : Nat)
  | invalDone (e : Nat)
  -- faults and benching
  | teardownContinue (c : Nat)
  | cellHang (e : Nat) (lines : List Nat)
  | cellUncorrectable (e : Nat) (lines : List Nat)
  | cellPortParity (e : Nat) (lines : List Nat)
  | mirrorParity (tile : Nat) (lines : List Nat)
  | dealerParity (r : Nat)
  | dealerRebuilt (r : Nat)
  | regionPathFault (r : Nat) (b : PathBlock)
  | pathResetDone (r : Nat) (ok : Bool)
  | leBench (k : Nat) (reason : Nat)
  | serviceWatchdogExpiry (k : Nat)
  | servicePathParity (k : Nat)
  | supplyWarn (die : Nat)
  | supplyClear (die : Nat)
  | supplyRecover (die : Nat)
  | clockRampStep (die : Nat)
  | supplyReset
  | rqPacketWrite
  | vectorSignal (v : Nat)
  -- time
  | deadlineTick
  | suspendReport (e : Nat)
  | suspendTimeout (e : Nat)
  | donateTimeout (f : Nat)
  | allBlocked (p : Nat)
  | autoSwapRestore (p : Nat)
  | beatTick
  | beatPinEdge
  | beatFlywheel
  | beatParcelReceive (k q : Nat)
  | beatRemoteApply
  | beatPinInverted
  | monitorEvaluate (c i : Nat)
  | slowdownReport
  -- links
  | blockReceive (k : Nat) (bytes : List Byte)
  | nakReceive (k seq : Nat)
  | hopAckTimeout (k : Nat)
  | transmitSlot (k : Nat)
  | decrementReceive (k q : Nat)
  | signalReceive (k q : Nat)
  | expertCallReceive (k q : Nat)
  | returnReceive (k q : Nat)
  | ackReceive (k q : Nat)
  | helloReceive (k q : Nat)
  | cutMarkerReceive (k q : Nat)
  | cutMarkerTimeout (k : Nat)
  | e2eResend (dest seq : Nat)
  | helloSend (k : Nat)
  | linkSilent (k : Nat)
  | phyReady (k : Nat)
  | phyLost (k : Nat)
  | retrainExpiry (k : Nat)
  -- start-up and clocks
  | chipReset
  | settingsRead (f : FlashRead)
  | gsInitDone
  | pllStable (d : Nat)
  | startReady
  | lockstepTick
  | nativeGateStop (u : Nat)
  -- observation
  | traceFrameSend
  | traceAlignSend
  | uartRxFault
  | uartRxRecover
  | beatOutShort
  | draoftHelp
  | draoftId
  | draoftStatus
  | draoftCnt
  | draoftRd (off cnt : Nat)
  | draoftObj (kind idx : Nat)
  | draoftNode (c i : Nat)
  | draoftDump (byCtx : Bool) (id : Nat)
  | draoftWr (off : Nat) (v : BitVec 32)
  | draoftFreeze
  | draoftQuiesce
  | draoftSnap (id : BitVec 32)
  | draoftResume
  | draoftTrig
  | highHalfRead (who : Requester) (off : Nat)
  | returnParcelSend (e x off : Nat) (payload : List Byte)
  | deviceMemoryRequest (e addr granules : Nat) (data : List Byte)
  | msixUnmask (v : Nat)
  | sliceRejectsRead (who : Requester) (k : Nat)
  | beatInFailsafe
  | beatInFailsafeClear
  | beatOutShortEnd
  deriving DecidableEq, Repr

end Sys2Proof
end

