-- ==== Sys2Proof/Decode.lean ====
section
/-! DEFINITION. The command a word spells. The command table gives no row any bits, so no word spells one. -/
namespace Sys2Proof

/-- The command that the word `w` of `nbits` bits spells by the command table's bits: the table gives none. -/
def decodeTableWord (_nbits _w : Nat) : Option Instr := none

end Sys2Proof
end

