-- ==== Sys2Proof/Config.lean ====
section
/-! DEFINITION. What an implementation fixes and the spec leaves open. -/
namespace Sys2Proof.Config

/-- Whether the signature of a firmware image verifies against the mask-ROM public key of its KEY_SLOT
(ECDSA over NIST P-384 on the SHA-384 digest, R390, R392). The spec does not give the keys, so the answer is
left without a body: nothing is known of it but that it is one function of the key slot and the image bytes. -/
opaque signatureVerifies : Nat → List Byte → Bool

/-- The queue slot under which a serving instance's tasks are dealt: the nodes of a serving call belong to no command, and the
spec gives their launch records and hand entries no slot (log entry 6). The argument is the serving entry's index. -/
opaque servingSlot : Nat → BitVec 8

/-- Whether an engine's error word says that the cell refused a floating-point atomic under R324: the engine documents, which
are not part of the spec, define the error words (log entry 25). -/
opaque saysFpAtomic : BitVec 32 → Bool

/-- The OPCODE byte in the completion record of a command that a release entry opened (R278): R182 gives the field no value for it
(log entry 43). -/
opaque releasedOpcode : BitVec 8

/-- The detail of a FATAL packet (R370), by the sub-unit that lost its state: the spec gives the field no value (log entry 45). -/
opaque fatalDetail : Nat → BitVec 56

/-- The parity bit that a counter copy is stored with (R465): the spec does not say which parity it is (log entry 46). -/
opaque parityBit : BitVec 16 → Bool

/-- The page index that a pool's return stack gives back from an address of device memory that cannot be read: the spec gives such a
read no value (R145, log entry 34). -/
opaque unreadPage : Nat → BitVec 24

/-- What section 4 of a snapshot shows at an offset, at a hub cycle: the spec gives the blocks of the region paths and of the trace
path no layout (log entry 47). -/
opaque pathByte : Nat → Nat → BitVec 8

/-- What the scrambler of a trace lane holds when a run of blocks begins: the IDLE blocks before it, which the line sends at its own rate,
have passed it (R411, log entry 86). -/
opaque laneScrambler : Nat → Nat → BitVec 58

/-- How many framing errors beside the one of the held line the UART's receiver has met, by the time and the count so far (R368, log
entry 91). -/
opaque framingErrors : Nat → Nat → Nat

end Sys2Proof.Config
end

