-- ==== Sys2Proof/Machine/Tab.lean ====
section
/-! DEFINITION. Sorted tables, bit fields and little-endian bytes: the small tools every later file uses. -/
namespace Sys2Proof.Machine

/-- A sparse table: key and value pairs, keys strictly rising, no value equal to the table's default. -/
abbrev Tab (α : Type) := List (Nat × α)

/-- The entry of key `k`, if listed. -/
def tfind {α : Type} : Tab α → Nat → Option α
  | [], _ => none
  | (k', v) :: t, k => if k = k' then some v else if k < k' then none else tfind t k

/-- The value of key `k`: its entry, or the default `d`. -/
def tget {α : Type} (d : α) (t : Tab α) (k : Nat) : α := (tfind t k).getD d

/-- Remove the entry of key `k`. -/
def terase {α : Type} : Tab α → Nat → Tab α
  | [], _ => []
  | (k', v) :: t, k =>
    if k = k' then t else if k < k' then (k', v) :: t else (k', v) :: terase t k

/-- List value `v` at key `k`. -/
def tinsert {α : Type} : Tab α → Nat → α → Tab α
  | [], k, v => [(k, v)]
  | (k', v') :: t, k, v =>
    if k = k' then (k, v) :: t
    else if k < k' then (k, v) :: (k', v') :: t
    else (k', v') :: tinsert t k v

/-- Write value `v` at key `k`; writing the default removes the entry, so equal tables are equal lists. -/
def tput {α : Type} [DecidableEq α] (d : α) (t : Tab α) (k : Nat) (v : α) : Tab α :=
  if v = d then terase t k else tinsert t k v

/-- The canonical form: keys strictly rising from `lo`, no entry equal to the default. -/
def twfFrom {α : Type} [DecidableEq α] (d : α) : Nat → Tab α → Bool
  | _, [] => true
  | lo, (k, v) :: t => decide (lo ≤ k) && decide (v ≠ d) && twfFrom d (k + 1) t

def twf {α : Type} [DecidableEq α] (d : α) (t : Tab α) : Bool := twfFrom d 0 t

/-- The keys of a table, ascending. -/
def tkeys {α : Type} (t : Tab α) : List Nat := t.map Prod.fst

/-- Bits [lo + w - 1 : lo] of a natural number. -/
def nbits (x lo w : Nat) : Nat := x / 2 ^ lo % 2 ^ w

/-- Bits [lo + w - 1 : lo] of a register value. -/
def bits {n : Nat} (v : BitVec n) (lo w : Nat) : Nat := nbits v.toNat lo w

/-- One bit of a register value. -/
def bit {n : Nat} (v : BitVec n) (i : Nat) : Bool := v.getLsbD i

/-- The value with bits [lo + w - 1 : lo] replaced by `f`. -/
def setBits {n : Nat} (v : BitVec n) (lo w f : Nat) : BitVec n :=
  let mask : BitVec n := BitVec.ofNat n ((2 ^ w - 1) * 2 ^ lo)
  (v &&& ~~~mask) ||| BitVec.ofNat n (f % 2 ^ w * 2 ^ lo)

/-- Fields of a register: value, place, width. -/
def fields (fs : List (Nat × Nat × Nat)) : BitVec 64 := BitVec.ofNat 64 ((fs.map fun f => f.1 % 2 ^ f.2.2 * 2 ^ f.2.1).sum)

def setBit {n : Nat} (v : BitVec n) (i : Nat) (b : Bool) : BitVec n := setBits v i 1 b.toNat

/-- `n` bytes of `x`, lowest first. -/
def leBytes : Nat → Nat → List Byte
  | 0, _ => []
  | n + 1, x => BitVec.ofNat 8 x :: leBytes n (x / 256)

/-- The number that little-endian bytes spell. -/
def ofLe : List Byte → Nat
  | [] => 0
  | b :: bs => b.toNat + 256 * ofLe bs

/-- `n` bytes of a byte string from offset `o`, read little-endian (bytes past its end read as zero). -/
def leAt (bs : List Byte) (o n : Nat) : Nat := ofLe ((bs.drop o).take n)

def zeros (n : Nat) : List Byte := List.replicate n 0

def ceilDiv (a b : Nat) : Nat := (a + b - 1) / b

def roundUp (a b : Nat) : Nat := ceilDiv a b * b

/-- `a` is higher than `b` in the wrapping sense of R384: (a - b) mod 2^32 lies from 1 to 2^31 - 1. -/
def higher32 (a b : Nat) : Bool :=
  let d := (a + 2 ^ 32 - b % 2 ^ 32) % 2 ^ 32
  decide (1 ≤ d) && decide (d < 2 ^ 31)

/-- Drop the first element that satisfies `p`. -/
def eraseFirst {α : Type} (p : α → Bool) : List α → List α
  | [] => []
  | x :: xs => if p x then xs else x :: eraseFirst p xs

/-- Replace the first element that satisfies `p`. -/
def updFirst {α : Type} (p : α → Bool) (f : α → α) : List α → List α
  | [] => []
  | x :: xs => if p x then f x :: xs else x :: updFirst p f xs

/-- Insert in order: before the first element that `lt` puts after `x`. -/
def insertBy {α : Type} (lt : α → α → Bool) (x : α) : List α → List α
  | [] => [x]
  | y :: ys => if lt x y then x :: y :: ys else y :: insertBy lt x ys

def sortBy {α : Type} (lt : α → α → Bool) (l : List α) : List α :=
  l.foldr (insertBy lt) []

/-- Insert a number into a strictly rising list. -/
def insertNat (x : Nat) (l : List Nat) : List Nat := if x ∈ l then l else insertBy (fun a b => decide (a < b)) x l

/-- The least element of `f` over a list, with the first winning ties. -/
def minBy {α : Type} (f : α → Nat) : List α → Option α
  | [] => none
  | x :: xs => match minBy f xs with
    | none => some x
    | some y => if f x ≤ f y then some x else some y

/-- One step of CRC-32C (Castagnoli, reflected polynomial 0x82F63B78) over a bit. -/
def crcBit (c : BitVec 32) : BitVec 32 :=
  if c.getLsbD 0 then (c >>> 1) ^^^ 0x82F63B78#32 else c >>> 1

def crcByte (c : BitVec 32) (b : Byte) : BitVec 32 :=
  let c := c ^^^ b.setWidth 32
  crcBit (crcBit (crcBit (crcBit (crcBit (crcBit (crcBit (crcBit c)))))))

/-- CRC-32C of a byte string (R23, R262, R292, R385, R411, R417). -/
def crc32c (bs : List Byte) : BitVec 32 := ~~~ (bs.foldl crcByte 0xFFFFFFFF#32)

/-- Undrawn panels as runs (first, count), ascending. -/
abbrev Runs := List (Nat × Nat)

def runsCount (r : Runs) : Nat := r.foldl (fun a x => a + x.2) 0

def runsMin : Runs → Option Nat
  | [] => none
  | (f, n) :: t => if n = 0 then runsMin t else some f

/-- The panel after the last. -/
def runsEnd (r : Runs) : Nat := r.foldl (fun a x => if x.2 = 0 then a else max a (x.1 + x.2)) 0

def runsMem (p : Nat) (r : Runs) : Bool := r.any fun x => decide (x.1 ≤ p) && decide (p < x.1 + x.2)

/-- Take one panel out. -/
def runsDel (p : Nat) : Runs → Runs
  | [] => []
  | (f, n) :: t =>
    if f ≤ p ∧ p < f + n then
      (if p = f then [] else [(f, p - f)]) ++ (if p + 1 = f + n then t else (p + 1, f + n - (p + 1)) :: t)
    else (f, n) :: runsDel p t

/-- Put one panel back. -/
def runsAdd (p : Nat) (r : Runs) : Runs :=
  if runsMem p r then r else
  let r := insertBy (fun a b => decide (a.1 < b.1)) (p, 1) r
  r.foldr (fun x acc => match acc with
    | (f, n) :: t => if x.1 + x.2 = f then (x.1, x.2 + n) :: t else x :: acc
    | [] => [x]) []

/-- The panels at list positions [a, b) of the runs. -/
def runsSlice (a b : Nat) : Runs → Runs
  | [] => []
  | (f, n) :: t =>
    let lo := min a n
    let hi := min b n
    (if lo < hi then [(f + lo, hi - lo)] else []) ++ runsSlice (a - n) (b - n) t

def runsPanels (r : Runs) : List Nat := r.flatMap fun x => (List.range x.2).map (x.1 + ·)

end Sys2Proof.Machine
end

