-- ==== Sys2Proof/Machine/State.lean ====
section
/-! DEFINITION. The state of the block: plain data, one field for each thing the spec gives it. -/
namespace Sys2Proof.Machine

/-- The reasons a step stops with a fault. -/
inductive Fault where
  /-- Raised by no meaning: every row of the table has an effect in every state. Safe. -/
  | none
  deriving DecidableEq, Repr

/-- The reasons a step is refused. -/
inductive Refusal where
  /-- The row has no meaning yet; raised only by an arm of Dispatch. Safe. -/
  | notModelled (mnemonic : String)
  deriving DecidableEq, Repr

/-- A contiguous map of one address space: addresses lo to hi - 1 go to phys on, or have no translation. Space 0
is the chip MMU's device address space, space c + 1 is context c (R161, R187). -/
structure MmuRange where
  space : Nat
  lo : Nat
  hi : Nat
  phys : Option Nat
  /-- The range lies in host memory (R331). -/
  host : Bool := false
  deriving DecidableEq, Repr

/-! ### Front End -/

/-- R163. -/
inductive SlotState where
  | disabled | idle | fetching | saved | faulted | destroying
  deriving DecidableEq, Repr

/-- A fetched ring entry: its index and bytes, or no bytes where its read failed (R178 FE_FETCH). -/
structure Entry where
  idx : BitVec 32
  bytes : Option (List Byte)
  deriving DecidableEq, Repr

/-- A completion record not yet written (R182, R183, R196). -/
structure CplRec where
  seq : Nat
  user : Nat := 0
  status : Nat := 0
  opcode : Nat := 0
  cause : Nat := 0
  folded : Nat := 0
  drained : Nat := 0
  killed : Nat := 0
  ctx : Nat := 0
  irq : Bool := false
  destroyed : Bool := false
  deriving DecidableEq, Repr

/-- One queue slot's own state beside its registers (R160 to R165, R172, R184, R196). -/
structure Slot where
  st : SlotState := .disabled
  whost : BitVec 32 := 0
  wdev : BitVec 32 := 0
  nextSeq : BitVec 64 := 1
  doneSeq : BitVec 64 := 0
  buf : List Entry := []
  /-- IDLE_AT is written and acknowledged; step 6 of R168 is next. -/
  idleCheck : Bool := false
  waiting : List CplRec := []
  irqCount : Nat := 0
  irqSince : Option Nat := none
  polledAt : Nat := 0
  /-- Notifying completions that DONE_SEQ does not cover yet: number, and whether the status was not OK (R184). -/
  notes : List (Nat × Bool) := []
  /-- It was IDLE when its context was saved. -/
  wasIdle : Bool := false
  /-- The completion ring's indices become 0 at the next enable (R436). -/
  cplReset : Bool := false
  latchLost : Nat := 0
  deriving DecidableEq, Repr

/-- An open command (R174, R179, R193, R195). Its key is slot and sequence number. -/
structure Cmd where
  ctx : Nat := 0
  user : Nat := 0
  opcode : Nat := 1
  dflags : Nat := 0
  age : Nat := 0
  folded : Nat := 0
  drained : Nat := 0
  killed : Nat := 0
  /-- Forced ending: status and cause (R194, R223, R343). -/
  ending : Option (Nat × Nat) := none
  /-- The nodes are applied, so the command may retire (R57, R174). -/
  applied : Bool := false
  /-- REPORT: its packet is not yet written. -/
  owesPacket : Bool := false
  release : Option (Nat × Nat) := none
  relEntry : Option Nat := none
  startLatched : Bool := false
  deriving DecidableEq, Repr

/-- A Report Queue packet before it is written (R188, R369): the body is 8-byte argument words. -/
structure Packet where
  typ : Nat
  status : Nat := 0
  pod : Option Nat := none
  source : Nat := 0
  ctx : Option Nat := none
  beat : Nat := 0
  tick : Nat := 0
  body : List Nat := []
  /-- REPORT: the command that retires once the length word is acknowledged. -/
  cmd : Option (Nat × Nat) := none
  deriving DecidableEq, Repr

/-- One copy of a Report Queue pointer, with its parity (R192). -/
structure PtrCopy where
  v : BitVec 32 := 0
  ok : Bool := true
  deriving DecidableEq, Repr

/-- The Front End beside its registers. -/
structure FrontEnd where
  slots : Tab Slot := []
  /-- Open commands, by slot * 2^64 + sequence number. -/
  cmds : Tab Cmd := []
  wrA : PtrCopy := {}
  wrB : PtrCopy := {}
  rdA : PtrCopy := {}
  rdB : PtrCopy := {}
  pktSeq : BitVec 32 := 0
  /-- The writer's FIFO of at most 256 packets, oldest first (R187). -/
  fifo : List Packet := []
  /-- Packets whose sources stall at their event handshake (R191). -/
  stalled : List Packet := []
  /-- Deadline tick of each vector's last signal, plus 1 (R190). -/
  vecLast : Tab Nat := []
  /-- The slot fetched last in each priority class (R172). -/
  lastFetch : Tab Nat := []
  /-- Vectors held back by the once-per-µs limit. -/
  vecHeld : List Nat := []
  msixMask : List Nat := []
  msixPend : List Nat := []
  deriving DecidableEq, Repr

/-! ### Graph Store -/

/-- R46. -/
inductive NodeState where
  | free | template | dormant | waiting | ready | parked | active | done | folded | failed | quarantined
  deriving DecidableEq, Repr

/-- R35. -/
inductive NodeKind where
  | task | join | signal | wait | loop | gate | fanout | remote | sprout | anchor
  deriving DecidableEq, Repr

/-- A node descriptor as held (R40 to R42): w0c, words 0x10 and 0x14, words 0x18 and 0x1C. -/
structure Desc where
  kind : NodeKind := .task
  flags : BitVec 8 := 0
  inDeg : BitVec 16 := 0
  edgeBase : BitVec 22 := 0
  succ : BitVec 16 := 0
  expect : BitVec 16 := 0
  w0 : BitVec 32 := 0
  b : BitVec 64 := 0
  t : BitVec 64 := 0
  deriving DecidableEq, Repr

/-- A counter copy with its parity (R51). -/
structure Copy where
  v : BitVec 16 := 0
  ok : Bool := true
  deriving DecidableEq, Repr

/-- Where a READY or running node is (R76 to R79, R260). -/
inductive Place where
  /-- Ready, not yet dispatched. -/
  | hub
  | offer
  | hand
  | backlog
  /-- Held with no eligible engine (R75). -/
  | held
  | engine
  /-- In a hub unit's queue or at work there. -/
  | unit
  deriving DecidableEq, Repr

/-- A gate's standing (R66, R263). -/
inductive GateState where
  | unarmed | armed | primaryWon | fallbackTaken
  deriving DecidableEq, Repr

/-- What a fan-out gave its instance (R111, R112, R120). -/
structure FanInst where
  expert : Nat := 0
  kept : Nat := 0
  rowsT : Nat := 0
  landing : Option Nat := none
  chip : Nat := 0
  sysExpert : Nat := 0
  rowBytes : Nat := 0
  callSent : Bool := false
  deriving DecidableEq, Repr

/-- One node slot (R46, R47). -/
structure Node where
  st : NodeState := .free
  d : Desc := {}
  pri : Copy := {}
  shd : Copy := {}
  dealt : Bool := false
  /-- Its START edges are applied: a reissued task applies none again (R47). -/
  started : Bool := false
  epoch : Nat := 0
  iter : Nat := 0
  /-- Its command, as slot and sequence number. -/
  cmd : Option (Nat × Nat) := none
  /-- The node that instantiated it (R111, R151, R69), or the call slot it serves. -/
  parent : Option Nat := none
  call : Option Nat := none
  rows : Nat := 0
  fan : Option FanInst := none
  /-- Written by an INDIRECT descriptor; the pointer word read for this activation (R186). -/
  indirect : Bool := false
  /-- The context whose space holds the pointer word: that bound to the slot of the descriptor (R161). -/
  ptrCtx : Nat := 0
  ptr : Option (BitVec 64) := none
  place : Place := .hub
  order : Nat := 0
  readyAt : Nat := 0
  /-- HUB_CYCLES when it became READY (R287). -/
  readyHub : Nat := 0
  /-- Deadline tick in which it became ACTIVE (R280). -/
  startedAt : Nat := 0
  /-- Ended under R195: which panels were dropped or did not end OK. -/
  ending : Bool := false
  spoiled : Bool := false
  /-- Undrawn panels held at the hub (R74, R79, R260); `none` for the whole range. -/
  runs : Option Runs := none
  /-- The combine turn (R87): lowest panel that has not passed, and panels above it that have. -/
  turn : Nat := 0
  passed : List Nat := []
  turnHub : Bool := false
  panelsOk : Nat := 0
  /-- LOOP: the trip count read, if any, and the current iteration (R63). -/
  trip : Option Nat := none
  iterNo : Nat := 0
  /-- LOOP: ends after this iteration (R144). -/
  loopEnd : Bool := false
  gst : GateState := .unarmed
  release : Option (Nat × Nat) := none
  /-- GATE: TB_TICK at its release (R263, R280). -/
  relTick : Nat := 0
  /-- GATE: primary nodes not yet DONE, or after the fallback, fallback nodes not yet DONE (R66, R282). -/
  left : List Nat := []
  /-- GATE: TAIL of each primary node (R279); not monitored, for want of room. -/
  tails : List (Nat × Nat) := []
  unmon : Bool := false
  evaluatedAt : Nat := 0
  predicted : Bool := false
  /-- FANOUT: OUT_ADDR, LIST_OFF, MASK_OFF, RET_ADDR and RET_ROW_BYTES of its expansion (R107, R126). -/
  fanOut : List Nat := []
  /-- SPROUT: its reservation's first node and edge (R67). -/
  res : Option (Nat × Nat) := none
  /-- WAIT: registration ordinal; waits for a record (R216). REMOTE, SIGNAL: a parcel was sent. -/
  ord : Nat := 0
  sent : Bool := false
  deriving DecidableEq, Repr

/-- Who holds a dynamic block (R38, R57, R67, R121). -/
inductive DynOwner where
  | node (i : Nat)
  | cmd (slot seq : Nat)
  | call (x : Nat)
  deriving DecidableEq, Repr

/-- R259. -/
inductive CtxState where
  | unused | resident | saving | saved | restoring | faulted
  deriving DecidableEq, Repr

/-- The fault record of R341. -/
structure FaultRec where
  status : Nat := 1
  cause : Nat := 0
  node : Option Nat := none
  engine : Option Nat := none
  cmd : Option (Nat × Nat) := none
  level : Nat := 4
  later : Nat := 0
  detail : Nat := 0
  tag : Nat := 0
  deriving DecidableEq, Repr

/-- The launch record of R91. -/
structure Launch where
  const : Nat := 0
  node : Nat := 0
  ctx : Nat := 0
  slot : Nat := 0
  pod : Nat := 0
  det : Nat := 0
  trace : Bool := false
  sprout : Bool := false
  panel : Nat := 0
  panels : Nat := 0
  iter : Nat := 0
  route : Nat := 0
  epoch : Nat := 0
  deriving DecidableEq, Repr

/-- A suspended task (R257, R258, R264). -/
structure Susp where
  launch : Launch
  engine : Nat
  addr : Nat
  since : Nat
  /-- Claims it has taken and not released, while CHECK is 1 (R225). -/
  claims : List Nat := []
  deriving DecidableEq, Repr

/-- One context beside its registers. -/
structure Ctx where
  st : CtxState := .unused
  fault : Option FaultRec := none
  /-- TEARDOWN_DONE is written (R343). -/
  torn : Bool := false
  /-- A fault latched while SAVING waits for step 6 of the save (R346). -/
  faultedInSave : Bool := false
  /-- A save in progress: SUSPEND mode, and whether auto-swap asked for it (R260). -/
  saveSuspend : Bool := false
  saveAuto : Bool := false
  dynN : Tab DynOwner := []
  dynE : Tab DynOwner := []
  /-- Instantiating nodes that wait for blocks, oldest first (R61). -/
  dynWait : List Nat := []
  /-- Suspend records in use (R257). -/
  suspUsed : List Nat := []
  blockedSince : Option Nat := none
  /-- Tick of the pre-emption running for GS_CTX_PREEMPT_TIME (R287). -/
  savedAt : Option Nat := none
  /-- The CRC field of the image that this chip wrote last for the context, and what an image has no field for: the nodes and the
  suspended tasks as they stood then (log entry 41). -/
  savedCrc : Option Nat := none
  keptNodes : List (Nat × Node) := []
  keptSusp : List (Nat × Susp) := []
  deriving DecidableEq, Repr

/-- One entry of the Resolver's input ports (R29, R52): an increment or decrement of `n` to a node; `src` is the
source whose last edge this is. -/
structure Update where
  inc : Bool
  node : Nat
  n : Nat
  src : Option Nat := none
  deriving DecidableEq, Repr

/-- The Fan-out unit's work in hand (R104, R118, R129): the facts of the header, and of pass 1. -/
structure FanWork where
  node : Nat
  outAddr : Nat := 0
  epoch : Nat := 0
  tokens : Nat := 0
  sized : Bool := false
  retAddr : Nat := 0
  rowBytes : Nat := 0
  remoteTpl : Nat := 0
  /-- REQUESTED and KEPT by expert. -/
  req : Tab Nat := []
  kept : Tab Nat := []
  /-- The choices that pass 1 kept (expert, place in its list, token, choice) and its masks, newest first: pass 2 must find the
  same (R104, R105). -/
  entries : List (Nat × Nat × Nat × Nat) := []
  masks : List Nat := []
  /-- Experts on other chips with kept tokens: expert, chip, SYS_EXPERT. -/
  remote : List (Nat × Nat × Nat) := []
  /-- Landing entries opened so far: expert and index. -/
  opened : List (Nat × Nat) := []
  /-- Waits for landing entries before pass 2. -/
  waiting : Bool := false
  /-- Pass 2 is done; only instances are due. -/
  written : Bool := false
  deriving DecidableEq, Repr

/-- Graph Store, Resolver and Fan-out unit. Node i of context c has key c * 2^20 + i, edge j has c * 2^22 + j. -/
structure GraphStore where
  nodes : Tab Node := []
  edges : Tab (BitVec 32) := []
  /-- Node and edge slots whose stored word is uncorrectable, and those whose word is corrected on read (R360). -/
  nodeBad : List Nat := []
  edgeBad : List Nat := []
  nodeFix : List Nat := []
  edgeFix : List Nat := []
  ctxs : Tab Ctx := []
  resIn : List Update := []
  /-- Nodes armed with a zero counter (R54 step 4), ascending. -/
  armed : List Nat := []
  /-- JOIN and GATE nodes made ready, which complete in the next hub cycle (R35, R66). -/
  hubReady : List Nat := []
  /-- Arrival count of READY nodes, for the orders of R80 and R267. -/
  order : Nat := 0
  fan : Option FanWork := none
  /-- Expansions whose instances wait for dynamic blocks (R61, R111). -/
  fanHeld : List FanWork := []
  /-- PARKED nodes in the order they parked (R267). -/
  parkList : List Nat := []
  deriving DecidableEq, Repr

/-! ### Dealing -/

/-- A hand entry (R78, R80, R258). -/
structure HandEnt where
  key : Nat
  pod : Nat
  cls : Nat
  slot : Nat
  kitty : Bool := false
  susp : Option Susp := none
  /-- The share a kitty entry stands for, and the engine held for the entry (R88, R256). -/
  share : Nat := 0
  want : Option Nat := none
  arrive : Nat := 0
  /-- Tile cycle of its arrival (R465). -/
  cycle : Nat := 0
  deriving DecidableEq, Repr

/-- A share of a kitty node in one dealer (R83 to R86). -/
structure Share where
  key : Nat
  /-- Tells the shares of one node in one dealer apart: the dealer's arrival count when it came (R74). -/
  id : Nat := 0
  /-- The bounds with which it came: its first panel, and the one after its last (R83). -/
  first : Nat := 0
  stop : Nat := 0
  undrawn : Runs := []
  size : Nat := 0
  done : Nat := 0
  running : List Nat := []
  /-- Every panel of the share is finished, and the report is on its way (R85). -/
  reported : Bool := false
  deriving DecidableEq, Repr

/-- One region's dealer. -/
structure Dealer where
  hands : List HandEnt := []
  shares : List Share := []
  /-- R81: PTR of 3 * pod + class. -/
  ptr : Tab Nat := []
  /-- The hand last served (R82). -/
  last : Nat := 0
  /-- Confirmed offers and victims' entries waiting for an issue slot: node key, held engine. -/
  confirmed : List (Nat × Nat) := []
  rebuild : Bool := false
  /-- Issue slots since the Align reference edge (R90). -/
  slotNo : Nat := 0
  /-- Entries by which the write pointers of the region's two synchroniser FIFOs stand ahead of their read pointers, fixed by Align while
  the clocks run at their nominal ratio (R26, R379). -/
  lead : Option Nat := none
  arrivals : Nat := 0
  pathDown : Bool := false
  pathDownAt : Nat := 0
  lastPathFault : Option Nat := none
  pathSeq : Nat := 0
  deriving DecidableEq, Repr

/-- An offer round (R77). -/
structure Offer where
  key : Nat
  regions : List Nat
  /-- Answers on their way: region, engine held and free count. -/
  transit : List (Nat × Option (Nat × Nat)) := []
  /-- Answers that reached the hub. -/
  got : List (Nat × Option (Nat × Nat)) := []
  asked : List Nat := []
  closed : Bool := false
  /-- Confirmation on its way: region and engine. -/
  confirm : Option (Nat × Nat) := none
  /-- Withdrawals on their way: region and engine. -/
  withdraw : List (Nat × Nat) := []
  deriving DecidableEq, Repr

/-- An engine's open WAIT or CLAIM (R213, R217). -/
structure Watch where
  obj : Nat
  vid : Nat
  claim : Bool := false
  cond : Nat := 0
  thr : Nat := 0
  scope : Nat := 0
  deriving DecidableEq, Repr

/-- An engine as Tsuica sees it at its cell port or LE port. -/
structure Engine where
  job : Option Launch := none
  /-- HUB_CYCLES at the launch or resume, and the deadline tick (R256, R287). -/
  startAt : Nat := 0
  startTick : Nat := 0
  held : Option Nat := none
  /-- A drain is pending, since this tick (R195). -/
  drain : Option Nat := none
  /-- A cell reset is running (R195, R350). -/
  reset : Option Nat := none
  /-- A suspension is pending: since, record address, the trump entry (R257). -/
  susp : Option (Nat × Nat × Option Nat) := none
  watch : Option Watch := none
  /-- Waits for its combine turn, or holds it unpassed (R87). -/
  turnAsk : Bool := false
  turnHeld : Bool := false
  /-- Remote SIGNALs posted by the task and not answered (R220), and whether one was given up (R298). -/
  posted : Nat := 0
  postedLost : Bool := false
  /-- Claims taken by the task and not released, while CHECK is 1 (R225). -/
  claims : List Nat := []
  inval : Bool := false
  /-- Hub cycles of the task in which the engine did not work (R285, R287). -/
  stall : Nat := 0
  deriving DecidableEq, Repr

/-- A completion report that a cell port has accepted and the hub has not (R93, R95). -/
structure EngReport where
  e : Nat
  job : Launch
  st : CellStatus
  word : BitVec 32
  deriving DecidableEq, Repr

/-- A device-memory request waiting at a region ordering point (R283). -/
structure MemReq where
  e : Nat
  ctx : Nat
  addr : Nat
  granules : Nat
  data : List Byte
  /-- The objects on which a release that covers this write was applied, and the engines that have acquired one since (R234, R236). -/
  on : List Nat := []
  seen : List Nat := []
  deriving DecidableEq, Repr

/-- One pod beside its registers. -/
structure Pod where
  tset : Tab (List (BitVec 32)) := []
  /-- A tile-set commit in progress: its index and words (R72). -/
  commit : Option (Nat × List (BitVec 32)) := none
  swapq : List Nat := []
  /-- Lead slot and elapsed ticks of classes 0 to 3 (R253). -/
  lead : Tab Nat := []
  elapsed : Tab Nat := []
  /-- R145: the top entries of the return stack, top first, how many lie below them in memory at STACK_ADDR, and the lowest page
  never granted. -/
  stack : List Nat := []
  deep : Nat := 0
  nextPage : Nat := 0
  allSince : Option Nat := none
  allRaised : Bool := false
  /-- Auto-swap (R272): the context being saved; outgoing and incoming contexts of a swap; an auto-swap that waits for a save. -/
  swapOut : Option Nat := none
  swapIn : Option (Nat × Nat) := none
  swapDue : Bool := false
  deriving DecidableEq, Repr

/-- Slow-down counts of a pod in the running period (R285, R286). -/
structure SlowCount where
  b : Nat := 0
  o : Nat := 0
  x : Nat := 0
  memBytes : Nat := 0
  linkBytes : Nat := 0
  heldMem : Nat := 0
  heldLink : Nat := 0
  deriving DecidableEq, Repr

/-- Dealers, engines, offer rounds, backlogs and regulators. -/
structure Dealing where
  dealers : Tab Dealer := []
  engines : Tab Engine := []
  /-- Start and completion reports on their way to the hub, in the order they were sent (R95). -/
  starts : List (Nat × Launch) := []
  reports : List EngReport := []
  offers : List Offer := []
  /-- Nodes waiting for an offer round (R77), in dispatch order. -/
  offerWait : List Nat := []
  /-- Backlogs: pod * 8 + region, node keys in order (R79). -/
  backlog : Tab (List Nat) := []
  /-- The link deal stage (R96): hands in arrival order, pointers per pod, hand last served, slot number. -/
  leHand : List HandEnt := []
  lePtr : Tab Nat := []
  leLast : Nat := 0
  leSlotNo : Nat := 0
  pods : Tab Pod := []
  /-- Memory buckets: pod * 8 + region; link buckets: pod (R283). May be negative. -/
  memBucket : Tab Int := []
  linkBucket : Tab Int := []
  memWait : Tab (List MemReq) := []
  slow : Tab SlowCount := []
  obsBucket : Int := 9000
  slowSeq : Nat := 0
  /-- Tick at which the running slow-down period began (R286). -/
  slowAt : Nat := 0
  deriving DecidableEq, Repr

/-! ### Sync Unit -/

/-- Who waits on an object (R216, R227). -/
structure Waiter where
  engine : Bool := false
  /-- Node key, or engine ID. -/
  who : Nat
  ctx : Nat
  claimer : Bool := false
  cond : Nat := 0
  thr : Nat := 0
  scope : Nat := 2
  deriving DecidableEq, Repr

/-- A physical object (R199). -/
structure SyncObj where
  alloc : Bool := false
  kind : Nat := 0
  value : BitVec 48 := 0
  overset : BitVec 8 := 0
  owner : BitVec 9 := 0
  orphaned : Bool := false
  partner : BitVec 16 := 0
  role : BitVec 2 := 0
  depth : BitVec 16 := 0
  status : BitVec 16 := 0
  lastSrc : BitVec 2 := 0
  lastId : BitVec 32 := 0
  lastScope : BitVec 2 := 0
  waiters : List Waiter := []
  deriving DecidableEq, Repr

/-- The operations of R206. -/
inductive SyncOp where
  | set | clear | advance (amt : Nat) | release | claim | tryClaim | read
  | wait (cond thr : Nat)
  deriving DecidableEq, Repr

/-- Who operates on an object (R212 to R214, R220). -/
inductive SyncSrc where
  | node (key : Nat)
  | engine (e ctx : Nat)
  | remote (chip srcCtx ctx : Nat)
  deriving DecidableEq, Repr

/-- An operation waiting for its translation (R204, R215). -/
structure SyncReq where
  src : SyncSrc
  vid : Nat
  scope : Nat
  op : SyncOp
  /-- A remote SIGNAL: port and parcel facts of its answer. -/
  e2e : Option (Nat × Nat × Nat × Nat) := none
  /-- The task that posted it was killed: no completion waits for it (R195, R220). -/
  stray : Bool := false
  deriving DecidableEq, Repr

/-- A donation (R268). -/
structure Donation where
  flag : Nat
  holder : Nat
  since : Nat
  /-- CLAIM_DONATE is written. -/
  told : Bool := false
  deriving DecidableEq, Repr

/-- The Sync Unit. Flag or claim f has key f, tally t has key 2^18 + t. -/
structure SyncUnit where
  objs : Tab SyncObj := []
  /-- Cached translations, newest first: context, VID, entry. -/
  cache : List (Nat × Nat × BitVec 64) := []
  xlatWait : List SyncReq := []
  /-- Posted operations held at a cell port or LE port until their engine's earlier writes are acknowledged (R219). -/
  portWait : List SyncReq := []
  /-- WAIT nodes waiting for a waiter record, in order of arrival, each with its translation entry (R216). -/
  recWait : List (Nat × BitVec 64) := []
  /-- The captured view: 192 bytes (R453). -/
  view : List Byte := []
  /-- A running invalidation: context and VID, or the whole context (R204). -/
  inv : Option (Nat × Option Nat) := none
  dumpBusy : Bool := false
  /-- Where the header goes, and its bytes. -/
  dumpAt : Nat := 0
  dumpHeader : List Byte := []
  donations : List Donation := []
  regOrd : Nat := 0
  deriving DecidableEq, Repr

/-! ### Roster -/

/-- R135. -/
inductive SeqState where
  | free | importing | pending | ready | inTrick | held | ended | folded
  deriving DecidableEq, Repr

/-- A roster entry (R133). -/
structure SeqEnt where
  st : SeqState := .free
  urgent : Bool := false
  isImport : Bool := false
  starved : Bool := false
  imported : Bool := false
  epoch : BitVec 16 := 0
  roster : Nat := 0
  tag : BitVec 64 := 0
  admitSeq : BitVec 32 := 0
  kvLen : Nat := 0
  prefillLeft : Nat := 0
  prefillOff : Nat := 0
  decoded : BitVec 32 := 0
  maxLen : Nat := 0
  pageList : Nat := 0
  pages : List Nat := []
  pageCap : Nat := 0
  prompt : BitVec 64 := 0
  lastTrick : BitVec 32 := 0
  tricks : BitVec 32 := 0
  admitBeat : Nat := 0
  impExpert : Nat := 0
  impChip : Nat := 0
  landing : Nat := 0
  impAddr : Nat := 0
  impRows : Nat := 0
  impRowBytes : Nat := 0
  impTokens : Nat := 0
  resultLast : BitVec 32 := 0
  /-- Extensions kept until the trick-end step: tokens and PROMPT_ADDR (R139). -/
  kept : List (Nat × Nat) := []
  deriving DecidableEq, Repr

/-- A retire record waiting for ring room (R154). -/
structure RetRec where
  slot : Nat
  reason : Nat
  pages : Nat
  deriving DecidableEq, Repr

/-- One sequence of a trick: slot, tokens, whether prefill, pages granted, state before, first row, KV length. -/
structure TrickSeq where
  slot : Nat
  c : Nat
  prefill : Bool
  newPages : Nat
  was : SeqState
  first : Nat
  pos : Nat
  admitSeq : Nat := 0
  deriving DecidableEq, Repr

/-- A trick in progress (R149 to R153). -/
structure Trick where
  /-- The ANCHOR's node key. -/
  anchor : Nat
  epoch : Nat
  number : Nat
  beat : Nat
  seqs : List TrickSeq
  tokens : Nat
  /-- CAP_FACTOR at its composition (R132). -/
  capFactor : Nat := 0
  instantiated : Bool := false
  folded : Bool := false
  /-- Results are taken; the log record or the ANCHOR's completion is left. -/
  resulted : Bool := false
  deriving DecidableEq, Repr

/-- One roster beside its registers. -/
structure Ros where
  lists : Tab (List Nat) := []
  trick : Option Trick := none
  /-- ANCHORs that wait ACTIVE to compose (R143, R152). -/
  anchors : List Nat := []
  /-- The last composition skipped a sequence for want of pages (R147). -/
  famine : Bool := false
  stallTold : Bool := false
  /-- A reason to compose again has come (R143). -/
  wake : Bool := false
  retire : List RetRec := []
  deriving DecidableEq, Repr

/-- A residency entry (R266). -/
structure ResEnt where
  st : Nat := 0
  target : Nat := 0
  flag : Nat := 0
  fpod : Nat := 0
  size : Nat := 0
  deriving DecidableEq, Repr

structure RosterUnit where
  seqs : Tab SeqEnt := []
  ros : Tab Ros := []
  resid : Tab ResEnt := []
  deriving DecidableEq, Repr

/-! ### Timebase -/

structure Timebase where
  /-- Release entries (R277, R438): the six words.. -/
  rel : Tab (List (BitVec 32)) := []
  /-- TB_BEAT_CFG as in force, while a new SOURCE or PERIOD waits for the next Beat tick (R273). -/
  inForce : Option (BitVec 64) := none
  flywheels : Nat := 0
  accepted : Nat := 0
  /-- BEAT_LOST is written and BEAT_LOCKED has not followed (R274). -/
  lost : Bool := false
  /-- An accepted Beat parcel's value, and the deadline tick of its arrival (R275). -/
  remote : Option Nat := none
  remoteAt : Nat := 0
  noisyAt : Option Nat := none
  /-- The receiver of TSU_BEAT_IN is inverted (R367). -/
  rxInverted : Bool := false
  deriving DecidableEq, Repr

/-! ### Link Interface -/

/-- Parcel bodies (R294, R295). -/
inductive PBody where
  | decrement (node ctx count : Nat)
  | signal (vid op ctx amount : Nat)
  | call (expert rows rowBytes landing gen epoch : Nat)
  | ret (landing gen epoch offset : Nat) (payload : List Byte)
  | ack (seq status reason : Nat)
  | hello (port : Nat) (seen : Bool) (revMin revMax system : Nat) (credits : List Nat)
  | beat (v : Nat)
  | cutMarker (id : Nat)
  | unknown (typ : Nat) (bytes : List Byte)
  deriving DecidableEq, Repr

/-- A parcel (R293). -/
structure Parcel where
  hops : Nat := 5
  rset : Nat := 0
  dst : Nat := 0
  src : Nat := 0
  slice : Nat := 0
  ctx : Nat := 0
  e2e : Nat := 0
  incarn : Nat := 0
  body : PBody
  deriving DecidableEq, Repr

/-- A block on a hop (R292). -/
structure Block where
  seq : Nat := 0
  ack : Nat := 0
  nak : Bool := false
  queue : Nat := 0
  credQ : Nat := 0
  credN : Nat := 0
  parcels : List Parcel := []
  deriving DecidableEq, Repr

/-- A block in a replay buffer: HUB_CYCLES when it was last sent, and how often it was resent (R23, R290). -/
structure Sent where
  blk : Block
  sentAt : Nat := 0
  tries : Nat := 0
  deriving DecidableEq, Repr

/-- A block in a receive queue: parcels not yet taken, and how many of those taken still hold its credit (R121, R291). -/
structure RxBlock where
  seq : Nat := 0
  parcels : List Parcel := []
  held : Nat := 0
  /-- Received before the port last left UP: its credit is of no use any more (R307). -/
  old : Bool := false
  /-- The block as received, and whether it came after the Snap edge and before its port's marker (R317, R465). -/
  raw : List Byte := []
  inCut : Bool := false
  deriving DecidableEq, Repr

/-- R306. -/
inductive PortState where
  | disabled | training | hello | up | mismatched | fenced | retrain
  deriving DecidableEq, Repr

/-- One Swelor port beside its registers. -/
structure Port where
  st : PortState := .disabled
  rev : Nat := 0
  reason : Nat := 0
  since : Nat := 0
  sentSeen : Bool := false
  gotSeen : Bool := false
  gotAny : Bool := false
  silentTold : Bool := false
  /-- When the next HELLO may be sent. -/
  helloAt : Nat := 0
  farCredits : List Nat := []
  farRev : Nat × Nat := (0, 0)
  /-- Credits for the far end's queues 0 to 10 (R291). -/
  credits : Tab Nat := []
  nextSeq : Nat := 0
  /-- The replay buffer, oldest first (R290). -/
  replay : List Sent := []
  rxNext : Nat := 0
  nakOwed : Bool := false
  ackOwed : Bool := false
  /-- Receive queues: blocks not yet applied, oldest first (R291). -/
  rx : Tab (List RxBlock) := []
  /-- The pod whose starting parcels were sent last (R304). -/
  rotor : Nat := 0
  /-- Credits to return: queue numbers, oldest first. -/
  owed : List Nat := []
  /-- Transmit stage: parcels to forward or answer, by target queue (R304). -/
  tx : Tab (List Parcel) := []
  ctl : List Parcel := []
  /-- Cut record of R319: 0 ABSENT, 1 MARKED, 2 UNMARKED, 3 INCOMPLETE; 4 while open. -/
  cut : Nat := 0
  inCut : Bool := false
  rejectArmed : Bool := true
  deriving DecidableEq, Repr

/-- What an unanswered request stands for at its sender (R296 to R300). -/
inductive Asker where
  | node (key : Nat)
  | engine (e : Nat)
  | landing (l : Nat)
  | none
  deriving DecidableEq, Repr

/-- An unanswered request parcel (R296, R298). -/
structure Unanswered where
  dst : Nat
  seq : Nat
  parcel : Parcel
  asker : Asker
  sentAt : Nat
  resends : Nat := 0
  pod : Nat := 0
  /-- Waits in its context's send queue for a port (R298) or a place in the window (R296). -/
  queued : Bool := true
  deriving DecidableEq, Repr

/-- What a receiver keeps of a source chip (R297): taken numbers at or above NEXT - 256 with their answers. -/
structure SrcChip where
  incarn : Nat := 0
  next : Nat := 0
  taken : Tab (Nat × Nat) := []
  deriving DecidableEq, Repr

/-- R119. -/
inductive LandState where
  | free | isOpen | filled | revoked | broken
  deriving DecidableEq, Repr

/-- R118. -/
inductive LandOwner where
  | trick (roster epoch : Nat)
  | sequence (roster slot epoch : Nat)
  | command (slot seq : Nat)
  deriving DecidableEq, Repr

/-- A landing entry (R118). -/
structure Landing where
  st : LandState := .free
  gen : BitVec 8 := 0
  ctx : Nat := 0
  owner : LandOwner := .command 0 0
  epoch : Nat := 0
  base : Nat := 0
  expect : Nat := 0
  received : Nat := 0
  /-- The FANOUT node that opened it, the arrival count of that activation of it, and its expert. -/
  node : Option Nat := none
  opener : Nat := 0
  expert : Nat := 0
  callAt : Option Nat := none
  leftAt : Nat := 0
  dropTold : Bool := false
  deriving DecidableEq, Repr

/-- A call slot in use (R121 to R123). -/
structure CallSlot where
  busy : Bool := false
  ctx : Nat := 0
  srcChip : Nat := 0
  landing : Nat := 0
  epoch : Nat := 0
  gen : Nat := 0
  rset : Nat := 0
  slice : Nat := 0
  srcCtx : Nat := 0
  deriving DecidableEq, Repr

/-- A call that waits for its call slot with its credits held (R121): serving entry, parcel, port, queue, block. -/
structure CallWait where
  entry : Nat
  parcel : Parcel
  port : Nat
  queue : Nat
  blk : Nat
  deriving DecidableEq, Repr

/-- A held DECREMENT (R301). -/
structure HeldDec where
  parcel : Option Parcel
  /-- A local REMOTE node (R70). -/
  localNode : Option Nat
  ctx : Nat
  node : Nat
  count : Nat
  deriving DecidableEq, Repr

structure LinkUnit where
  ports : Tab Port := []
  routes : Tab (BitVec 32) := []
  unanswered : List Unanswered := []
  /-- Parcels beyond a limit of R296, waiting for a number. -/
  numberWait : List Unanswered := []
  /-- Answers that start their route here and have no usable port (R298, R307). -/
  respWait : List Parcel := []
  /-- RETURN parcels that start their route here, in the send queues of their contexts, each with its link engine (R304). -/
  retWait : List (Nat × Parcel) := []
  nextE2e : Tab Nat := []
  srcs : Tab SrcChip := []
  landings : Tab Landing := []
  serve : Tab (List (BitVec 32)) := []
  callCount : Tab Nat := []
  /-- Call slots: entry * 256 + slot. -/
  calls : Tab CallSlot := []
  /-- Calls waiting for their call slot, oldest first (R121). -/
  callWait : List CallWait := []
  pend : List HeldDec := []
  loopDrops : Nat := 0
  loopTold : Option Nat := none
  deriving DecidableEq, Repr

/-! ### Faults, clocks, start-up, observation and the service cores -/

/-- A clock domain: its source, step in sixteenths of target, direction (R376, R377). Domains 0 to 7 are the
compute-die tile clocks, 8 the hub clock, 9 the service-core clock. -/
structure Clock where
  pll : Bool := false
  step : Nat := 0
  goal : Nat := 16
  deriving DecidableEq, Repr

/-- A die's supply (R363, R364). -/
structure Supply where
  warn : Bool := false
  /-- µs for which CLEAR has held, once it has risen. -/
  clearFor : Option Nat := none
  /-- µs since WARN rose, while the dip lasts. -/
  us : Nat := 0
  /-- The most steps below nominal that the clock has stood at during the dip. -/
  lowest : Nat := 0
  dipped : Bool := false
  deriving DecidableEq, Repr

structure FaultUnit where
  supply : Tab Supply := []
  clocks : Tab Clock := []
  /-- Returns in progress, oldest first: LEVEL and UNIT (R355). -/
  unbench : List (Nat × Nat) := []
  /-- Tick of each cell bench, for the pair rule of R352: engine ID, tick. -/
  recent : List (Nat × Nat) := []
  deriving DecidableEq, Repr

/-- The phase of the start sequence (R374). -/
inductive Phase where
  | settings | pll | ready
  deriving DecidableEq, Repr

structure StartUnit where
  phase : Phase := .settings
  gsDone : Bool := false
  /-- A chip reset written under R373 is due at the next µs. -/
  resetDue : Bool := false
  /-- HUB_CYCLES at the Align of step 6 of R374, from which trace time stamps count (R405). -/
  alignAt : Nat := 0
  /-- What has reached a stopped sub-unit under KL-400 compatibility: the unit and the row, oldest first (R382). -/
  atGate : List (Nat × Instr) := []
  deriving DecidableEq, Repr

/-- R414. -/
inductive StopState where
  | running | frozen | quiescing | quiesced | snapped
  deriving DecidableEq, Repr

/-- A trace record (R405). -/
structure TraceRec where
  typ : Nat
  source : Nat
  ctx : Option Nat := none
  disturbed : Bool := false
  engine : Option Nat := none
  ts : Nat := 0
  node : Nat := 0
  arg : Nat := 0
  tag : Nat := 0
  deriving DecidableEq, Repr

/-- A register access, Beat edge or monitor command held for later: an input of R328, or a write held while SNAPPED (R416). -/
inductive Held where
  | write (who : Requester) (off : Nat) (wide : Bool) (v : BitVec 64)
  | doorbell (n : Nat) (v : BitVec 32)
  | read (who : Requester) (off : Nat) (wide : Bool)
  | beatPin
  | monitor (i : Instr)
  /-- A read completion from host memory, as the row whose read it completes. -/
  | completion (i : Instr)
  deriving DecidableEq, Repr

/-- A latch record on its way to the ring of its slot (R397). -/
structure LatchRec where
  slot : Nat
  seq : Nat
  isEnd : Bool
  /-- The LOST it carries. -/
  lost : Nat
  bytes : List Byte
  deriving DecidableEq, Repr

structure Observe where
  stop : StopState := .running
  /-- The state a SNAPPED chip returns to (R414). -/
  before : StopState := .running
  /-- Markers all in, so vector 273 was signalled (R415). -/
  cutFinal : Bool := false
  snapAt : Nat := 0
  /-- BEAT and TS of the last cut of a FREEZE or QUIESCE, and of the last edge of a SNAP (R417). -/
  cut : Nat × Nat := (0, 0)
  edge : Nat × Nat := (0, 0)
  /-- The registers' values at that edge, which BAR0 reads while SNAPPED (R416). -/
  edgeRegs : Tab (BitVec 64) := []
  /-- Writes held while SNAPPED, oldest first (R416). -/
  snapHeld : List Held := []
  /-- External inputs not yet admitted (R328, R329). -/
  inputs : List Held := []
  trace : List TraceRec := []
  /-- Records that found a LOSSLESS buffer full, at their sources' handshakes, oldest first (R410). -/
  traceWait : List TraceRec := []
  fseq : Nat := 0
  trigSeen : Nat := 0
  triggered : Bool := false
  postLeft : Nat := 0
  stoppedMaking : Bool := false
  /-- Draining after MODE OFF, a capture's end, or a fault: the reason of TRACE_STOPPED owed. -/
  draining : Option Nat := none
  trigCount : Nat := 0
  drops : Tab Nat := []
  dropTotal : Tab Nat := []
  /-- LOSSLESS has stopped every dealer's issue (R410). -/
  lossStop : Bool := false
  traceDown : Bool := false
  portSince : Option Nat := none
  /-- Sends on the lanes so far: an index of the model's own, for what the scramblers hold (log entry 86). -/
  laneRuns : Nat := 0
  /-- The µs of the last ALIGN blocks (R411). -/
  alignedAt : Option Nat := none
  /-- Latch records that the observation regulator holds, oldest first (R412). -/
  latchWait : List LatchRec := []
  dumpBusy : Bool := false
  /-- Where the header goes, and its bytes. -/
  dumpAt : Nat := 0
  dumpHeader : List Byte := []
  /-- What of the image is still to be written, and where (R417). -/
  dumpNext : Nat := 0
  dumpBody : List Byte := []
  /-- Inspection latches: requester, aperture, record offset and bytes (R463). -/
  insp : List (Requester × Nat × Nat × List Byte) := []
  deriving DecidableEq, Repr

/-- One service core (R359, R391). -/
structure Core where
  st : Nat := 0
  reason : Nat := 0
  kickedAt : Nat := 0
  /-- The address of the image that is being read, the local memory, and where the image starts (R372, R390, R391). -/
  addr : Nat := 0
  mem : List Byte := []
  entry : Nat := 0
  deriving DecidableEq, Repr

structure Service where
  cores : Tab Core := []
  spiBusy : Bool := false
  reloadPending : Bool := false
  reloading : Bool := false
  uartOff : Bool := false
  session : Bool := false
  deriving DecidableEq, Repr

/-- The 32-bit half latches of one requester (R12): register offset and half. -/
structure Latch where
  rd : Option (Nat × BitVec 32) := none
  wr : Option (Nat × BitVec 32) := none
  deriving DecidableEq, Repr

/-! ### What leaves the block -/

/-- An answer to a sync request (R213). -/
inductive Answer where
  | ok | busy | orphaned | fault
  deriving DecidableEq, Repr

/-- What the block drives at its boundary: register read data, aborts, messages, orders on cell ports, blocks. -/
inductive Out where
  | readData (who : Requester) (off : Nat) (v : BitVec 64)
  | abort (who : Requester)
  | msix (v : Nat)
  | launch (e : Nat) (l : Launch)
  | resumeOrder (e addr : Nat)
  | suspendOrder (e addr : Nat)
  | drain (e : Nat)
  | cellReset (e : Nat)
  | turnGrant (e : Nat)
  | answer (e : Nat) (a : Answer) (w : BitVec 64)
  | mirror (e : Nat) (v : BitVec 48)
  | inval (e addr len : Nat)
  | invalAnswer (e : Nat)
  | memPass (e addr granules : Nat)
  | block (k : Nat) (b : Block)
  /-- What the trace port sends: on each of its lanes, blocks of a sync header and a scrambled payload (R411). -/
  | trace (lanes : List (List (Nat × BitVec 64)))
  | beatPulse
  | spi (opcode : Nat) (addr : List Byte) (dummy len : Nat) (dual : Bool) (data : List Byte)
  | uart (bytes : List (BitVec 32)) (ok : Bool) (code : Nat)
  | coreReset (k : Nat)
  /-- A service core starts its image at ENTRY (R391). -/
  | coreStart (k entry : Nat)
  | linkLost
  /-- Align; DET goes to the memory-side dies at its reference edge (R322). -/
  | align (det : Nat)
  | mapBlock
  deriving DecidableEq, Repr

/-- The whole block. -/
structure State where
  /-- Commands waiting, first in first out. -/
  pending : List Instr := []
  /-- Deadline ticks since the last chip reset (R274); lockstep ticks in LOCKSTEP (R326). -/
  now : Nat := 0
  /-- BAR0 registers by absolute offset; an unlisted one reads as its reset value. -/
  regs : Tab (BitVec 64) := []
  /-- External memory, host and device, by physical address; an unlisted byte reads as zero. -/
  mem : List Host.Cell := []
  /-- Poisoned 64-byte granules (R195), ascending. -/
  poison : List Nat := []
  mmu : List MmuRange := []
  latches : List (Requester × Latch) := []
  fe : FrontEnd := {}
  gs : GraphStore := {}
  dl : Dealing := {}
  sy : SyncUnit := {}
  rs : RosterUnit := {}
  tb : Timebase := {}
  li : LinkUnit := {}
  fc : FaultUnit := {}
  st : StartUnit := {}
  ob : Observe := {}
  sv : Service := {}
  /-- What the block has driven at its boundary, newest first. -/
  out : List Out := []
  deriving DecidableEq, Repr

/-- The block right after chip reset (R372, R374): every register at its reset value, PHASE SETTINGS, the reference
clock running, nothing listed anywhere. -/
def State.reset : State := {}

end Sys2Proof.Machine
end

