-- ==== Sys2Proof/Machine/Regs.lean ====
section
/-! DEFINITION. The registers of BAR0: every register the maps of R425 to R465 name, with its offset, array strides,
width, reset value and writable fields, and the operations that read and write the stored value. -/
namespace Sys2Proof.Machine

/-- The names of the registers and register arrays. -/
inductive RegName where
  /-- TSU_IDENT (R2) -/
  | tsuIdent
  /-- TSU_MODE (R321) -/
  | tsuMode
  /-- TSU_LS_TICK (R326) -/
  | tsuLsTick
  /-- TSU_DISTURB (R331) -/
  | tsuDisturb
  /-- TSU_CLKEN (R381) -/
  | tsuClken
  /-- TSU_CLK_CFG (R378) -/
  | tsuClkCfg
  /-- TSU_START (R375) -/
  | tsuStart
  /-- TSU_RESET (R373) -/
  | tsuReset
  /-- TSU_ERR (R426) -/
  | tsuErr
  /-- TSU_SETTINGS (R427) -/
  | tsuSettings
  /-- TSU_CMD_LIMIT (R193) -/
  | cmdLimit
  /-- TSU_DRAIN_LIMIT (R195) -/
  | drainLimit
  /-- TSU_DONATE_LIMIT (R249) -/
  | donateLimit
  /-- TSU_STALL_WINDOW (R249) -/
  | stallWindow
  /-- TSU_SLOWDOWN_ADDR (R286) -/
  | slowdownAddr
  /-- FE_RQ_BASE (R429) -/
  | rqBase
  /-- FE_RQ_CFG (R429) -/
  | rqCfg
  /-- FE_RQ_STATUS (R429) -/
  | rqStatus
  /-- FE_RQ_TAIL_ADDR (R429) -/
  | rqTail
  /-- FE_RQ_WR (R429) -/
  | rqWr
  /-- FE_RQ_RD (R187) -/
  | rqRd
  /-- FE_RQ_STALLS (R191) -/
  | rqStalls
  /-- TSU_TILE_OWNER[i] (R250, R428) -/
  | tileOwner
  /-- FE_SLOT_CFG[n] (R434) -/
  | slotCfg
  /-- FE_SLOT_CTRL[n] (R434) -/
  | slotCtrl
  /-- FE_SLOT_STATE[n] (R163) -/
  | slotState
  /-- FE_SLOT_ERR[n] (R434) -/
  | slotErr
  /-- FE_SLOT_RING[n] (R434) -/
  | slotRing
  /-- FE_SLOT_STATUS_ADDR[n] (R434) -/
  | slotStatusAddr
  /-- FE_SLOT_CPL[n] (R434) -/
  | slotCpl
  /-- FE_SLOT_CPL_WR[n] (R183) -/
  | slotCplWr
  /-- FE_SLOT_CPL_RD[n] (R436) -/
  | slotCplRd
  /-- FE_SLOT_SHADOW[n] (R170) -/
  | slotShadow
  /-- FE_SLOT_WDEV[n] (R160) -/
  | slotWdev
  /-- FE_SLOT_IRQ[n] (R184) -/
  | slotIrq
  /-- FE_SLOT_NEXT_SEQ[n] (R179) -/
  | slotNextSeq
  /-- FE_SLOT_DONE_SEQ[n] (R181) -/
  | slotDoneSeq
  /-- FE_SLOT_WHOST[n] (R165) -/
  | slotWhost
  /-- FE_SLOT_OPEN[n] (R179) -/
  | slotOpen
  /-- FE_SLOT_DB_IGNORED[n] (R167) -/
  | slotDbIgnored
  /-- FE_SLOT_CPL_FULL[n] (R183) -/
  | slotCplFull
  /-- FE_SLOT_FOLD_LATE[n] (R177) -/
  | slotFoldLate
  /-- TSU_POD_CFG[p] (R249) -/
  | podCfg
  /-- TSU_POD_ERR[p] (R431) -/
  | podErr
  /-- TSU_POD_SLOTS[p] (R249) -/
  | podSlots
  /-- TSU_POD_SLICE[p] (R249) -/
  | podSlice
  /-- TSU_POD_PREEMPT[p] (R249) -/
  | podPreempt
  /-- TSU_POD_REG_MEM[p] (R283) -/
  | podRegMem
  /-- TSU_POD_REG_LINK[p] (R283) -/
  | podRegLink
  /-- TSU_POD_DEAL[p] (R78) -/
  | podDeal
  /-- TSU_POD_SWAP[p] (R249) -/
  | podSwap
  /-- TSU_POD_SWAPQ[p] (R432) -/
  | podSwapq
  /-- TSU_POD_TSET_SEL[p] (R433) -/
  | podTsetSel
  /-- TSU_POD_TSET_DATA[p][j] (R431) -/
  | podTsetData
  /-- TSU_POD_SUSP_LATE[p] (R257) -/
  | podSuspLate
  /-- GS_ERR (R446) -/
  | gsErr
  /-- GS_CORRECTED (R446) -/
  | gsCorrected
  /-- GS_CTX_NODES[c] (R447) -/
  | ctxNodes
  /-- GS_CTX_EDGES[c] (R447) -/
  | ctxEdges
  /-- GS_CTX_DYN[c] (R448) -/
  | ctxDyn
  /-- GS_CTX_STATUS[c] (R446) -/
  | ctxStatus
  /-- GS_CTX_CFG[c] (R252) -/
  | ctxCfg
  /-- GS_CTX_CTRL[c] (R259) -/
  | ctxCtrl
  /-- GS_CTX_SUSP[c] (R257) -/
  | ctxSusp
  /-- GS_CTX_SAVE[c] ADDR (R260) -/
  | ctxSaveAddr
  /-- GS_CTX_SAVE[c] SIZE (R260) -/
  | ctxSaveSize
  /-- DL_STATUS[r] (R450) -/
  | dlStatus
  /-- DL_ISSUED[r] (R98) -/
  | dlIssued
  /-- DL_DRAWS[r] (R98) -/
  | dlDraws
  /-- DL_SLOTS_IDLE[r] (R98) -/
  | dlIdle
  /-- DL_REDISPATCH[r] (R98) -/
  | dlRedispatch
  /-- DL_RECALLS[r] (R98) -/
  | dlRecalls
  /-- DL_INVALS[r] (R241) -/
  | dlInvals
  /-- DL_ shadows (R450) -/
  | dlShadow
  /-- SY_CFG (R451) -/
  | syCfg
  /-- SY_ERR (R451) -/
  | syErr
  /-- SY_OBJ_SEL (R451) -/
  | objSel
  /-- SY_OBJ_INIT VALUE (R201) -/
  | objInitValue
  /-- SY_OBJ_INIT CTRL (R451) -/
  | objInitCtrl
  /-- SY_OBJ_FREE (R201) -/
  | objFree
  /-- SY_OBJ_STATUS (R211) -/
  | objStatus
  /-- SY_OBJ_VIEW (R453) -/
  | objView
  /-- SY_XLAT_INV (R204) -/
  | xlatInv
  /-- SY_WAITER_FULL (R216) -/
  | waiterFull
  /-- SY_ORPHAN_OPS (R222) -/
  | orphanOps
  /-- SY_DUMP ADDR (R227) -/
  | dumpAddr
  /-- SY_DUMP SIZE (R227) -/
  | dumpSize
  /-- SY_DUMP CTRL (R451) -/
  | dumpCtrl
  /-- SY_POD_FLAGS[p] (R200) -/
  | podFlags
  /-- SY_POD_TALLIES[p] (R200) -/
  | podTallies
  /-- SY_CTX_XLAT[c] BASE (R202) -/
  | xlatBase
  /-- SY_CTX_XLAT[c] LIMIT (R202) -/
  | xlatLimit
  /-- RS_RES_SEL (R454) -/
  | resSel
  /-- RS_RES_DATA[j] (R454) -/
  | resData
  /-- RS_RES_ERR (R454) -/
  | resErr
  /-- RS_POD_PAGES[p] RANGE (R145) -/
  | podPages
  /-- RS_POD_PAGES[p] STACK_ADDR (R145) -/
  | podStack
  /-- RS_POD_PAGES[p] FREE (R454) -/
  | podFree
  /-- RS_CTX_RES[c] (R267) -/
  | ctxRes
  /-- RS_ROSTER[k].CTRL (R454) -/
  | roCtrl
  /-- RS_ROSTER[k].ERR (R454) -/
  | roErr
  /-- RS_ROSTER[k].SLOTS (R454) -/
  | roSlots
  /-- RS_ROSTER[k].CFG (R454) -/
  | roCfg
  /-- RS_ROSTER[k].BUDGET (R454) -/
  | roBudget
  /-- RS_ROSTER[k].CHUNK (R454) -/
  | roChunk
  /-- RS_ROSTER[k].PREFILL_MIN (R454) -/
  | roPrefillMin
  /-- RS_ROSTER[k].BATCH_BYTES (R454) -/
  | roBatch
  /-- RS_ROSTER[k].PAGE_RESERVE (R146) -/
  | roReserve
  /-- RS_ROSTER[k].PAGE_LIMIT (R146) -/
  | roLimit
  /-- RS_ROSTER[k].RETIRE_ADDR (R454) -/
  | roRetireAddr
  /-- RS_ROSTER[k].RETIRE_SHIFT (R454) -/
  | roRetireShift
  /-- RS_ROSTER[k].RETIRE_WR (R154) -/
  | roRetireWr
  /-- RS_ROSTER[k].RETIRE_RD (R456) -/
  | roRetireRd
  /-- RS_ROSTER[k].LOG_ADDR (R454) -/
  | roLogAddr
  /-- RS_ROSTER[k].LOG_SHIFT (R454) -/
  | roLogShift
  /-- RS_ROSTER[k].LOG_WR (R156) -/
  | roLogWr
  /-- RS_ROSTER[k].LOG_RD (R456) -/
  | roLogRd
  /-- RS_ROSTER[k].REPLAY_ADDR (R454) -/
  | roReplayAddr
  /-- RS_ROSTER[k].REPLAY_SHIFT (R454) -/
  | roReplayShift
  /-- RS_ROSTER[k].REPLAY_WR (R456) -/
  | roReplayWr
  /-- RS_ROSTER[k].REPLAY_RD (R157) -/
  | roReplayRd
  /-- RS_ROSTER[k].EPOCH (R149) -/
  | roEpoch
  /-- RS_ROSTER[k].ADMIT_SEQ (R138) -/
  | roAdmitSeq
  /-- RS_ROSTER[k].TRICK (R149) -/
  | roTrick
  /-- RS_EXTEND_STALE[k] (R139) -/
  | roExtendStale
  /-- RS_FAMINE[k] (R147) -/
  | roFamine
  /-- RS_BAD_RESULT[k] (R150) -/
  | roBadResult
  /-- RS_RETIRE_FULL[k] (R154) -/
  | roRetireFull
  /-- RS_LOG_FULL[k] (R156) -/
  | roLogFull
  /-- TB_BEAT (R273) -/
  | tbBeat
  /-- TB_TICK (R274) -/
  | tbTick
  /-- TB_BEAT_CFG (R437) -/
  | tbBeatCfg
  /-- TB_BEAT_PORTS (R275) -/
  | tbBeatPorts
  /-- TB_STATUS (R437) -/
  | tbStatus
  /-- TB_ERR (R437) -/
  | tbErr
  /-- TB_REL_SEL (R438) -/
  | tbRelSel
  /-- TB_REL_DATA[j] (R438) -/
  | tbRelData
  /-- TB_GATES_ARMED (R437) -/
  | tbGatesArmed
  /-- TB_GATE_FULL (R279) -/
  | tbGateFull
  /-- TB_FALLBACKS (R281) -/
  | tbFallbacks
  /-- TB_MISSES (R282) -/
  | tbMisses
  /-- TB_REL_SKIPS[i] (R278) -/
  | tbRelSkips
  /-- OB_ERR (R460) -/
  | obErr
  /-- OB_TRC_CFG (R406) -/
  | trcCfg
  /-- OB_TRC_CFG COUNTS (R406) -/
  | trcCounts
  /-- OB_TRC_SRC (R404) -/
  | trcSrc
  /-- OB_TRC_CTRL (R408) -/
  | trcCtrl
  /-- OB_TRC_STATUS (R410) -/
  | trcStatus
  /-- OB_TRC_TRIG (R460) -/
  | trcTrig
  /-- OB_TRC_TRIG NODE (R460) -/
  | trcTrigNode
  /-- OB_TRC_PORT (R411) -/
  | trcPort
  /-- OB_STOP (R414) -/
  | obStop
  /-- OB_SNAP_ID (R414) -/
  | snapId
  /-- OB_SNAP_LAST (R414) -/
  | snapLast
  /-- OB_MARKERS_IGNORED (R421) -/
  | markersIgnored
  /-- OB_TRC_RING BASE (R406) -/
  | trcRingBase
  /-- OB_TRC_RING SHIFT (R406) -/
  | trcRingShift
  /-- OB_TRC_RING WR (R406) -/
  | trcRingWr
  /-- OB_TRC_RING RD (R461) -/
  | trcRingRd
  /-- OB_SNAP_DUMP ADDR (R417) -/
  | snapDumpAddr
  /-- OB_SNAP_DUMP SIZE (R417) -/
  | snapDumpSize
  /-- OB_SNAP_DUMP CTRL (R417) -/
  | snapDumpCtrl
  /-- OB_GCNT_SNAP (R402) -/
  | gcntSnap
  /-- OB_GCNT[i] (R401) -/
  | gcnt
  /-- OB_GCNT_SHADOW[i] (R402) -/
  | gcntShadow
  /-- OB_INSP_SEL[w], w = i + 1 (R462) -/
  | inspSel
  /-- OB_LATCH[n] CFG (R397) -/
  | latchCfg
  /-- OB_LATCH[n] BASE (R397) -/
  | latchBase
  /-- OB_LATCH[n] WR (R397) -/
  | latchWr
  /-- OB_LATCH[n] RD (R461) -/
  | latchRd
  /-- OB_LATCH[n] DROPS (R399) -/
  | latchDrops
  /-- LI_CHIP_ID (R305) -/
  | liChipId
  /-- LI_INCARN (R305) -/
  | liIncarn
  /-- LI_SYSTEM (R305) -/
  | liSystem
  /-- LI_REV (R305) -/
  | liRev
  /-- LI_ERR (R458) -/
  | liErr
  /-- LI_E2E_CFG (R298) -/
  | liE2eCfg
  /-- LI_LAND_CFG (R126) -/
  | liLandCfg
  /-- LI_ROUTE_SEL (R311) -/
  | liRouteSel
  /-- LI_ROUTE_DATA (R311) -/
  | liRouteData
  /-- LI_SERVE_SEL (R458) -/
  | liServeSel
  /-- LI_SERVE_DATA[j] (R458) -/
  | liServeData
  /-- LI_ counters in the order of R458 -/
  | liCnt
  /-- LI_PORT_CFG[k] (R305) -/
  | portCfg
  /-- LI_PORT_EXPECT[k] (R305) -/
  | portExpect
  /-- LI_PORT_FOUND[k] (R305) -/
  | portFound
  /-- LI_PORT_STATUS[k] (R305) -/
  | portStatus
  /-- LI_PORT_CTRL[k] (R310) -/
  | portCtrl
  /-- LI_SLICE_REJECTS[k] (R314) -/
  | sliceRejects
  /-- LI_CTX_SLICE[c] (R305) -/
  | ctxSlice
  /-- FC_STATUS (R439) -/
  | fcStatus
  /-- FC_PIN (R366) -/
  | fcPin
  /-- FC_ERR (R439) -/
  | fcErr
  /-- FC_HANG (R350) -/
  | fcHang
  /-- FC_TEARDOWN (R347) -/
  | fcTeardown
  /-- FC_TEAR_DUMP ADDR (R344) -/
  | tearDumpAddr
  /-- FC_TEAR_DUMP SIZE (R344) -/
  | tearDumpSize
  /-- FC_UNBENCH (R355) -/
  | fcUnbench
  /-- FC_MAP_SEQ (R349) -/
  | mapSeq
  /-- FC_MAP_ADDR (R349) -/
  | mapAddr
  /-- FC_BENCH_REGIONS (R349) -/
  | benchRegions
  /-- FC_BENCH_LE (R349) -/
  | benchLe
  /-- FC_SUPPLY_DIPS (R363) -/
  | supplyDips
  /-- FC_BENCH_CELLS[i] (R349) -/
  | benchCells
  /-- FC_CTX_FAULT[c], word j (R439) -/
  | ctxFault
  /-- SV_FW_CTRL[k] (R391) -/
  | fwCtrl
  /-- SV_FW_STATUS[k] (R441) -/
  | fwStatus
  /-- SV_FW_ADDR[k] (R391) -/
  | fwAddr
  /-- SV_FW_VERSION[k] (R391) -/
  | fwVersion
  /-- SV_WDOG[k] (R442) -/
  | svWdog
  /-- SV_FW_POLICY (R390) -/
  | fwPolicy
  /-- SV_ERR (R441) -/
  | svErr
  /-- SV_DRAOFT (R418) -/
  | svDraoft
  /-- SV_UART_CFG (R395) -/
  | uartCfg
  /-- SV_UART_ERR (R368) -/
  | uartErr
  /-- SV_SPI_CTRL (R388) -/
  | spiCtrl
  /-- SV_SPI_ADDR (R388) -/
  | spiAddr
  /-- SV_SPI_DATA[j] (R388) -/
  | spiData
  /-- the context counter block (R457) -/
  | ctxCnt
  /-- aperture w = i + 1, word j (R462) -/
  | aperture
  deriving DecidableEq, Repr

/-- One row of a register map: element (i, j) lies at base + i * stride + j * stride2. `rw` are the bits a plain write
sets, `w1c` those a written 1 clears (R8). -/
structure RegRow where
  base : Nat
  stride : Nat
  count : Nat
  stride2 : Nat
  count2 : Nat
  wide : Bool
  reset : BitVec 64
  rw : BitVec 64
  w1c : BitVec 64
  deriving DecidableEq, Repr

/-- The register maps. -/
def regRow : RegName → RegRow
  | .tsuIdent => ⟨0x0, 0, 1, 0, 1, false, 0xA4E5C300, 0, 0⟩
  | .tsuMode => ⟨0x20, 0, 1, 0, 1, false, 0, 0x13, 0⟩
  | .tsuLsTick => ⟨0x28, 0, 1, 0, 1, true, 0, 0, 0⟩
  | .tsuDisturb => ⟨0x30, 0, 1, 0, 1, false, 0, 0, 0x7F⟩
  | .tsuClken => ⟨0x40, 0, 1, 0, 1, false, 0, 0x800001FF, 0⟩
  | .tsuClkCfg => ⟨0x44, 0, 1, 0, 1, false, 0xA1B, 0, 0⟩
  | .tsuStart => ⟨0x48, 0, 1, 0, 1, false, 0, 0, 0⟩
  | .tsuReset => ⟨0x4C, 0, 1, 0, 1, false, 0, 0, 0⟩
  | .tsuErr => ⟨0x50, 0, 1, 0, 1, false, 0, 0, 0xF⟩
  | .tsuSettings => ⟨0x54, 0, 1, 0, 1, false, 0, 0, 0x200⟩
  | .cmdLimit => ⟨0x60, 0, 1, 0, 1, false, 0x1E8480, 0xFFFFFFFF, 0⟩
  | .drainLimit => ⟨0x64, 0, 1, 0, 1, false, 0x32, 0xFFFF, 0⟩
  | .donateLimit => ⟨0x68, 0, 1, 0, 1, false, 0xC8, 0xFFFFF, 0⟩
  | .stallWindow => ⟨0x6C, 0, 1, 0, 1, false, 0x14, 0xFFFF, 0⟩
  | .slowdownAddr => ⟨0x70, 0, 1, 0, 1, true, 0, 0xFFFFFFFFFFFFFFC0, 0⟩
  | .rqBase => ⟨0x200, 0, 1, 0, 1, true, 0, 0xFFFFFFFFFFFFF000, 0⟩
  | .rqCfg => ⟨0x208, 0, 1, 0, 1, false, 0x0C001000, 0x0F3F1F01, 0⟩
  | .rqStatus => ⟨0x20C, 0, 1, 0, 1, false, 0, 0, 0xF⟩
  | .rqTail => ⟨0x210, 0, 1, 0, 1, true, 0, 0xFFFFFFFFFFFFFFF8, 0⟩
  | .rqWr => ⟨0x218, 0, 1, 0, 1, false, 0, 0, 0⟩
  | .rqRd => ⟨0x21C, 0, 1, 0, 1, false, 0, 0xFFFFFFFF, 0⟩
  | .rqStalls => ⟨0x220, 0, 1, 0, 1, true, 0, 0, 0⟩
  | .tileOwner => ⟨0x1000, 4, 384, 0, 1, false, 0, 0x1F, 0⟩
  | .slotCfg => ⟨0x10000, 0x100, 256, 0, 1, false, 0x10003000, 0xFFFFFFE7, 0⟩
  | .slotCtrl => ⟨0x10004, 0x100, 256, 0, 1, false, 0, 0, 0⟩
  | .slotState => ⟨0x10008, 0x100, 256, 0, 1, false, 0, 0, 0⟩
  | .slotErr => ⟨0x1000C, 0x100, 256, 0, 1, false, 0, 0, 7⟩
  | .slotRing => ⟨0x10010, 0x100, 256, 0, 1, true, 0, 0xFFFFFFFFFFFFF000, 0⟩
  | .slotStatusAddr => ⟨0x10018, 0x100, 256, 0, 1, true, 0, 0xFFFFFFFFFFFFFFF0, 0⟩
  | .slotCpl => ⟨0x10020, 0x100, 256, 0, 1, true, 6, 0xFFFFFFFFFFFFFFDF, 0⟩
  | .slotCplWr => ⟨0x10028, 0x100, 256, 0, 1, false, 0, 0, 0⟩
  | .slotCplRd => ⟨0x1002C, 0x100, 256, 0, 1, false, 0, 0xFFFFFFFF, 0⟩
  | .slotShadow => ⟨0x10030, 0x100, 256, 0, 1, true, 0, 0xFFFFFFFFFFFFFFFC, 0⟩
  | .slotWdev => ⟨0x10038, 0x100, 256, 0, 1, false, 0, 0xFFFFFFFF, 0⟩
  | .slotIrq => ⟨0x1003C, 0x100, 256, 0, 1, false, 1, 0x3FF00FF, 0⟩
  | .slotNextSeq => ⟨0x10040, 0x100, 256, 0, 1, true, 1, 0xFFFFFFFFFFFFFFFF, 0⟩
  | .slotDoneSeq => ⟨0x10048, 0x100, 256, 0, 1, true, 0, 0, 0⟩
  | .slotWhost => ⟨0x10050, 0x100, 256, 0, 1, false, 0, 0, 0⟩
  | .slotOpen => ⟨0x10054, 0x100, 256, 0, 1, false, 0, 0, 0⟩
  | .slotDbIgnored => ⟨0x10058, 0x100, 256, 0, 1, true, 0, 0, 0⟩
  | .slotCplFull => ⟨0x10060, 0x100, 256, 0, 1, true, 0, 0, 0⟩
  | .slotFoldLate => ⟨0x10068, 0x100, 256, 0, 1, true, 0, 0, 0⟩
  | .podCfg => ⟨0x20000, 0x400, 16, 0, 1, false, 0, 1, 0⟩
  | .podErr => ⟨0x20004, 0x400, 16, 0, 1, false, 0, 0, 0xFF⟩
  | .podSlots => ⟨0x20008, 0x400, 16, 0, 1, false, 0, 0x1FF00FF, 0⟩
  | .podSlice => ⟨0x2000C, 0x400, 16, 0, 1, false, 0x3E8, 0x1FFFF, 0⟩
  | .podPreempt => ⟨0x20010, 0x400, 16, 0, 1, false, 0x140000, 0x03FF0001, 0⟩
  | .podRegMem => ⟨0x20018, 0x400, 16, 0, 1, true, 0, 0xFFFFFF000FFFFF, 0⟩
  | .podRegLink => ⟨0x20020, 0x400, 16, 0, 1, true, 0, 0xFFFFFF000FFFFF, 0⟩
  | .podDeal => ⟨0x20028, 0x400, 16, 0, 1, true, 0x10000100100, 0x1FFF01FF1FFF, 0⟩
  | .podSwap => ⟨0x20030, 0x400, 16, 0, 1, false, 0, 1, 0⟩
  | .podSwapq => ⟨0x20034, 0x400, 16, 0, 1, false, 0, 0, 0⟩
  | .podTsetSel => ⟨0x20038, 0x400, 16, 0, 1, false, 0, 0xFF, 0⟩
  | .podTsetData => ⟨0x20040, 0x400, 16, 4, 16, false, 0, 0xFFFFFFFF, 0⟩
  | .podSuspLate => ⟨0x20080, 0x400, 16, 0, 1, true, 0, 0, 0⟩
  | .gsErr => ⟨0x30000, 0, 1, 0, 1, false, 0, 0, 7⟩
  | .gsCorrected => ⟨0x30008, 0, 1, 0, 1, true, 0, 0, 0⟩
  | .ctxNodes => ⟨0x38000, 0x40, 512, 0, 1, false, 0, 0x87FF03FF, 0⟩
  | .ctxEdges => ⟨0x38004, 0x40, 512, 0, 1, false, 0, 0x87FF03FF, 0⟩
  | .ctxDyn => ⟨0x38008, 0x40, 512, 0, 1, false, 0, 0x07FF07FF, 0⟩
  | .ctxStatus => ⟨0x3800C, 0x40, 512, 0, 1, false, 0, 0, 1⟩
  | .ctxCfg => ⟨0x38010, 0x40, 512, 0, 1, false, 0, 0xF, 0⟩
  | .ctxCtrl => ⟨0x38014, 0x40, 512, 0, 1, false, 0, 0x10000, 0⟩
  | .ctxSusp => ⟨0x38018, 0x40, 512, 0, 1, true, 0, 0xFFFFFFFFFFFCFFFF, 0⟩
  | .ctxSaveAddr => ⟨0x38020, 0x40, 512, 0, 1, true, 0, 0xFFFFFFFFFFFFFFC0, 0⟩
  | .ctxSaveSize => ⟨0x38028, 0x40, 512, 0, 1, false, 0, 0xFFFFFFFF, 0⟩
  | .dlStatus => ⟨0x40000, 0x1000, 8, 0, 1, false, 0x300000, 0, 0⟩
  | .dlIssued => ⟨0x40008, 0x1000, 8, 0, 1, true, 0, 0, 0⟩
  | .dlDraws => ⟨0x40010, 0x1000, 8, 0, 1, true, 0, 0, 0⟩
  | .dlIdle => ⟨0x40018, 0x1000, 8, 0, 1, true, 0, 0, 0⟩
  | .dlRedispatch => ⟨0x40020, 0x1000, 8, 0, 1, true, 0, 0, 0⟩
  | .dlRecalls => ⟨0x40028, 0x1000, 8, 0, 1, true, 0, 0, 0⟩
  | .dlInvals => ⟨0x40030, 0x1000, 8, 0, 1, true, 0, 0, 0⟩
  | .dlShadow => ⟨0x40108, 0x1000, 8, 8, 5, true, 0, 0, 0⟩
  | .syCfg => ⟨0x50000, 0, 1, 0, 1, false, 0, 1, 0⟩
  | .syErr => ⟨0x50004, 0, 1, 0, 1, false, 0, 0, 3⟩
  | .objSel => ⟨0x50008, 0, 1, 0, 1, false, 0, 0x303FFFF, 0⟩
  | .objInitValue => ⟨0x50010, 0, 1, 0, 1, true, 0, 0xFFFFFFFFFFFF, 0⟩
  | .objInitCtrl => ⟨0x50018, 0, 1, 0, 1, true, 0, 0xFFFFFFFF31FF, 0⟩
  | .objFree => ⟨0x50020, 0, 1, 0, 1, false, 0, 0, 0⟩
  | .objStatus => ⟨0x50024, 0, 1, 0, 1, false, 0, 0, 0xFFFF⟩
  | .objView => ⟨0x50040, 8, 24, 0, 1, true, 0, 0, 0⟩
  | .xlatInv => ⟨0x50100, 0, 1, 0, 1, true, 0, 0, 0⟩
  | .waiterFull => ⟨0x50108, 0, 1, 0, 1, true, 0, 0, 0⟩
  | .orphanOps => ⟨0x50110, 0, 1, 0, 1, true, 0, 0, 0⟩
  | .dumpAddr => ⟨0x50120, 0, 1, 0, 1, true, 0, 0xFFFFFFFFFFFFFFC0, 0⟩
  | .dumpSize => ⟨0x50128, 0, 1, 0, 1, false, 0, 0xFFFFFFFF, 0⟩
  | .dumpCtrl => ⟨0x5012C, 0, 1, 0, 1, false, 0, 0x1FF0030, 0⟩
  | .podFlags => ⟨0x50800, 8, 16, 0, 1, true, 0, 0x7FFFF0003FFFF, 0⟩
  | .podTallies => ⟨0x50880, 8, 16, 0, 1, true, 0, 0x1FFFF0000FFFF, 0⟩
  | .xlatBase => ⟨0x51000, 16, 512, 0, 1, true, 0, 0xFFFFFFFFFFFFF000, 0⟩
  | .xlatLimit => ⟨0x51008, 16, 512, 0, 1, false, 0, 0x1FFFFFF, 0⟩
  | .resSel => ⟨0x60000, 0, 1, 0, 1, false, 0, 0xFFF, 0⟩
  | .resData => ⟨0x60008, 4, 4, 0, 1, false, 0, 0xFFFFFFFF, 0⟩
  | .resErr => ⟨0x60020, 0, 1, 0, 1, false, 0, 0, 3⟩
  | .podPages => ⟨0x60100, 0x20, 16, 0, 1, true, 0, 0x1FFFFFF00FFFFFF, 0⟩
  | .podStack => ⟨0x60108, 0x20, 16, 0, 1, true, 0, 0xFFFFFFFFFFFFFFFC, 0⟩
  | .podFree => ⟨0x60110, 0x20, 16, 0, 1, false, 0, 0, 0⟩
  | .ctxRes => ⟨0x61000, 8, 512, 0, 1, true, 0, 0x1FFF1FFF1FFF1FFF, 0⟩
  | .roCtrl => ⟨0x62000, 0x100, 16, 0, 1, false, 0, 0x73, 0⟩
  | .roErr => ⟨0x62004, 0x100, 16, 0, 1, false, 0, 0, 3⟩
  | .roSlots => ⟨0x62008, 0x100, 16, 0, 1, false, 0, 0x7FFF3FFF, 0⟩
  | .roCfg => ⟨0x6200C, 0x100, 16, 0, 1, false, 0x14060000, 0xFF0F01FF, 0⟩
  | .roBudget => ⟨0x62010, 0x100, 16, 0, 1, false, 0x10000800, 0x1FFFFFFF, 0⟩
  | .roChunk => ⟨0x62014, 0x100, 16, 0, 1, false, 0x400200, 0xFFFFFFFF, 0⟩
  | .roPrefillMin => ⟨0x62018, 0x100, 16, 0, 1, false, 0, 0xFFFF, 0⟩
  | .roBatch => ⟨0x6201C, 0x100, 16, 0, 1, false, 0, 0xFFFFFF00, 0⟩
  | .roReserve => ⟨0x62020, 0x100, 16, 0, 1, false, 0, 0x1FFFFFF, 0⟩
  | .roLimit => ⟨0x62024, 0x100, 16, 0, 1, false, 0x1000000, 0x1FFFFFF, 0⟩
  | .roRetireAddr => ⟨0x62028, 0x100, 16, 0, 1, true, 0, 0xFFFFFFFFFFFFFFC0, 0⟩
  | .roRetireShift => ⟨0x62030, 0x100, 16, 0, 1, false, 0, 0x1F, 0⟩
  | .roRetireWr => ⟨0x62034, 0x100, 16, 0, 1, false, 0, 0, 0⟩
  | .roRetireRd => ⟨0x62038, 0x100, 16, 0, 1, false, 0, 0xFFFFFFFF, 0⟩
  | .roLogAddr => ⟨0x62040, 0x100, 16, 0, 1, true, 0, 0xFFFFFFFFFFFFFFC0, 0⟩
  | .roLogShift => ⟨0x62048, 0x100, 16, 0, 1, false, 0, 0x1F, 0⟩
  | .roLogWr => ⟨0x6204C, 0x100, 16, 0, 1, false, 0, 0, 0⟩
  | .roLogRd => ⟨0x62050, 0x100, 16, 0, 1, false, 0, 0xFFFFFFFF, 0⟩
  | .roReplayAddr => ⟨0x62058, 0x100, 16, 0, 1, true, 0, 0xFFFFFFFFFFFFFFC0, 0⟩
  | .roReplayShift => ⟨0x62060, 0x100, 16, 0, 1, false, 0, 0x1F, 0⟩
  | .roReplayWr => ⟨0x62064, 0x100, 16, 0, 1, false, 0, 0xFFFFFFFF, 0⟩
  | .roReplayRd => ⟨0x62068, 0x100, 16, 0, 1, false, 0, 0, 0⟩
  | .roEpoch => ⟨0x62070, 0x100, 16, 0, 1, false, 0, 0, 0⟩
  | .roAdmitSeq => ⟨0x62074, 0x100, 16, 0, 1, false, 0, 0, 0⟩
  | .roTrick => ⟨0x62078, 0x100, 16, 0, 1, true, 0, 0, 0⟩
  | .roExtendStale => ⟨0x62080, 0x100, 16, 0, 1, true, 0, 0, 0⟩
  | .roFamine => ⟨0x62088, 0x100, 16, 0, 1, true, 0, 0, 0⟩
  | .roBadResult => ⟨0x62090, 0x100, 16, 0, 1, true, 0, 0, 0⟩
  | .roRetireFull => ⟨0x62098, 0x100, 16, 0, 1, true, 0, 0, 0⟩
  | .roLogFull => ⟨0x620A0, 0x100, 16, 0, 1, true, 0, 0, 0⟩
  | .tbBeat => ⟨0x70000, 0, 1, 0, 1, true, 0, 0, 0⟩
  | .tbTick => ⟨0x70008, 0, 1, 0, 1, false, 0, 0, 0⟩
  | .tbBeatCfg => ⟨0x70010, 0, 1, 0, 1, true, 0x3E8010, 0xFFFFFFFFF013, 0⟩
  | .tbBeatPorts => ⟨0x70018, 0, 1, 0, 1, true, 0, 0xFFFFFFFFFFFFFFFF, 0⟩
  | .tbStatus => ⟨0x70020, 0, 1, 0, 1, true, 0, 0, 0⟩
  | .tbErr => ⟨0x70028, 0, 1, 0, 1, false, 0, 0, 3⟩
  | .tbRelSel => ⟨0x70030, 0, 1, 0, 1, false, 0, 0xFF, 0⟩
  | .tbRelData => ⟨0x70040, 4, 6, 0, 1, false, 0, 0xFFFFFFFF, 0⟩
  | .tbGatesArmed => ⟨0x70060, 0, 1, 0, 1, false, 0, 0, 0⟩
  | .tbGateFull => ⟨0x70068, 0, 1, 0, 1, true, 0, 0, 0⟩
  | .tbFallbacks => ⟨0x70070, 0, 1, 0, 1, true, 0, 0, 0⟩
  | .tbMisses => ⟨0x70078, 0, 1, 0, 1, true, 0, 0, 0⟩
  | .tbRelSkips => ⟨0x70800, 8, 256, 0, 1, true, 0, 0, 0⟩
  | .obErr => ⟨0x80000, 0, 1, 0, 1, false, 0, 0, 7⟩
  | .trcCfg => ⟨0x80008, 0, 1, 0, 1, false, 0, 0x17, 0⟩
  | .trcCounts => ⟨0x80010, 0, 1, 0, 1, true, 0, 0xFFFFFFFFFFFF, 0⟩
  | .trcSrc => ⟨0x80018, 0, 1, 0, 1, false, 0, 0x1FFFFF, 0⟩
  | .trcCtrl => ⟨0x8001C, 0, 1, 0, 1, false, 0, 0, 0⟩
  | .trcStatus => ⟨0x80020, 0, 1, 0, 1, false, 0, 0, 1⟩
  | .trcTrig => ⟨0x80028, 0, 1, 0, 1, true, 0, 0xFFFF01FF0073FFFF, 0⟩
  | .trcTrigNode => ⟨0x80030, 0, 1, 0, 1, false, 0, 0xFFFFF, 0⟩
  | .trcPort => ⟨0x80038, 0, 1, 0, 1, false, 0, 1, 0⟩
  | .obStop => ⟨0x80040, 0, 1, 0, 1, false, 0, 0, 0⟩
  | .snapId => ⟨0x80044, 0, 1, 0, 1, false, 0, 0xFFFFFFFF, 0⟩
  | .snapLast => ⟨0x80048, 0, 1, 0, 1, false, 0, 0, 0⟩
  | .markersIgnored => ⟨0x80050, 0, 1, 0, 1, true, 0, 0, 0⟩
  | .trcRingBase => ⟨0x80058, 0, 1, 0, 1, true, 0, 0xFFFFFFFFFFFFF000, 0⟩
  | .trcRingShift => ⟨0x80060, 0, 1, 0, 1, false, 0x10, 0x1F, 0⟩
  | .trcRingWr => ⟨0x80064, 0, 1, 0, 1, false, 0, 0, 0⟩
  | .trcRingRd => ⟨0x80068, 0, 1, 0, 1, false, 0, 0xFFFFFFFF, 0⟩
  | .snapDumpAddr => ⟨0x80070, 0, 1, 0, 1, true, 0, 0xFFFFFFFFFFFFF000, 0⟩
  | .snapDumpSize => ⟨0x80078, 0, 1, 0, 1, false, 0, 0xFFFFFFFF, 0⟩
  | .snapDumpCtrl => ⟨0x8007C, 0, 1, 0, 1, false, 0, 0, 0⟩
  | .gcntSnap => ⟨0x80080, 0, 1, 0, 1, false, 0, 0, 0⟩
  | .gcnt => ⟨0x80100, 8, 16, 0, 1, true, 0, 0, 0⟩
  | .gcntShadow => ⟨0x80180, 8, 16, 0, 1, true, 0, 0, 0⟩
  | .inspSel => ⟨0x80208, 8, 10, 0, 1, true, 0, 0xFFFFFFFFFFFF0000, 0⟩
  | .latchCfg => ⟨0x81000, 0x20, 256, 0, 1, false, 0x600, 0x1F01, 0⟩
  | .latchBase => ⟨0x81008, 0x20, 256, 0, 1, true, 0, 0xFFFFFFFFFFFFFF80, 0⟩
  | .latchWr => ⟨0x81010, 0x20, 256, 0, 1, false, 0, 0, 0⟩
  | .latchRd => ⟨0x81014, 0x20, 256, 0, 1, false, 0, 0xFFFFFFFF, 0⟩
  | .latchDrops => ⟨0x81018, 0x20, 256, 0, 1, true, 0, 0, 0⟩
  | .liChipId => ⟨0x90000, 0, 1, 0, 1, false, 0, 0x1FFF, 0⟩
  | .liIncarn => ⟨0x90004, 0, 1, 0, 1, false, 0, 0xFFFF, 0⟩
  | .liSystem => ⟨0x90008, 0, 1, 0, 1, false, 0, 0xFFFFFFFF, 0⟩
  | .liRev => ⟨0x9000C, 0, 1, 0, 1, false, 0x504, 0xFFFF, 0⟩
  | .liErr => ⟨0x90010, 0, 1, 0, 1, false, 0, 0, 3⟩
  | .liE2eCfg => ⟨0x90014, 0, 1, 0, 1, false, 0x80064, 0xF3FFF, 0⟩
  | .liLandCfg => ⟨0x90018, 0, 1, 0, 1, true, 0x64000003E8, 0x1FFFF000FFFFF, 0⟩
  | .liRouteSel => ⟨0x90020, 0, 1, 0, 1, false, 0, 0x31FFF, 0⟩
  | .liRouteData => ⟨0x90024, 0, 1, 0, 1, false, 0, 0xFFFFFFFF, 0⟩
  | .liServeSel => ⟨0x90028, 0, 1, 0, 1, false, 0, 0xFFF, 0⟩
  | .liServeData => ⟨0x90030, 4, 6, 0, 1, false, 0, 0xFFFFFFFF, 0⟩
  | .liCnt => ⟨0x90100, 8, 11, 0, 1, true, 0, 0, 0⟩
  | .portCfg => ⟨0x91000, 0x40, 64, 0, 1, false, 0, 0x0FFF0007, 0⟩
  | .portExpect => ⟨0x91004, 0x40, 64, 0, 1, false, 0, 0x803F1FFF, 0⟩
  | .portFound => ⟨0x91008, 0x40, 64, 0, 1, true, 0, 0, 0⟩
  | .portStatus => ⟨0x91010, 0x40, 64, 0, 1, false, 0, 0, 0⟩
  | .portCtrl => ⟨0x91014, 0x40, 64, 0, 1, false, 0, 0, 0⟩
  | .sliceRejects => ⟨0x91018, 0x40, 64, 0, 1, true, 0, 0, 0⟩
  | .ctxSlice => ⟨0x92000, 4, 512, 0, 1, false, 0, 0x30FFF, 0⟩
  | .fcStatus => ⟨0xA0000, 0, 1, 0, 1, false, 0, 0, 0⟩
  | .fcPin => ⟨0xA0004, 0, 1, 0, 1, false, 0x100, 0xE00, 0xF⟩
  | .fcErr => ⟨0xA0008, 0, 1, 0, 1, false, 0, 0, 3⟩
  | .fcHang => ⟨0xA000C, 0, 1, 0, 1, false, 0x3E8, 0xFFFFF, 0⟩
  | .fcTeardown => ⟨0xA0010, 0, 1, 0, 1, false, 0, 0, 0⟩
  | .tearDumpAddr => ⟨0xA0018, 0, 1, 0, 1, true, 0, 0xFFFFFFFFFFFFFFC0, 0⟩
  | .tearDumpSize => ⟨0xA0020, 0, 1, 0, 1, false, 0, 0xFFFFFFFF, 0⟩
  | .fcUnbench => ⟨0xA0028, 0, 1, 0, 1, false, 0, 0, 0⟩
  | .mapSeq => ⟨0xA0030, 0, 1, 0, 1, true, 0, 0, 0⟩
  | .mapAddr => ⟨0xA0038, 0, 1, 0, 1, true, 0, 0xFFFFFFFFFFFFFFC0, 0⟩
  | .benchRegions => ⟨0xA0040, 0, 1, 0, 1, false, 0, 0, 0⟩
  | .benchLe => ⟨0xA0044, 0, 1, 0, 1, false, 0, 0, 0⟩
  | .supplyDips => ⟨0xA0048, 0, 1, 0, 1, true, 0, 0, 0⟩
  | .benchCells => ⟨0xA0800, 4, 384, 0, 1, false, 0, 0, 0⟩
  | .ctxFault => ⟨0xA1000, 0x20, 512, 4, 8, false, 0, 0, 0⟩
  | .fwCtrl => ⟨0xB0000, 0x20, 9, 0, 1, false, 0, 0, 0⟩
  | .fwStatus => ⟨0xB0004, 0x20, 9, 0, 1, false, 0, 0, 0⟩
  | .fwAddr => ⟨0xB0008, 0x20, 9, 0, 1, true, 0, 0xFFFFFFFFFFFFF000, 0⟩
  | .fwVersion => ⟨0xB0010, 0x20, 9, 0, 1, false, 0, 0, 0⟩
  | .svWdog => ⟨0xB0014, 0x20, 9, 0, 1, false, 0, 0, 0⟩
  | .fwPolicy => ⟨0xB0200, 0, 1, 0, 1, true, 0, 0xFFFFFFFF00000000, 0⟩
  | .svErr => ⟨0xB0208, 0, 1, 0, 1, false, 0, 0, 0xF⟩
  | .svDraoft => ⟨0xB020C, 0, 1, 0, 1, false, 1, 3, 0⟩
  | .uartCfg => ⟨0xB0210, 0, 1, 0, 1, false, 0x480, 0x7FFF, 0⟩
  | .uartErr => ⟨0xB0214, 0, 1, 0, 1, false, 0, 0, 0⟩
  | .spiCtrl => ⟨0xB0220, 0, 1, 0, 1, false, 0, 0x1FFF3FF, 0⟩
  | .spiAddr => ⟨0xB0224, 0, 1, 0, 1, false, 0, 0xFFFFFF, 0⟩
  | .spiData => ⟨0xB0240, 4, 16, 0, 1, false, 0, 0xFFFFFFFF, 0⟩
  | .ctxCnt => ⟨0x200000, 0x80, 512, 8, 16, true, 0, 0, 0⟩
  | .aperture => ⟨0x310000, 0x10000, 10, 4, 16384, false, 0, 0, 0⟩

def regNames0 : List RegName := [
  .tsuIdent, .tsuMode, .tsuLsTick, .tsuDisturb, .tsuClken, .tsuClkCfg,
  .tsuStart, .tsuReset, .tsuErr, .tsuSettings, .cmdLimit, .drainLimit,
  .donateLimit, .stallWindow, .slowdownAddr, .rqBase, .rqCfg, .rqStatus,
  .rqTail, .rqWr, .rqRd, .rqStalls, .tileOwner, .slotCfg,
  .slotCtrl, .slotState, .slotErr, .slotRing, .slotStatusAddr, .slotCpl,
  .slotCplWr, .slotCplRd, .slotShadow, .slotWdev, .slotIrq, .slotNextSeq,
  .slotDoneSeq, .slotWhost, .slotOpen, .slotDbIgnored]

def regNames1 : List RegName := [
  .slotCplFull, .slotFoldLate, .podCfg, .podErr, .podSlots, .podSlice,
  .podPreempt, .podRegMem, .podRegLink, .podDeal, .podSwap, .podSwapq,
  .podTsetSel, .podTsetData, .podSuspLate, .gsErr, .gsCorrected, .ctxNodes,
  .ctxEdges, .ctxDyn, .ctxStatus, .ctxCfg, .ctxCtrl, .ctxSusp,
  .ctxSaveAddr, .ctxSaveSize, .dlStatus, .dlIssued, .dlDraws, .dlIdle,
  .dlRedispatch, .dlRecalls, .dlInvals, .dlShadow, .syCfg, .syErr,
  .objSel, .objInitValue, .objInitCtrl, .objFree]

def regNames2 : List RegName := [
  .objStatus, .objView, .xlatInv, .waiterFull, .orphanOps, .dumpAddr,
  .dumpSize, .dumpCtrl, .podFlags, .podTallies, .xlatBase, .xlatLimit,
  .resSel, .resData, .resErr, .podPages, .podStack, .podFree,
  .ctxRes, .roCtrl, .roErr, .roSlots, .roCfg, .roBudget,
  .roChunk, .roPrefillMin, .roBatch, .roReserve, .roLimit, .roRetireAddr,
  .roRetireShift, .roRetireWr, .roRetireRd, .roLogAddr, .roLogShift, .roLogWr,
  .roLogRd, .roReplayAddr, .roReplayShift, .roReplayWr]

def regNames3 : List RegName := [
  .roReplayRd, .roEpoch, .roAdmitSeq, .roTrick, .roExtendStale, .roFamine,
  .roBadResult, .roRetireFull, .roLogFull, .tbBeat, .tbTick, .tbBeatCfg,
  .tbBeatPorts, .tbStatus, .tbErr, .tbRelSel, .tbRelData, .tbGatesArmed,
  .tbGateFull, .tbFallbacks, .tbMisses, .tbRelSkips, .obErr, .trcCfg,
  .trcCounts, .trcSrc, .trcCtrl, .trcStatus, .trcTrig, .trcTrigNode,
  .trcPort, .obStop, .snapId, .snapLast, .markersIgnored, .trcRingBase,
  .trcRingShift, .trcRingWr, .trcRingRd, .snapDumpAddr]

def regNames4 : List RegName := [
  .snapDumpSize, .snapDumpCtrl, .gcntSnap, .gcnt, .gcntShadow, .inspSel,
  .latchCfg, .latchBase, .latchWr, .latchRd, .latchDrops, .liChipId,
  .liIncarn, .liSystem, .liRev, .liErr, .liE2eCfg, .liLandCfg,
  .liRouteSel, .liRouteData, .liServeSel, .liServeData, .liCnt, .portCfg,
  .portExpect, .portFound, .portStatus, .portCtrl, .sliceRejects, .ctxSlice,
  .fcStatus, .fcPin, .fcErr, .fcHang, .fcTeardown, .tearDumpAddr,
  .tearDumpSize, .fcUnbench, .mapSeq, .mapAddr]

def regNames5 : List RegName := [
  .benchRegions, .benchLe, .supplyDips, .benchCells, .ctxFault, .fwCtrl,
  .fwStatus, .fwAddr, .fwVersion, .svWdog, .fwPolicy, .svErr,
  .svDraoft, .uartCfg, .uartErr, .spiCtrl, .spiAddr, .spiData,
  .ctxCnt, .aperture]

/-- Every register name, in ascending offset. -/
def regNames : List RegName := regNames0 ++ regNames1 ++ regNames2 ++ regNames3 ++ regNames4 ++ regNames5

/-- One register: a name and its array indexes. -/
structure Reg where
  name : RegName
  i : Nat := 0
  j : Nat := 0
  deriving DecidableEq, Repr

def Reg.row (r : Reg) : RegRow := regRow r.name

/-- The absolute BAR0 offset (R422). -/
def Reg.off (r : Reg) : Nat := r.row.base + r.i * r.row.stride + r.j * r.row.stride2

/-- The indexes are within the arrays. -/
def Reg.valid (r : Reg) : Bool := decide (r.i < r.row.count) && decide (r.j < r.row.count2)

/-- The element of one map row at an offset, if the row covers it. -/
def rowAt (n : RegName) (off : Nat) : Option Reg :=
  let w := regRow n
  if off < w.base then none else
  let d := off - w.base
  let i := if w.stride = 0 then 0 else d / w.stride
  let d2 := d - i * w.stride
  let j := if w.stride2 = 0 then 0 else d2 / w.stride2
  let r : Reg := ⟨n, i, j⟩
  if r.valid ∧ r.off = off then some r else none

/-- The register at an offset; none where no map names one (R11). -/
def regAt (off : Nat) : Option Reg := regNames.findSome? (rowAt · off)

/-- The stored value of a register: its entry, or its reset value. -/
def State.reg (s : State) (r : Reg) : BitVec 64 := tget r.row.reset s.regs r.off

/-- Store a register's value. -/
def State.setReg (s : State) (r : Reg) (v : BitVec 64) : State :=
  { s with regs := tput r.row.reset s.regs r.off v }

/-- A field of a stored register. -/
def State.fld (s : State) (r : Reg) (lo w : Nat) : Nat := bits (s.reg r) lo w

def State.setFld (s : State) (r : Reg) (lo w f : Nat) : State := s.setReg r (setBits (s.reg r) lo w f)

/-- Set the bits of a mask in a register (an error bit, a status bit). -/
def State.orReg (s : State) (r : Reg) (m : BitVec 64) : State := s.setReg r (s.reg r ||| m)

/-- Advance a counter by `n` (counters wrap at their width, R422). -/
def State.bump (s : State) (r : Reg) (n : Nat) : State := s.setReg r (s.reg r + BitVec.ofNat 64 n)

/-- The global counters of R401. -/
def gcnt (i : Nat) : Reg := ⟨.gcnt, i, 0⟩

/-- The Link Interface's counters in the order of R458: 0 STALE_RETURNS, 1 RET_DUP, 2 LAND_WAITS, 3 BAD_PARCELS,
4 E2E_FULL, 5 E2E_RESENDS, 6 OLD_INCARN, 7 DUP_DISCARDS, 8 TTL_DROPS, 9 NOROUTE_DROPS, 10 BEAT_IGNORED. -/
def liCnt (i : Nat) : Reg := ⟨.liCnt, i, 0⟩

/-- The counters of context c in the order of R457. -/
def ctxCnt (c j : Nat) : Reg := ⟨.ctxCnt, c, j⟩

/-- Write the RW fields of a register and clear the W1C bits written 1 (R8, R9). -/
def State.plainWrite (s : State) (r : Reg) (v : BitVec 64) : State :=
  let w := r.row
  s.setReg r (((s.reg r &&& ~~~w.rw) ||| (v &&& w.rw)) &&& ~~~(v &&& w.w1c))

end Sys2Proof.Machine
end

