-- ==== Sys2Proof/Machine/Ops.lean ====
section
/-! DEFINITION. The named operations every command shares: reading and writing a piece of state by its name, memory,
event packets, pins and the trace unit. -/
namespace Sys2Proof.Machine

/-! ### Pieces of state by name -/

/-- The key of node `i` of context `c`. -/
def nk (c i : Nat) : Nat := c * 2 ^ 20 + i
def nkCtx (k : Nat) : Nat := k / 2 ^ 20
def nkIdx (k : Nat) : Nat := k % 2 ^ 20
/-- The key of edge slot `j` of context `c`. -/
def ek (c j : Nat) : Nat := c * 2 ^ 22 + j
/-- The key of command `seq` of slot `n`. -/
def ck (n seq : Nat) : Nat := n * 2 ^ 64 + seq

def State.node (s : State) (k : Nat) : Node := tget {} s.gs.nodes k
def State.setNode (s : State) (k : Nat) (n : Node) : State :=
  { s with gs := { s.gs with nodes := tput {} s.gs.nodes k n } }
def State.updNode (s : State) (k : Nat) (f : Node → Node) : State := s.setNode k (f (s.node k))

def State.edge (s : State) (k : Nat) : BitVec 32 := tget 0 s.gs.edges k
def State.setEdge (s : State) (k : Nat) (v : BitVec 32) : State :=
  { s with gs := { s.gs with edges := tput 0 s.gs.edges k v } }

def State.ctx (s : State) (c : Nat) : Ctx := tget {} s.gs.ctxs c
def State.updCtx (s : State) (c : Nat) (f : Ctx → Ctx) : State :=
  { s with gs := { s.gs with ctxs := tput {} s.gs.ctxs c (f (s.ctx c)) } }

def State.slot (s : State) (n : Nat) : Slot := tget {} s.fe.slots n
def State.updSlot (s : State) (n : Nat) (f : Slot → Slot) : State :=
  { s with fe := { s.fe with slots := tput {} s.fe.slots n (f (s.slot n)) } }

/-- An open command, if it is one. -/
def State.cmd (s : State) (n seq : Nat) : Option Cmd := tfind s.fe.cmds (ck n seq)
def State.setCmd (s : State) (n seq : Nat) (c : Cmd) : State :=
  { s with fe := { s.fe with cmds := tinsert s.fe.cmds (ck n seq) c } }
def State.updCmd (s : State) (n seq : Nat) (f : Cmd → Cmd) : State :=
  match s.cmd n seq with
  | none => s
  | some c => s.setCmd n seq (f c)
def State.dropCmd (s : State) (n seq : Nat) : State := { s with fe := { s.fe with cmds := terase s.fe.cmds (ck n seq) } }
/-- Change the command a node belongs to. -/
def State.updCmdOf (s : State) (k : Nat) (f : Cmd → Cmd) : State :=
  match (s.node k).cmd with
  | none => s
  | some (n, q) => s.updCmd n q f
/-- The open commands of a slot, as sequence numbers, ascending. -/
def State.openCmds (s : State) (n : Nat) : List Nat :=
  (s.fe.cmds.filter fun e => decide (e.1 / 2 ^ 64 = n)).map fun e => e.1 % 2 ^ 64

def State.eng (s : State) (e : Nat) : Engine := tget {} s.dl.engines e
def State.updEng (s : State) (e : Nat) (f : Engine → Engine) : State :=
  { s with dl := { s.dl with engines := tput {} s.dl.engines e (f (s.eng e)) } }
def State.dealer (s : State) (r : Nat) : Dealer := tget {} s.dl.dealers r
def State.updDealer (s : State) (r : Nat) (f : Dealer → Dealer) : State :=
  { s with dl := { s.dl with dealers := tput {} s.dl.dealers r (f (s.dealer r)) } }
def State.pod (s : State) (p : Nat) : Pod := tget {} s.dl.pods p
def State.updPod (s : State) (p : Nat) (f : Pod → Pod) : State :=
  { s with dl := { s.dl with pods := tput {} s.dl.pods p (f (s.pod p)) } }
def State.obj (s : State) (k : Nat) : SyncObj := tget {} s.sy.objs k
def State.setObj (s : State) (k : Nat) (o : SyncObj) : State := { s with sy := { s.sy with objs := tput {} s.sy.objs k o } }
def State.updObj (s : State) (k : Nat) (f : SyncObj → SyncObj) : State := s.setObj k (f (s.obj k))
def State.seqEnt (s : State) (q : Nat) : SeqEnt := tget {} s.rs.seqs q
def State.updSeq (s : State) (q : Nat) (f : SeqEnt → SeqEnt) : State :=
  { s with rs := { s.rs with seqs := tput {} s.rs.seqs q (f (s.seqEnt q)) } }
def State.ros (s : State) (k : Nat) : Ros := tget {} s.rs.ros k
def State.updRos (s : State) (k : Nat) (f : Ros → Ros) : State :=
  { s with rs := { s.rs with ros := tput {} s.rs.ros k (f (s.ros k)) } }
def State.port (s : State) (k : Nat) : Port := tget {} s.li.ports k
def State.updPort (s : State) (k : Nat) (f : Port → Port) : State :=
  { s with li := { s.li with ports := tput {} s.li.ports k (f (s.port k)) } }
def State.landing (s : State) (l : Nat) : Landing := tget {} s.li.landings l
def State.updLanding (s : State) (l : Nat) (f : Landing → Landing) : State :=
  { s with li := { s.li with landings := tput {} s.li.landings l (f (s.landing l)) } }
def State.callSlot (s : State) (x : Nat) : CallSlot := tget {} s.li.calls x
def State.updCall (s : State) (x : Nat) (f : CallSlot → CallSlot) : State :=
  { s with li := { s.li with calls := tput {} s.li.calls x (f (s.callSlot x)) } }
def State.core (s : State) (k : Nat) : Core := tget {} s.sv.cores k
def State.updCore (s : State) (k : Nat) (f : Core → Core) : State :=
  { s with sv := { s.sv with cores := tput {} s.sv.cores k (f (s.core k)) } }
def State.clock (s : State) (d : Nat) : Clock := tget {} s.fc.clocks d
def State.updClock (s : State) (d : Nat) (f : Clock → Clock) : State :=
  { s with fc := { s.fc with clocks := tput {} s.fc.clocks d (f (s.clock d)) } }
def State.supply (s : State) (d : Nat) : Supply := tget {} s.fc.supply d
def State.updSupply (s : State) (d : Nat) (f : Supply → Supply) : State :=
  { s with fc := { s.fc with supply := tput {} s.fc.supply d (f (s.supply d)) } }

/-- The block drives something at its boundary. -/
def State.emit (s : State) (o : Out) : State := { s with out := o :: s.out }

/-- Fold a change over a list. -/
def State.each {α : Type} (s : State) (l : List α) (f : State → α → State) : State := l.foldl f s

/-! ### Register fields used everywhere -/

def State.podOf (s : State) (c : Nat) : Nat := s.fld ⟨.ctxCfg, c, 0⟩ 0 4
def State.slotPod (s : State) (n : Nat) : Nat := s.fld ⟨.slotCfg, n, 0⟩ 7 4
def State.slotCtx (s : State) (n : Nat) : Nat := s.fld ⟨.slotCfg, n, 0⟩ 16 9
def State.slotPrio (s : State) (n : Nat) : Nat := s.fld ⟨.slotCfg, n, 0⟩ 5 2
def State.slotMaint (s : State) (n : Nat) : Bool := bit (s.reg ⟨.slotCfg, n, 0⟩) 1
def State.slotShadow (s : State) (n : Nat) : Bool := bit (s.reg ⟨.slotCfg, n, 0⟩) 2
def State.ringShift (s : State) (n : Nat) : Nat := s.fld ⟨.slotCfg, n, 0⟩ 11 5
def State.beat (s : State) : Nat := s.fld ⟨.tbBeat, 0, 0⟩ 0 48
/-- TB_BEAT_CFG as in force (R273): its SOURCE, 0 INTERNAL, 1 PIN, 2 REMOTE, its PERIOD, and the window W of R274. -/
def State.beatCfg (s : State) : BitVec 64 := s.tb.inForce.getD (s.reg ⟨.tbBeatCfg, 0, 0⟩)
def State.beatSource (s : State) : Nat := bits s.beatCfg 0 2
def State.beatPeriod (s : State) : Nat := bits s.beatCfg 12 20
def State.beatWindow (s : State) : Nat := max 2 (s.beatPeriod / 64)
/-- TB_STATUS.GLITCH counts an early edge or parcel (R274). -/
def State.glitch (s : State) : State :=
  s.setFld ⟨.tbStatus, 0, 0⟩ 32 16 (s.fld ⟨.tbStatus, 0, 0⟩ 32 16 + 1)
/-- The observation regulator's bucket pays for a write of observation (R412). -/
def State.payObs (s : State) (granules : Nat) : State :=
  { s with dl := { s.dl with obsBucket := s.dl.obsBucket - (granules : Int) } }
def State.beatTick (s : State) : Nat := s.fld ⟨.tbTick, 0, 0⟩ 0 20
/-- TSU_MODE.DET: 0 FREE, 1 BITEXACT, 2 LOCKSTEP (R321). -/
def State.det (s : State) : Nat := s.fld ⟨.tsuMode, 0, 0⟩ 0 2
def State.lockstep (s : State) : Bool := decide (s.det = 2)
/-- Set a bit of TSU_DISTURB, in LOCKSTEP only (R331). -/
def State.disturb (s : State) (b : Nat) : State :=
  if s.lockstep then s.orReg ⟨.tsuDisturb, 0, 0⟩ (BitVec.ofNat 64 (2 ^ b)) else s
def State.chipId (s : State) : Nat := s.fld ⟨.liChipId, 0, 0⟩ 0 13
def State.fatal (s : State) : Bool := bit (s.reg ⟨.fcStatus, 0, 0⟩) 0

/-- Slots that are in use and bound to context `c`. -/
def State.slotsOf (s : State) (c : Nat) : List Nat :=
  (s.fe.slots.filter fun e => decide (e.2.st ≠ .disabled) && decide (s.slotCtx e.1 = c)).map Prod.fst
/-- Rosters bound to context `c` and enabled. -/
def State.rostersOf (s : State) (c : Nat) : List Nat :=
  (List.range 16).filter fun k => bit (s.reg ⟨.roCtrl, k, 0⟩) 0 && decide (s.fld ⟨.roCfg, k, 0⟩ 0 9 = c)
/-- Node slots of context `c` that are not FREE, ascending. -/
def State.ctxNodes (s : State) (c : Nat) : List Nat :=
  (s.gs.nodes.filter fun e => decide (nkCtx e.1 = c) && decide (e.2.st ≠ .free)).map Prod.fst
/-- Node slots of one command, ascending. -/
def State.cmdNodes (s : State) (n seq : Nat) : List Nat :=
  (s.gs.nodes.filter fun e => decide (e.2.cmd = some (n, seq)) && decide (e.2.st ≠ .free)).map Prod.fst

/-! ### When units run -/

/-- TSU_START.READY (R374, R375). -/
def State.ready (s : State) : Bool := decide (s.st.phase = .ready)

/-- A chip reset (R372): nothing of Tsuica's own state is kept. Memory, the MMU and the commands on their way are not Tsuica's. -/
def State.chipReset (s : State) : State :=
  { State.reset with pending := s.pending, mem := s.mem, poison := s.poison, mmu := s.mmu, out := s.out }

/-- Sub-unit numbers of R188. -/
def sourceUnit (k : Nat) : Nat := 0x8000 + k

/-- The sub-unit whose event handshake a packet came through: the dealer for an engine source. -/
def Packet.raiser (p : Packet) : Nat := if p.source < 0x8000 then 2 else p.source - 0x8000

/-- A supply warning stands: ME issue is stopped for die `d`, or in LOCKSTEP every domain (R363, R364). -/
def State.dipped (s : State) (d : Nat) : Bool := (s.supply d).dipped

/-- Hub and dealer logic is stopped by FROZEN and SNAPPED, and in LOCKSTEP by a supply warning (R364, R415). -/
def State.hubOn (s : State) : Bool :=
  decide (s.ob.stop ≠ .frozen) && decide (s.ob.stop ≠ .snapped) &&
  !(s.lockstep && (List.range 9).any s.dipped)

/-- Sub-unit `u`, in the order of TSU_CLKEN, is stopped under KL-400 compatibility (R382); the Fault Controller never is. -/
def State.gated (s : State) (u : Nat) : Bool :=
  let v := s.reg ⟨.tsuClken, 0, 0⟩
  decide (u < 9) && bit v 31 && !bit v u && bit v (16 + u)

/-- A packet of the sub-unit waits at its event handshake (R191). -/
def State.packetHeld (s : State) (u : Nat) : Bool := s.fe.stalled.any fun p => decide (p.raiser = u)

/-- The sub-unit of a trace SOURCE (R405): the dealers, the Resolver and the Fan-out unit, and so on. -/
def traceUnitOf (source : Nat) : Nat := if source < 8 then 2 else [1, 1, 4, 3, 6, 5, 0].getD (source - 8) 7

/-- A trace record of the sub-unit waits at its handshake for room in a LOSSLESS buffer (R410). -/
def State.traceHeld (s : State) (u : Nat) : Bool := s.ob.traceWait.any fun r => decide (traceUnitOf r.source = u)

/-- The hub is not stopped, and nothing of the sub-unit waits at a handshake (R191, R410). -/
def State.takes (s : State) (u : Nat) : Bool := s.hubOn && !s.packetHeld u && !s.traceHeld u

/-- A sub-unit works: it takes work, and its clock is not stopped. -/
def State.runs (s : State) (u : Nat) : Bool := s.takes u && !s.gated u

/-- TSU_CLKEN.GATED of a sub-unit. -/
def State.setGated (s : State) (u : Nat) (b : Bool) : State := s.setReg ⟨.tsuClken, 0, 0⟩ (setBit (s.reg ⟨.tsuClken, 0, 0⟩) (16 + u) b)

def State.compat (s : State) : Bool := bit (s.reg ⟨.tsuClken, 0, 0⟩) 31

/-- In native mode an access or work that arrives starts a stopped clock again (R380). -/
def State.wake (s : State) (u : Nat) : State :=
  if s.compat ∨ ¬ bit (s.reg ⟨.tsuClken, 0, 0⟩) (16 + u) then s else s.setGated u false

/-- A row that reaches sub-unit `u` from outside: it starts a stopped clock, or under KL-400 compatibility waits at the input of a
stopped sub-unit, behind what waits there already (R380, R382). -/
def State.reach (s : State) (u : Nat) (i : Instr) (f : State → State) : State :=
  if s.gated u ∨ s.st.atGate.any fun (x : Nat × Instr) => decide (x.1 = u) then
    { s with st := { s.st with atGate := s.st.atGate ++ [(u, i)] } }
  else f (s.wake u)

/-- Dispatch, offers and fetch go on: no stop is taken or being taken (R415). -/
def State.open (s : State) : Bool := decide (s.ob.stop = .running)

/-- Ages and stop-sensitive timers run (R416). -/
def State.timersOn (s : State) : Bool := decide (s.ob.stop = .running) || decide (s.ob.stop = .quiescing)

/-! ### Memory -/

/-- The physical address of an address of a space; none where the MMU has no translation. -/
def State.phys (s : State) (space a : Nat) : Option Nat :=
  match s.mmu.find? fun r => decide (r.space = space) && decide (r.lo ≤ a) && decide (a < r.hi) with
  | none => some a
  | some r => r.phys.map (· + (a - r.lo))

/-- One byte at the point of coherence; none on a translation fault or a poisoned granule (R195). -/
def State.readByte (s : State) (space a : Nat) : Option Byte :=
  match s.phys space a with
  | none => none
  | some p => if p / 64 ∈ s.poison then none else some (tget 0 s.mem p)

/-- A volatile read of `n` bytes (R171, R243). -/
def State.readBytes (s : State) (space : Nat) : Nat → Nat → Option (List Byte)
  | _, 0 => some []
  | a, n + 1 =>
    match s.readByte space a with
    | none => none
    | some b => (s.readBytes space (a + 1) n).map (b :: ·)

/-- Address `a` of a space lies in host memory. -/
def State.hostAt (s : State) (space a : Nat) : Bool :=
  s.mmu.any fun r => r.host && decide (r.space = space) && decide (r.lo ≤ a) && decide (a < r.hi)

/-- Tsuica read host memory: in LOCKSTEP the read sets TSU_DISTURB.HOST_READ (R331). -/
def State.noteHost (s : State) (space a : Nat) : State :=
  if s.hostAt space a then s.disturb 0 else s

/-- A little-endian word of `n` bytes. -/
def State.readWord (s : State) (space a n : Nat) : Option Nat := (s.readBytes space a n).map ofLe

/-- The physical addresses of `n` bytes. -/
def State.physAll (s : State) (space : Nat) : Nat → Nat → Option (List Nat)
  | _, 0 => some []
  | a, n + 1 =>
    match s.phys space a with
    | none => none
    | some p => (s.physAll space (a + 1) n).map (p :: ·)

/-- Store bytes at physical addresses. -/
def pokes (m : List Host.Cell) : List (Nat × Byte) → List Host.Cell
  | [] => m
  | (p, b) :: t => pokes (tput 0 m p b) t

/-- A write of bytes; none on a translation fault, and then nothing is written. A granule written whole is no longer
poisoned (R351). -/
def State.writeBytes (s : State) (space a : Nat) (bs : List Byte) : Option State :=
  match s.physAll space a bs.length with
  | none => none
  | some ps => some
    { s with
      mem := pokes s.mem (ps.zip bs)
      poison := s.poison.filter fun g => !((List.range 64).all fun i => decide (g * 64 + i ∈ ps)) }

def State.writeWord (s : State) (space a n v : Nat) : Option State := s.writeBytes space a (leBytes n v)

/-- Address spaces: 0 the device address space, `c + 1` that of context `c`. -/
def devSpace : Nat := 0
def ctxSpace (c : Nat) : Nat := c + 1

/-- Complete lines as poisoned (R195). -/
def State.poisonLines (s : State) (lines : List Nat) : State := { s with poison := lines.foldl (fun l g => insertNat g l) s.poison }

/-! ### Event packets, vectors and the fault pin -/

/-- The VEC_EN bit of a packet type's category (R190, R370). -/
def packetCategory (t : Nat) : Option Nat :=
  if t = 0 then none
  else if t ∈ [0x02, 0x10, 0x12, 0x13, 0x14, 0x30, 0x31, 0x32, 0x33, 0x40, 0x41, 0x42, 0x43, 0x44, 0x45, 0x46] then some 0
  else if t < 0x50 then some 1
  else if t < 0x60 then some 3
  else if t < 0x70 then some 4
  else if t < 0x80 then some 5
  else some 2

/-- Raise an event packet: it is stamped with the Beat and enters the writer's FIFO of 256, or waits at its source's
handshake while that is full (R187, R188, R191). A packet that concerns a context carries the context's pod (R369). -/
def State.report (s : State) (p : Packet) : State :=
  let p := { p with beat := s.beat, tick := s.beatTick, pod := p.pod <|> p.ctx.map s.podOf }
  if s.fe.fifo.length < 256 ∧ s.fe.stalled = [] then { s with fe := { s.fe with fifo := s.fe.fifo ++ [p] } }
  else { s with fe := { s.fe with stalled := s.fe.stalled ++ [p] } }

/-- The queue slot of a node: that of its command, or for a serving instance the free value of log entry 6. -/
def Node.slot (n : Node) : Nat :=
  match n.cmd with
  | some (q, _) => q
  | none => match n.call with
    | some x => (Config.servingSlot (x / 256)).toNat
    | none => 0

/-- The "node" argument of R369: the index and the slot of its command. -/
def State.nodeArg (s : State) (k : Nat) : Nat := nkIdx k + (s.node k).slot * 2 ^ 20

/-- Where the launch constants of a node lie: CONST_ADDR, or the pointer word read for it (R91, R186). -/
def Node.constAddr (n : Node) : Nat := (n.ptr.getD n.d.b).toNat

/-- The TAG of a node: words 0x18 and 0x1C of the kinds that have one (R42). -/
def Node.tag (n : Node) : Nat :=
  match n.d.kind with
  | .task | .join | .signal | .wait | .remote => n.d.t.toNat
  | _ => 0

/-- Signal an MSI-X vector at once: a masked one sets its pending bit (R184). -/
def State.msixNow (s : State) (v : Nat) : State :=
  if v ∈ s.fe.msixMask then { s with fe := { s.fe with msixPend := insertNat v s.fe.msixPend } } else s.emit (.msix v)

/-- Signal a vector of R190, at most once per µs: one that was signalled in the preceding µs is held back. -/
def State.vector (s : State) (v : Nat) : State :=
  let last := tget 0 s.fe.vecLast v
  if last = 0 ∨ last ≤ s.now then
    ({ s with fe := { s.fe with vecLast := tput 0 s.fe.vecLast v (s.now + 1) } }).msixNow v
  else { s with fe := { s.fe with vecHeld := insertNat v s.fe.vecHeld } }

/-- The vector of a packet's category, if enabled (R190). -/
def State.categoryVector (s : State) (t : Nat) (pod : Option Nat) : State :=
  match packetCategory t with
  | none => s
  | some b =>
    if bit (s.reg ⟨.rqCfg, 0, 0⟩) (16 + b) then
      s.vector (match b with | 0 => 256 + pod.getD 0 | 1 => 272 | 2 => 273 | 3 => 274 | 4 => 275 | _ => 276)
    else s

/-- Set a PENDING bit of FC_PIN (R366). -/
def State.pinEvent (s : State) (b : Nat) : State := s.orReg ⟨.fcPin, 0, 0⟩ (BitVec.ofNat 64 (2 ^ b))

/-- TSU_FAULT_N as Tsuica drives it: low in FATAL or while an enabled PENDING bit is set (R366). -/
def State.faultPinLow (s : State) : Bool :=
  s.fatal || decide (s.fld ⟨.fcPin, 0, 0⟩ 0 4 &&& (s.fld ⟨.fcPin, 0, 0⟩ 8 4 ||| 1) ≠ 0)

/-! ### The trace unit -/

/-- OB_TRC_CFG.MODE: 0 OFF, 1 STREAM, 2 TRIGGER. -/
def State.trcMode (s : State) : Nat := s.fld ⟨.trcCfg, 0, 0⟩ 0 2

/-- Records are being made (R406, R408). -/
def State.tracing (s : State) : Bool := decide (s.trcMode ≠ 0) && !s.ob.stoppedMaking && !s.ob.traceDown

/-- Hub cycles since the Align of the start (R405). -/
def State.ts (s : State) : Nat := ((s.reg (gcnt 0)).toNat + 2 ^ 64 - s.st.alignAt) % 2 ^ 56

/-- A FREEZE or a QUIESCE makes its cut (R415, R417). -/
def State.cutMade (s : State) (st : StopState) : State := { s with ob := { s.ob with stop := st, cut := (s.beat, s.ts) } }

/-- Store a record at the end of the staging buffer. -/
def State.storeRec (s : State) (r : TraceRec) : State :=
  ({ s with ob := { s.ob with trace := s.ob.trace ++ [r] } }).bump (gcnt 9) 1

/-- One more POST record is stored; after the POST-th no more are made and the sink drains (R408). -/
def State.postRec (s : State) (r : TraceRec) : State :=
  let s := s.storeRec r
  let left := s.ob.postLeft - 1
  if left = 0 then
    { s with ob := { s.ob with postLeft := 0, stoppedMaking := true, draining := some 0 } }
  else { s with ob := { s.ob with postLeft := left } }

/-- The trigger fires: TRACE_TRIGGERED, a TRIGGER record, and POST records to follow (R408). -/
def State.fireTrigger (s : State) (src : Nat) : State :=
  let s := s.report { typ := 0x80, source := sourceUnit 7, body := [s.ob.trace.length] }
  let s := s.storeRec { typ := 0x0D, source := 15, ts := s.ts, arg := src, tag := s.ob.trigCount + 1,
                        disturbed := bit (s.reg ⟨.trcStatus, 0, 0⟩) 0 }
  { s with ob := { s.ob with triggered := true, trigCount := s.ob.trigCount + 1,
                             postLeft := s.fld ⟨.trcCounts, 0, 0⟩ 24 24 } }

/-- One occurrence of the trigger condition from source `src`: the COUNT-th fires (R408). -/
def State.trigger (s : State) (src : Nat) : State :=
  if s.trcMode = 2 ∧ s.tracing ∧ ¬ s.ob.triggered ∧ s.fld ⟨.trcTrig, 0, 0⟩ 16 2 = src then
    let seen := s.ob.trigSeen + 1
    let s := { s with ob := { s.ob with trigSeen := seen } }
    if seen = s.fld ⟨.trcTrig, 0, 0⟩ 0 16 then s.fireTrigger src else s
  else s

/-- A record meets the MATCH condition of OB_TRC_TRIG. -/
def State.matchesTrig (s : State) (r : TraceRec) : Bool :=
  let t : Reg := ⟨.trcTrig, 0, 0⟩
  let m := s.fld t 20 3
  (!m.testBit 0 || decide (r.typ = s.fld t 48 8)) &&
  (!m.testBit 1 || decide (r.ctx = some (s.fld t 32 9))) &&
  (!m.testBit 2 || decide (r.node = s.fld ⟨.trcTrigNode, 0, 0⟩ 0 20))

/-- The number of records the staging buffer holds (R404). -/
def traceDepth : Nat := 262144

/-- A record in STREAM mode (R407, R409, R410). Without LOSSLESS a record that finds the buffer full is dropped and a DROP
record goes in before the source's next; with it the record waits, and the dealers stop issue at 7 MiB. -/
def State.streamRec (s : State) (r : TraceRec) : State :=
  let len := s.ob.trace.length
  if bit (s.reg ⟨.trcCfg, 0, 0⟩) 2 then
    let s := if len < traceDepth then s.storeRec r else { s with ob := { s.ob with traceWait := s.ob.traceWait ++ [r] } }
    if len + 1 ≥ 229376 ∧ ¬ s.ob.lossStop then
      (({ s with ob := { s.ob with lossStop := true } }).orReg ⟨.trcStatus, 0, 0⟩ 1).disturb 3
    else s
  else
    let owed := tget 0 s.ob.drops r.source
    if owed = 0 then
      if len < traceDepth then s.storeRec r
      else
        ({ s with ob := { s.ob with drops := tput 0 s.ob.drops r.source 1,
                                    dropTotal := tput 0 s.ob.dropTotal r.source (tget 0 s.ob.dropTotal r.source + 1) } }).bump
          (gcnt 10) 1
    else if len + 2 ≤ traceDepth then
      let s := s.storeRec { typ := 0x0E, source := r.source, ts := r.ts, arg := min owed (2 ^ 32 - 1),
                            tag := tget 0 s.ob.dropTotal r.source, disturbed := r.disturbed }
      ({ s with ob := { s.ob with drops := tput 0 s.ob.drops r.source 0 } }).storeRec r
    else
      ({ s with ob := { s.ob with drops := tput 0 s.ob.drops r.source (owed + 1),
                                  dropTotal := tput 0 s.ob.dropTotal r.source (tget 0 s.ob.dropTotal r.source + 1) } }).bump
        (gcnt 10) 1

/-- Make a record (R404 to R410). While SNAPPED none is made: every FIFO stands as it stood (R413). -/
def State.addRec (s : State) (r : TraceRec) : State :=
  if s.tracing ∧ s.ob.stop ≠ .snapped then
    let r := { r with ts := s.ts, disturbed := bit (s.reg ⟨.trcStatus, 0, 0⟩) 0 }
    if s.trcMode = 1 then s.streamRec r
    else if s.ob.triggered then s.postRec r
    else if s.fld ⟨.trcTrig, 0, 0⟩ 16 2 = 0 ∧ s.matchesTrig r then
      let t := s.trigger 0
      if t.ob.triggered then t.postRec r
      else
        let t := t.storeRec r
        let pre := t.fld ⟨.trcCounts, 0, 0⟩ 0 24
        { t with ob := { t.ob with trace := t.ob.trace.drop (t.ob.trace.length - pre) } }
    else
      let t := s.storeRec r
      let pre := t.fld ⟨.trcCounts, 0, 0⟩ 0 24
      { t with ob := { t.ob with trace := t.ob.trace.drop (t.ob.trace.length - pre) } }
  else s

/-- The place of a record among those of its hub cycle: by SOURCE, then by engine (R404). -/
def TraceRec.rank (r : TraceRec) : Nat := r.source * 2 ^ 15 + (r.engine.map (· + 1)).getD 0

def insertRec (r : TraceRec) : List TraceRec → List TraceRec
  | [] => [r]
  | a :: t => if r.rank ≤ a.rank then r :: a :: t else a :: insertRec r t

/-- The records stored in one hub cycle, which began in state `s`, stand in order (R404). -/
def State.orderRecs (t s : State) : State :=
  let n := (t.reg (gcnt 9)).toNat - (s.reg (gcnt 9)).toNat
  if n ≤ 1 ∨ t.ob.triggered ≠ s.ob.triggered then t
  else
    let old := t.ob.trace.length - n
    { t with ob := { t.ob with trace := t.ob.trace.take old ++ (t.ob.trace.drop old).foldr insertRec [] } }

/-- A record of a traced node whose pod is enabled in OB_TRC_SRC.PODS (R404, R405). -/
def State.traceNode (s : State) (typ source k : Nat) (engine : Option Nat) (arg : Nat) : State :=
  let n := s.node k
  let c := nkCtx k
  if bit n.d.flags 4 ∧ bit (s.reg ⟨.trcSrc, 0, 0⟩) (s.podOf c) then
    s.addRec { typ := typ, source := source, ctx := some c, engine := engine, node := nkIdx k, arg := arg, tag := n.tag }
  else s

/-- A record of a unit event; `u` is its bit of OB_TRC_SRC.UNITS less 16 (R404). -/
def State.traceUnit (s : State) (u : Nat) (r : TraceRec) : State :=
  if bit (s.reg ⟨.trcSrc, 0, 0⟩) (16 + u) then s.addRec r else s

/-! ### External inputs in LOCKSTEP (R328, R329) -/

/-- A command of the monitor that writes a register. -/
def monitorWrites : Instr → Bool
  | .draoftWr _ _ | .draoftFreeze | .draoftQuiesce | .draoftSnap _ | .draoftResume | .draoftTrig | .draoftCnt => true
  | _ => false

/-- HOLD does not hold reads, nor the host's writes of TSU_MODE (R329). -/
def Held.free : Held → Bool
  | .read .. | .completion _ => true
  | .write .host off _ _ => decide (off = 0x20)
  | .monitor i => !monitorWrites i
  | _ => false

/-- TSU_MODE.HOLD in LOCKSTEP. -/
def State.holding (s : State) : Bool := s.lockstep && bit (s.reg ⟨.tsuMode, 0, 0⟩) 4

/-- Parcels received and not taken: external inputs too (R328). -/
def State.heldParcels (s : State) : Nat :=
  (s.li.ports.map fun x => (x.2.rx.map fun q => (q.2.map fun (b : RxBlock) => b.parcels.length).sum).sum).sum

/-- Where the hold is full, the host port takes no more posted writes, and POST_FULL is set (R329, R331). -/
def State.checkHold (s : State) : State :=
  if s.holding ∧ 4096 ≤ (s.ob.inputs.filter fun h => !h.free).length + s.heldParcels then s.disturb 1 else s

/-- An external input waits for the next lockstep-tick boundary (R328). The hold has room for 4,096; what comes after it waits at
the host port, in the same order (R329). -/
def State.holdInput (s : State) (h : Held) : State := ({ s with ob := { s.ob with inputs := s.ob.inputs ++ [h] } }).checkHold

/-- A row that reads memory at `a`: in LOCKSTEP the completion of a read of host memory is an external input, and the row has its
effect when that is admitted, at the next boundary (R328). A hub that does not run makes no read. -/
def State.viaHost (s : State) (space a : Nat) (i : Instr) (f : State → State) : State :=
  if ¬ (s.lockstep ∧ s.hubOn ∧ s.hostAt space a) then f s
  else if Held.completion i ∈ s.ob.inputs then s else s.holdInput (.completion i)

/-- A row that may read memory at a place. -/
def State.viaHostAt (s : State) (w : Option (Nat × Nat)) (i : Instr) (f : State → State) : State :=
  match w with
  | none => f s
  | some (space, a) => s.viaHost space a i f

end Sys2Proof.Machine
end

