-- ==== Sys2Proof/Machine/Operands.lean ====
section
/-! DEFINITION. The layouts of what Tsuica reads from and writes to memory and cell ports: node descriptors, edge words,
ring descriptors, launch records, completion records, packets, fault records and trace records. -/
namespace Sys2Proof.Machine

/-- The codes of R46. -/
def NodeState.code : NodeState → Nat
  | .free => 0 | .template => 1 | .dormant => 2 | .waiting => 3 | .ready => 4 | .parked => 5 | .active => 6 | .done => 7
  | .folded => 8 | .failed => 9 | .quarantined => 10

def NodeState.ofCode : Nat → Option NodeState
  | 0 => some .free | 1 => some .template | 2 => some .dormant | 3 => some .waiting | 4 => some .ready | 5 => some .parked
  | 6 => some .active | 7 => some .done | 8 => some .folded | 9 => some .failed | 10 => some .quarantined | _ => none

/-! ### Node descriptors (R35, R40 to R42) -/

/-- The KIND byte (R35). -/
def NodeKind.code : NodeKind → Nat
  | .task => 1 | .join => 2 | .signal => 3 | .wait => 4 | .loop => 5 | .gate => 6 | .fanout => 7 | .remote => 8
  | .sprout => 9 | .anchor => 10

def NodeKind.ofCode : Nat → Option NodeKind
  | 1 => some .task | 2 => some .join | 3 => some .signal | 4 => some .wait | 5 => some .loop | 6 => some .gate
  | 7 => some .fanout | 8 => some .remote | 9 => some .sprout | 10 => some .anchor | _ => none

/-- The 32 bytes of a node descriptor as held. -/
def Desc.encode (d : Desc) : List Byte :=
  leBytes 1 d.kind.code ++ leBytes 1 d.flags.toNat ++ leBytes 2 d.inDeg.toNat ++ leBytes 4 d.edgeBase.toNat ++
  leBytes 2 d.succ.toNat ++ leBytes 2 d.expect.toNat ++ leBytes 4 d.w0.toNat ++ leBytes 8 d.b.toNat ++
  leBytes 8 d.t.toNat

/-- A node descriptor from its 32 bytes; none for a KIND that R35 does not list. Reserved bits are judged apart. -/
def Desc.decode (bs : List Byte) : Option Desc :=
  match NodeKind.ofCode (leAt bs 0 1) with
  | none => none
  | some k => some
    { kind := k, flags := BitVec.ofNat 8 (leAt bs 1 1), inDeg := BitVec.ofNat 16 (leAt bs 2 2),
      edgeBase := BitVec.ofNat 22 (leAt bs 4 4), succ := BitVec.ofNat 16 (leAt bs 8 2),
      expect := BitVec.ofNat 16 (leAt bs 10 2), w0 := BitVec.ofNat 32 (leAt bs 12 4),
      b := BitVec.ofNat 64 (leAt bs 16 8), t := BitVec.ofNat 64 (leAt bs 24 8) }

/-- FLAGS (R41). -/
def Desc.rerunSafe (d : Desc) : Bool := bit d.flags 7
def Desc.template (d : Desc) : Bool := bit d.flags 6
def Desc.inBody (d : Desc) : Bool := bit d.flags 5
def Desc.trace (d : Desc) : Bool := bit d.flags 4
def Desc.notify (d : Desc) : Bool := bit d.flags 3

/-- Word 0x0C, and the halves of words 0x10 to 0x1C, by the names of R42. -/
def Desc.cls (d : Desc) : Nat := bits d.w0 0 2
def Desc.tileset (d : Desc) : Nat := bits d.w0 4 12
def Desc.panels (d : Desc) : Nat := if d.kind = .task then bits d.w0 16 16 else 0
def Desc.syncId (d : Desc) : Nat := bits d.w0 0 24
def Desc.op (d : Desc) : Nat := bits d.w0 24 4
def Desc.scope (d : Desc) : Nat := bits d.w0 30 2
def Desc.amount (d : Desc) : Nat := bits d.b 0 48
def Desc.bodyBase (d : Desc) : Nat := bits d.w0 0 20
def Desc.bodyCount (d : Desc) : Nat := bits d.b 0 20
def Desc.tripMax (d : Desc) : Nat := bits d.b 32 32
def Desc.primBase (d : Desc) : Nat := bits d.w0 0 20
def Desc.fallBase (d : Desc) : Nat := bits d.b 0 20
def Desc.primCount (d : Desc) : Nat := bits d.b 32 16
def Desc.fallCount (d : Desc) : Nat := bits d.b 48 16
def Desc.deadline (d : Desc) : Nat := bits d.t 0 32
def Desc.margin (d : Desc) : Nat := bits d.t 32 16
def Desc.fanTemplate (d : Desc) : Nat := bits d.w0 0 20
def Desc.expertsM1 (d : Desc) : Nat := bits d.t 0 12
def Desc.topk (d : Desc) : Nat := bits d.t 12 4
def Desc.capacity (d : Desc) : Nat := bits d.t 32 24
def Desc.imbRatio (d : Desc) : Nat := bits d.t 56 8
def Desc.destChip (d : Desc) : Nat := bits d.w0 0 13
def Desc.destCtx (d : Desc) : Nat := bits d.w0 16 9
def Desc.destNode (d : Desc) : Nat := bits d.b 0 20
def Desc.count (d : Desc) : Nat := bits d.b 32 16
def Desc.resNodes (d : Desc) : Nat := bits d.t 0 16
def Desc.resEdges (d : Desc) : Nat := bits d.t 16 16
def Desc.roster (d : Desc) : Nat := bits d.w0 0 4
def Desc.tplBase (d : Desc) : Nat := bits d.b 0 20
def Desc.tplCount (d : Desc) : Nat := bits d.b 32 16

/-! ### Edge words (R44) -/

def edgeKind (w : BitVec 32) : Nat := bits w 30 2
def edgeTarget (w : BitVec 32) : Nat := bits w 0 20
def edgeRsvd (w : BitVec 32) : Nat := bits w 20 10

/-! ### Ring descriptors (R173 to R177), as fields of the 64 bytes -/

structure RingDesc where
  opcode : Nat
  dflags : Nat
  ctx : Nat
  /-- 0x08: NODE_ADDR, REC_ADDR or VALUE. -/
  addr : Nat
  /-- 0x10 and 0x14. -/
  w10 : Nat
  w14 : Nat
  /-- 0x18: EDGE_ADDR; 0x20 and 0x24. -/
  addr2 : Nat
  w20 : Nat
  w24 : Nat
  cmdSeq : Nat
  cmdSlot : Nat
  user : Nat
  deriving DecidableEq, Repr

def RingDesc.ofBytes (bs : List Byte) : RingDesc :=
  { opcode := leAt bs 0 1, dflags := leAt bs 1 1, ctx := leAt bs 2 2 % 512, addr := leAt bs 8 8, w10 := leAt bs 16 4,
    w14 := leAt bs 20 4, addr2 := leAt bs 24 8, w20 := leAt bs 32 4, w24 := leAt bs 36 4, cmdSeq := leAt bs 40 8,
    cmdSlot := leAt bs 48 1, user := leAt bs 56 8 }

/-! ### What an engine receives (R91) -/

/-- The 32 bytes of a launch record. -/
def Launch.bytes (l : Launch) : List Byte :=
  leBytes 8 l.const ++ leBytes 4 (l.node % 2 ^ 20 + l.ctx % 512 * 2 ^ 20) ++
  leBytes 4 (l.slot % 256 + l.pod % 16 * 2 ^ 8 + l.det % 4 * 2 ^ 12 + l.trace.toNat * 2 ^ 14 + l.sprout.toNat * 2 ^ 15) ++
  leBytes 2 l.panel ++ leBytes 2 l.panels ++ leBytes 4 l.iter ++ leBytes 4 l.route ++ leBytes 2 l.epoch ++ zeros 2

/-- The key of the node a launch record names. -/
def Launch.key (l : Launch) : Nat := nk l.ctx l.node

/-! ### Status codes (R15) -/

def stOK : Nat := 0
def stFAULTED : Nat := 1
def stDESTROYED : Nat := 2
def stORPHANED : Nat := 3
def stDEP_ORPHANED : Nat := 4
def stCLAIM_TIMEOUT : Nat := 5
def stCOPY_DISAGREE : Nat := 6
def stGRAPH_UNDERFLOW : Nat := 7
def stWATCHDOG : Nat := 8
def stPOISONED : Nat := 9
def stSTALE : Nat := 10

/-! ### Records written to memory -/

/-- A completion record of slot `n` (R182). -/
def CplRec.bytes (r : CplRec) (n : Nat) : List Byte :=
  leBytes 8 r.seq ++ leBytes 8 r.user ++ leBytes 1 r.status ++ leBytes 1 r.opcode ++ leBytes 1 r.cause ++ zeros 1 ++
  leBytes 4 (r.folded % 2 ^ 21) ++ leBytes 2 r.drained ++ leBytes 2 r.killed ++ leBytes 1 n ++ zeros 1 ++
  leBytes 2 (r.ctx % 512)

/-- The four 8-byte words of a fault record (R341). -/
def FaultRec.words (f : FaultRec) : List Nat :=
  let valid := f.node.isSome.toNat + 2 * f.engine.isSome.toNat + 4 * f.cmd.isSome.toNat
  [f.cause % 256 + valid * 2 ^ 8 + f.engine.getD 0 % 2 ^ 14 * 2 ^ 16 + f.node.getD 0 % 2 ^ 20 * 2 ^ 32,
   (f.cmd.map Prod.snd).getD 0 % 2 ^ 64,
   (f.cmd.map Prod.fst).getD 0 % 256 + f.level % 256 * 2 ^ 8 + min f.later 65535 * 2 ^ 16 + f.detail % 2 ^ 32 * 2 ^ 32,
   f.tag % 2 ^ 64]

/-- The LENGTH of a packet (R369). -/
def Packet.length (p : Packet) : Nat := 32 + 8 * p.body.length

/-- The bytes of a packet after its length word (R188). -/
def Packet.tailBytes (p : Packet) (seq : Nat) : List Byte :=
  leBytes 2 p.typ ++ leBytes 1 p.status ++ leBytes 1 (match p.pod with | some q => q % 16 + 128 | none => 0) ++
  leBytes 2 p.source ++ leBytes 2 (match p.ctx with | some c => c % 512 + 2 ^ 15 | none => 0) ++ leBytes 4 seq ++
  leBytes 8 (p.beat % 2 ^ 48) ++ leBytes 4 (p.tick % 2 ^ 20) ++ zeros 4 ++ p.body.flatMap (leBytes 8)

/-- The bytes of a packet with its length word. -/
def Packet.bytes (p : Packet) (seq : Nat) : List Byte := leBytes 4 p.length ++ p.tailBytes seq

/-- The 32 bytes of a trace record (R405). -/
def TraceRec.bytes (r : TraceRec) : List Byte :=
  leBytes 1 r.typ ++ leBytes 1 (r.source % 16) ++
  leBytes 2 (match r.ctx with | some c => c % 512 + 2 ^ 15 | none => 0) ++ leBytes 2 r.disturbed.toNat ++
  leBytes 2 (match r.engine with | some e => e % 2 ^ 14 + 2 ^ 15 | none => 0) ++ leBytes 8 (r.ts % 2 ^ 56) ++
  leBytes 4 (r.node % 2 ^ 20) ++ leBytes 4 r.arg ++ leBytes 8 r.tag

/-! ### Engine IDs (R13) -/

def isLE (e : Nat) : Bool := decide (8192 ≤ e)
def engRegion (e : Nat) : Nat := e / 1024 % 8
def engTile (e : Nat) : Nat := e / 16 % 64
def engCell (e : Nat) : Nat := e % 16
def cellId (r t b : Nat) : Nat := r * 1024 + t * 16 + b
def leId (k : Nat) : Nat := 8192 + k
/-- Index of a tile over the chip: 48 × region + tile. -/
def engTileIdx (e : Nat) : Nat := 48 * engRegion e + engTile e
/-- Cells of class 0 ME, 1 HC, 2 DE in a tile (R13). -/
def classCells : Nat → List Nat
  | 0 => [0]
  | 1 => [1, 2, 3, 4, 5, 6, 7, 8]
  | 2 => [9, 10]
  | _ => []
/-- The class of an engine: 0 ME, 1 HC, 2 DE, 3 LE. -/
def engClass (e : Nat) : Nat := if isLE e then 3 else if engCell e = 0 then 0 else if engCell e < 9 then 1 else 2

end Sys2Proof.Machine
end

