-- ==== Sys2Proof/Machine/Life.lean ====
section
/-! DEFINITION. The shared endings: the combine turn, folding a node, ending work on engines (R195), revoking landing
entries, folding a trick, and faulting a context (R340 to R343). -/
namespace Sys2Proof.Machine

/-! ### What runs where -/

/-- Engines whose running task or panel is of node `k`, in ascending engine ID. -/
def State.enginesOf (s : State) (k : Nat) : List Nat :=
  (s.dl.engines.filter fun e => match e.2.job with | some l => decide (l.key = k) | none => false).map Prod.fst

/-- A completion report of node `k` is on its way to the hub. -/
def State.reporting (s : State) (k : Nat) : Bool := s.dl.reports.any fun r => decide (r.job.key = k)

/-- Suspended tasks of node `k`, in every hand. -/
def State.suspsOf (s : State) (k : Nat) : List Susp :=
  ((s.dl.dealers.flatMap fun d => d.2.hands).filter fun h => decide (h.key = k)).filterMap HandEnt.susp

def Desc.isKitty (d : Desc) : Bool := decide (d.kind = .task) && decide (0 < d.panels)

/-- The pod of a node's context. -/
def State.nodePod (s : State) (k : Nat) : Nat := s.podOf (nkCtx k)

/-! ### The combine turn (R87) -/

/-- The turn moves up past every panel that has passed; the list is ascending. -/
def turnUp : Nat → List Nat → Nat × List Nat
  | t, [] => (t, [])
  | t, p :: ps => if p = t then turnUp (t + 1) ps else if p < t then turnUp t ps else (t, p :: ps)

/-- Whether the turn is granted at once: in FREE, and to a single task (DEDUCED, log entry 20). -/
def State.turnFree (s : State) (k : Nat) : Bool := decide (s.det = 0) || decide ((s.node k).d.panels = 0)

/-- The turn reaches a waiting panel once every lower panel has passed. -/
def State.grantTurns (s : State) (k : Nat) : State :=
  s.each (s.enginesOf k) fun s e =>
    match (s.eng e).job with
    | none => s
    | some l =>
      if (s.eng e).turnAsk ∧ (s.turnFree k ∨ l.panel ≤ (s.node k).turn) then
        (s.updEng e fun x => { x with turnAsk := false, turnHeld := true }).emit (.turnGrant e)
      else s

/-- Panels pass the turn. -/
def State.passPanels (s : State) (k : Nat) (ps : List Nat) : State :=
  (s.updNode k fun n =>
    let r := turnUp n.turn (ps.foldl (fun a p => insertNat p a) n.passed)
    { n with turn := r.1, passed := r.2 }).grantTurns k

/-! ### Blocked contexts (R271) -/

/-- Context `c` is not blocked now: the pod's contexts are not all blocked any more, and where it was blocked ALL_BLOCKED may be raised
again. -/
def State.unblock (s : State) (c : Nat) : State :=
  let was := (s.ctx c).blockedSince.isSome
  if was ∨ (s.pod (s.podOf c)).allSince.isSome then
    (s.updCtx c fun x => { x with blockedSince := none }).updPod (s.podOf c) fun x =>
      { x with allSince := none, allRaised := x.allRaised && !was }
  else s

/-- Context `c` without an open command is not blocked, which may let ALL_BLOCKED be raised again; its pod's other contexts may all be
blocked still. -/
def State.unblockIdle (s : State) (c : Nat) : State :=
  if (s.ctx c).blockedSince.isSome then
    (s.updCtx c fun x => { x with blockedSince := none }).updPod (s.podOf c) fun x => { x with allRaised := false }
  else s

/-- An engine's task goes on: its context is blocked no longer. -/
def State.unblockOf (s : State) (e : Nat) : State :=
  match (s.eng e).job with
  | some l => s.unblock l.ctx
  | none => s

/-! ### Taking a node out of the places that hold it -/

def Dealing.mapDealers (d : Dealing) (f : Dealer → Dealer) : Dealing :=
  { d with dealers := d.dealers.map fun x => (x.1, f x.2) }

def Dealing.dropHands (d : Dealing) (k : Nat) : Dealing :=
  { d.mapDealers fun x => { x with hands := x.hands.filter (fun h => decide (h.key ≠ k)),
                                   confirmed := x.confirmed.filter (fun h => decide (h.1 ≠ k)) } with
    leHand := d.leHand.filter (fun h => decide (h.key ≠ k))
    backlog := (d.backlog.map fun x => (x.1, x.2.filter (· ≠ k))).filter (fun x => decide (x.2 ≠ []))
    offerWait := d.offerWait.filter (· ≠ k) }

/-- An offer round of a node that is no longer to be dealt: every YES is withdrawn (R77). -/
def Offer.cancel (o : Offer) : Offer :=
  let yes := (o.transit ++ o.got).filterMap fun a => a.2.map fun h => (a.1, h.1)
  { o with closed := true, transit := [], got := [], regions := [], asked := [], confirm := none
           withdraw := o.withdraw ++ yes ++ o.confirm.toList }

/-- Suspend records in use are given back when their tasks leave the hands. -/
def State.freeRecords (s : State) (k : Nat) : State :=
  s.each (s.suspsOf k) fun s u => s.updCtx (nkCtx k) fun c => { c with suspUsed := c.suspUsed.filter (· ≠ u.addr) }

/-- Take a node out of every hand, backlog, offer, hub queue and waiter list. Engines held by its confirmed offers are
free again. -/
def State.unplace (s : State) (k : Nat) : State :=
  let s := s.freeRecords k
  let held := (s.dl.dealers.flatMap fun d => d.2.confirmed).filterMap fun h => if h.1 = k then some h.2 else none
  let s := s.each held fun s e => s.updEng e fun x => { x with held := none }
  { s with
    dl := { s.dl.dropHands k with offers := s.dl.offers.map fun o => if o.key = k then o.cancel else o }
    gs := { s.gs with armed := s.gs.armed.filter (· ≠ k), hubReady := s.gs.hubReady.filter (· ≠ k),
                      parkList := s.gs.parkList.filter (· ≠ k) }
    sy := { s.sy with
            recWait := s.sy.recWait.filter fun (x : Nat × BitVec 64) => decide (x.1 ≠ k)
            xlatWait := s.sy.xlatWait.filter (fun q => decide (q.src ≠ .node k))
            objs := s.sy.objs.map fun o => (o.1, { o.2 with waiters := o.2.waiters.filter fun w => w.engine || decide (w.who ≠ k) }) } }

/-- An operation that an engine waits for (R213). -/
def SyncOp.waits : SyncOp → Bool
  | .claim | .tryClaim | .read | .wait _ _ => true
  | _ => false

/-- A request of engine `e`. -/
def SyncSrc.isEngine (e : Nat) : SyncSrc → Bool
  | .engine e' _ => decide (e' = e)
  | _ => false

/-- Close an engine's watch entry: its waiter is removed, and a claimer so removed is never granted (R217). -/
def State.closeWatch (s : State) (e : Nat) : State :=
  let open' (q : SyncReq) : Bool := q.src.isEngine e && q.op.waits
  let s := { s with sy := { s.sy with xlatWait := s.sy.xlatWait.filter fun q => !open' q, portWait := s.sy.portWait.filter fun q => !open' q } }
  match (s.eng e).watch with
  | none => s
  | some w =>
    ((s.updObj w.obj fun o => { o with waiters := o.waiters.filter fun x => !(x.engine && decide (x.who = e)) }).updEng e
      fun x => { x with watch := none }).unblockOf e

/-! ### Folding (R47, R99) -/

/-- A node becomes FOLDED and is counted for its command. -/
def State.setFolded (s : State) (k : Nat) : State :=
  let s := s.unplace k
  let s := s.updNode k fun n => { n with st := .folded, ending := false, left := [], gst := .unarmed }
  let s := s.updCmdOf k fun c => { c with folded := c.folded + 1 }
  s.traceNode 4 8 k none 0

/-- The panels of a kitty node that no engine has drawn: held at the hub, and in shares. -/
def State.undrawn (s : State) (k : Nat) : List Nat :=
  (match (s.node k).runs with | some r => runsPanels r | none => []) ++
  s.dl.dealers.flatMap fun d => (d.2.shares.filter fun h => decide (h.key = k)).flatMap fun h => runsPanels h.undrawn

/-- Nothing is left of a share, and no report of it is on its way. -/
def Share.empty (h : Share) : Bool := decide (h.running = []) && decide (h.undrawn = []) && !h.reported

/-- Drop the undrawn panels of a kitty node: they pass the turn, and the node can no longer be DONE (R99, R195). -/
def State.dropPanels (s : State) (k : Nat) : State :=
  let ps := s.undrawn k
  let backlog := (s.dl.backlog.map fun (x : Nat × List Nat) => (x.1, x.2.filter (· ≠ k))).filter fun x => decide (x.2 ≠ [])
  let s := { s with dl := { s.dl with backlog := backlog } }
  let s := { s with dl := s.dl.mapDealers fun d =>
    { d with
      hands := d.hands.filter (fun h => !(decide (h.key = k) && h.kitty))
      shares := (d.shares.map fun (h : Share) => if h.key = k then { h with undrawn := [], size := h.size - runsCount h.undrawn } else h).filter
        fun h => decide (h.key ≠ k) || !h.empty } }
  let s := s.updNode k fun n => { n with runs := n.runs.map fun _ => [], spoiled := n.spoiled || decide (ps ≠ []) }
  s.passPanels k ps

/-- Fold a node as FOLD does: WAITING, READY, PARKED and DORMANT nodes fold; a partly drawn share drops its undrawn
panels; a task already on an engine runs to its end (R47, R99). -/
def State.foldNode (s : State) (k : Nat) : State :=
  let n := s.node k
  let busy := decide (s.enginesOf k ≠ []) || decide (s.suspsOf k ≠ []) || s.reporting k
  match n.st with
  | .waiting | .parked | .dormant => s.setFolded k
  | .ready =>
    if n.d.isKitty then
      let t := s.dropPanels k
      if busy then t else t.setFolded k
    else if busy then s
    else s.setFolded k
  | .active =>
    if n.d.isKitty then
      let t := s.dropPanels k
      if busy then t else if t.node k |>.spoiled then t.setFolded k else t
    else s
  | _ => s

/-! ### Contexts being saved, and suspensions -/

/-- A node of the instance of a trick in progress, or what it instantiated (R159, R260). -/
def State.trickNode (s : State) : Nat → Nat → Bool
  | 0, _ => false
  | f + 1, k =>
    (s.rs.ros.any fun x => match x.2.trick with | some t => decide (t.anchor = k) | none => false) ||
    (match (s.node k).parent with
     | some p => s.trickNode f p
     | none => false)

/-- A save of context `c` is under way (R260, R346). -/
def State.saveOn (s : State) (c : Nat) : Bool := decide ((s.ctx c).st = .saving) || (s.ctx c).faultedInSave

/-- Dispatch of the node has stopped because its context is being saved; a trick in progress runs to its end (R260). -/
def State.saveHolds (s : State) (k : Nat) : Bool := s.saveOn (nkCtx k) && !s.trickNode 16 k

/-- Context `c` is saved away: its nodes stand in its image (R259). -/
def State.away (s : State) (c : Nat) : Bool := decide ((s.ctx c).st = .saved) || decide ((s.ctx c).st = .restoring)

/-- A pending suspension of engine `e` ends, and its record is free again (R257). -/
def State.dropSusp (s : State) (e : Nat) : State :=
  match (s.eng e).susp, (s.eng e).job with
  | some x, some l =>
    (s.updCtx l.ctx fun c => { c with suspUsed := c.suspUsed.filter (· ≠ x.2.1) }).updEng e fun y => { y with susp := none }
  | _, _ => s.updEng e fun y => { y with susp := none }

/-! ### Ending work on engines (R195) -/

/-- A drain on an engine's cell port. -/
def State.drain (s : State) (e : Nat) : State :=
  let x := s.eng e
  if x.drain.isSome ∨ x.reset.isSome then s
  else (((s.closeWatch e).dropSusp e).updEng e fun x => { x with drain := some s.now }).emit (.drain e)

/-- An OPEN landing entry becomes REVOKED (R119, R125). -/
def State.revoke (s : State) (l : Nat) : State :=
  if (s.landing l).st = .isOpen then s.updLanding l fun x => { x with st := .revoked, leftAt := s.now } else s

def State.landingsWhere (s : State) (p : Landing → Bool) : List Nat :=
  (s.li.landings.filter fun l => decide (l.2.st ≠ .free) && p l.2).map Prod.fst

/-- Nodes a LOOP's body range covers (R62). -/
def State.bodyOf (s : State) (k : Nat) : List Nat :=
  let d := (s.node k).d
  (s.ctxNodes (nkCtx k)).filter fun x => decide (d.bodyBase ≤ nkIdx x) && decide (nkIdx x < d.bodyBase + d.bodyCount)

/-- The trick of an ANCHOR is folded: its epoch advances and its landing entries are revoked (R153 step 1). A trick whose results are
taken is over but for its log record, and nothing of it is folded (R156). -/
def State.dropTrick (s : State) (r : Nat) : State :=
  match (s.ros r).trick with
  | none => s
  | some t =>
    if t.folded ∨ t.resulted then s else
    let s := s.updRos r fun x => { x with trick := some { t with folded := true } }
    let s := s.setReg ⟨.roEpoch, r, 0⟩ (BitVec.ofNat 64 (((s.reg ⟨.roEpoch, r, 0⟩).toNat + 1) % 2 ^ 16))
    s.each (s.landingsWhere fun l => decide (l.owner = .trick r t.epoch)) State.revoke

/-- The roster whose trick an ANCHOR holds. -/
def State.trickOf (s : State) (k : Nat) : Option Nat :=
  (s.rs.ros.find? fun x => match x.2.trick with | some t => decide (t.anchor = k) | none => false).map Prod.fst

/-- A hub unit holds an ACTIVE node that R195 ends at once. -/
def State.endsAtOnce (s : State) (k : Nat) : Bool :=
  let n := s.node k
  match n.d.kind with
  | .wait | .loop | .fanout | .anchor | .join | .gate => true
  | .sprout => decide (s.enginesOf k = []) && decide (s.suspsOf k = []) && !s.reporting k
  | .remote | .signal => !n.sent
  | .task => false

/-- Step 1 to 3 of R195 for one node of the set. -/
def State.endNode (s : State) (k : Nat) : State :=
  let n := s.node k
  let s := s.each (s.landingsWhere fun l => decide (l.node = some k)) State.revoke
  match n.st with
  | .waiting | .parked | .dormant => s.setFolded k
  | .ready | .active =>
    if n.st = .active ∧ s.endsAtOnce k then
      let s := if n.d.kind = .fanout then
          { s with gs := { s.gs with fan := s.gs.fan.bind (fun w => if w.node = k then none else some w)
                                     fanHeld := s.gs.fanHeld.filter fun w => decide (w.node ≠ k) } } else s
      let s := match s.trickOf k with
        | some r => s.dropTrick r
        | none => s
      let s := s.updRos n.d.roster fun x => { x with anchors := x.anchors.filter (· ≠ k) }
      let s := s.updCtx (nkCtx k) fun c => { c with dynWait := c.dynWait.filter (· ≠ k) }
      s.setFolded k
    else if n.sent then s.updNode k fun n => { n with ending := true }
    else
      let s := if n.d.isKitty then s.dropPanels k else s
      let run := s.enginesOf k
      let left := s.suspsOf k
      let s := if n.d.isKitty ∧ left ≠ [] then
          (s.updNode k fun n => { n with spoiled := true }).passPanels k (left.map fun u => u.launch.panel) else s
      let s := if left ≠ [] then
          let s := s.freeRecords k
          { s with dl := s.dl.mapDealers fun d =>
            { d with
              hands := d.hands.filter (fun h => !(decide (h.key = k) && h.susp.isSome))
              shares := d.shares.map fun (h : Share) => if h.key = k then
                { h with running := h.running.filter fun p => !(left.any fun u => decide (u.launch.panel = p)) } else h } }
        else s
      if run = [] ∧ ¬ s.reporting k then s.setFolded k
      else (s.updNode k fun n => { n with ending := true }).each run State.drain
  | .done =>
    -- an armed gate of the set is disarmed without a report (DEDUCED, log entry 21)
    if n.d.kind = .gate ∧ n.left ≠ [] ∧ ¬ n.d.inBody then s.setNode k {} else s
  | .failed | .quarantined => (if n.d.isKitty then s.dropPanels k else s).each (s.enginesOf k) State.drain
  | .free | .template | .folded => s

/-- R195 on a set of nodes. The bodies of LOOP nodes in the set are ended with them: every body node that is not on an
engine becomes FOLDED, DONE and DORMANT ones included (R64). -/
def State.endNodes (s : State) (ks : List Nat) : State :=
  let loops := ks.filter fun k => decide ((s.node k).d.kind = .loop) && decide ((s.node k).st = .active)
  let body := loops.flatMap s.bodyOf
  let all := (ks ++ body).foldl (fun a k => insertNat k a) []
  s.each all fun s k =>
    if k ∈ body ∧ (s.node k).st = .done then s.setFolded k else s.endNode k

/-- End every node of a command with a status and cause for its record (R194, R223, R343). -/
def State.endCmd (s : State) (n seq status cause : Nat) : State :=
  let s := s.updCmd n seq fun c => { c with ending := some (c.ending.getD (status, cause)) }
  let s := s.each (s.landingsWhere fun l => decide (l.owner = .command n seq)) State.revoke
  s.endNodes (s.cmdNodes n seq)

/-! ### Slots that stop with their context (R164) -/

/-- Discard entries fetched but not applied: W_dev goes back to the first of them. -/
def Slot.discard (x : Slot) : Slot :=
  match x.buf with
  | [] => x
  | e :: _ => { x with buf := [], wdev := e.idx }

/-- The slot's bound context faults (R164). -/
def Slot.fault (x : Slot) : Slot :=
  match x.st with
  | .idle | .fetching | .saved => { x.discard with st := .faulted, idleCheck := false }
  | _ => x

/-- Open commands whose context is `c`, as slot and sequence number. -/
def State.cmdsOfCtx (s : State) (c : Nat) : List (Nat × Nat) :=
  (s.fe.cmds.filter fun e => decide (e.2.ctx = c)).map fun e => (e.1 / 2 ^ 64, e.1 % 2 ^ 64)

/-! ### Context faults (R340 to R343) -/

/-- Steps 1 and 2 of teardown (R343): the slots stop, and R195 is applied to every node of every open command. -/
def State.teardownStart (s : State) (c status cause : Nat) : State :=
  let s := s.each (s.slotsOf c) fun s n => s.updSlot n Slot.fault
  let s := s.each (s.cmdsOfCtx c) fun s q => s.updCmd q.1 q.2 fun x => { x with ending := some (x.ending.getD (status, cause)) }
  let s := s.each (s.landingsWhere fun l => decide (l.ctx = c) && (match l.owner with | .command _ _ => true | _ => false)) State.revoke
  s.endNodes (s.ctxNodes c)

/-- A context faults: its state, its record, one packet, and teardown begins. A fault of a FAULTED context only raises
LATER; one of a SAVING context lets the save's steps end first (R340, R341, R346). `src` is the SOURCE of the packet. -/
def State.ctxFault (s : State) (c : Nat) (f : FaultRec) (src : Nat) : State :=
  match (s.ctx c).st with
  | .faulted => s.updCtx c fun x => { x with fault := x.fault.map fun r => { r with later := min (r.later + 1) 65535 } }
  | was =>
    let f := match f.node with
      | some i => { f with cmd := f.cmd <|> (s.node (nk c i)).cmd, tag := (s.node (nk c i)).tag }
      | none => f
    let s := s.updCtx c fun x => { x with st := .faulted, fault := some f, torn := false, faultedInSave := decide (was = .saving) }
    let s := if was = .saved ∨ was = .restoring then
        s.each (s.cmdsOfCtx c) fun s q => s.updCmd q.1 q.2 fun x => { x with folded := 0, drained := 0, killed := 0 } else s
    let s := s.report { typ := if f.status = stCOPY_DISAGREE then 0x21 else 0x20, status := f.status,
                        source := f.engine.getD src, ctx := some c, body := f.words }
    let s := s.pinEvent 1
    if was = .saving then s else s.teardownStart c f.status f.cause

/-- A node becomes FAILED and its context faults (R47). -/
def State.failNode (s : State) (k : Nat) (f : FaultRec) (src : Nat) : State :=
  let s := s.unplace k
  let s := s.updNode k fun n => { n with st := .failed }
  s.ctxFault (nkCtx k) { f with node := some (nkIdx k) } src

/-- A node becomes QUARANTINED and its context faults (R51, R360). -/
def State.quarantine (s : State) (k : Nat) (f : FaultRec) (src : Nat) : State :=
  let s := s.unplace k
  let s := s.updNode k fun n => { n with st := .quarantined }
  s.ctxFault (nkCtx k) { f with node := some (nkIdx k) } src

/-- The chip enters FATAL: the line goes low, the chip freezes, one packet is written and vector 272 signalled (R361). -/
def State.enterFatal (s : State) (sub : Nat) : State :=
  if s.fatal then s else
  let s := (s.orReg ⟨.fcStatus, 0, 0⟩ 1).pinEvent 0
  let s := s.report { typ := 0x2A, status := stFAULTED, source := sourceUnit 9, body := [sub % 16 + (Config.fatalDetail sub).toNat * 2 ^ 8] }
  let s := s.vector 272
  match s.ob.stop with
  | .snapped => s
  | _ => ((s.cutMade .frozen).bump (gcnt 15) 1).disturb 4

end Sys2Proof.Machine
end

