-- ==== Sys2Proof/Machine/Graph.lean ====
section
/-! DEFINITION. The Resolver, node completion, gates and loops (R46 to R66, R279, R282). -/
namespace Sys2Proof.Machine

/-! ### Entering READY -/

/-- Some valid residency entry bound to context `c` is ABSENT or LOADING (R267). -/
def State.weightsAbsent (s : State) (c : Nat) : Bool :=
  let v := s.reg ⟨.ctxRes, c, 0⟩
  (List.range 4).any fun j =>
    bit v (16 * j + 12) && decide ((tget {} s.rs.resid (bits v (16 * j) 12) : ResEnt).st < 2)

/-- A node enters READY: dealt is set, and a TASK or SPROUT whose weights are absent is PARKED instead (R47, R52, R267). The hub
cycles that it was PARKED belong to its wait (R287). -/
def State.makeReady (s : State) (k : Nat) : State :=
  let n := s.node k
  let s := { s with gs := { s.gs with order := s.gs.order + 1 } }
  let stamp := n.cmd.bind fun q => (s.cmd q.1 q.2).bind Cmd.release
  let s := s.setNode k { n with
    st := .ready, dealt := true, place := .hub, order := s.gs.order, readyAt := s.now, ptr := none
    readyHub := if n.st = .parked then n.readyHub else (s.reg (gcnt 0)).toNat
    release := if n.d.kind = .gate then stamp <|> some (s.beat, s.now) else n.release
    relTick := if n.d.kind = .gate ∧ stamp = none then s.beatTick else 0 }
  let s := s.traceNode 1 8 k none n.iter
  let engineKind : Bool := decide (n.d.kind = .task) || decide (n.d.kind = .sprout)
  if engineKind && s.weightsAbsent (nkCtx k) then
    let s := s.updNode k fun n => { n with st := .parked }
    ({ s with gs := { s.gs with parkList := s.gs.parkList ++ [k] } }).traceNode 7 8 k none 0
  else if n.d.kind = .join ∨ n.d.kind = .gate then { s.unblock (nkCtx k) with gs := { (s.unblock (nkCtx k)).gs with hubReady := s.gs.hubReady ++ [k] } }
  else s.unblock (nkCtx k)

/-- Write both counter copies. -/
def Node.setCount (n : Node) (v : Nat) : Node :=
  { n with pri := ⟨BitVec.ofNat 16 v, true⟩, shd := ⟨BitVec.ofNat 16 v, true⟩ }

/-- Arm a node: both copies := IN_DEGREE, dealt := 0; with IN_DEGREE zero it waits for a Resolver lane (R47, R54). -/
def State.arm (s : State) (k : Nat) : State :=
  let n := s.node k
  let s := s.setNode k { n.setCount n.d.inDeg.toNat with
    st := .waiting, dealt := false, started := false, place := .hub, runs := none, turn := 0, passed := [], panelsOk := 0, spoiled := false }
  if n.d.inDeg = 0 then { s with gs := { s.gs with armed := insertNat k s.gs.armed } } else s

/-- What R51 makes of a read of both copies. -/
inductive CopyCheck where
  | good (v : Nat) (fixed : Bool)
  | disagree
  | lost
  deriving DecidableEq, Repr

def Node.check (n : Node) : CopyCheck :=
  match n.pri.ok, n.shd.ok with
  | true, true => if n.pri.v = n.shd.v then .good n.pri.v.toNat false else .disagree
  | false, true => .good n.shd.v.toNat true
  | true, false => .good n.pri.v.toNat true
  | false, false => .lost

/-- The check of R51 on one node, and of its slot's words (R360): a bad copy is rewritten and counted; copies that
disagree, or are both bad, quarantine the node. Answers whether the update proceeds, with the counter. -/
def State.checkNode (s : State) (k : Nat) : State × Option Nat :=
  let s := if k ∈ s.gs.nodeFix then
      ({ s with gs := { s.gs with nodeFix := s.gs.nodeFix.filter (· ≠ k) } }).bump ⟨.gsCorrected, 0, 0⟩ 1 else s
  if k ∈ s.gs.nodeBad then
    let s := { s with gs := { s.gs with nodeBad := s.gs.nodeBad.filter (· ≠ k) } }
    if (s.node k).st = .free then (s.bump ⟨.gsCorrected, 0, 0⟩ 1, none)
    else (s.quarantine k { cause := 0x93, level := 3, detail := nkIdx k } (sourceUnit 1), none)
  else
    let n := s.node k
    match n.check with
    | .good v false => (s, some v)
    | .good v true => ((s.updNode k fun n => n.setCount v).bump ⟨.gsCorrected, 0, 0⟩ 1, some v)
    | .disagree =>
      (s.quarantine k { status := stCOPY_DISAGREE, level := 3, detail := n.pri.v.toNat + n.shd.v.toNat * 2 ^ 16 }
        (sourceUnit 1), none)
    | .lost => (s.quarantine k { cause := 0x0F, level := 3 } (sourceUnit 1), none)

/-- An underflow of `excess` decrements at node `k` (R49, R50). -/
def State.underflow (s : State) (k excess : Nat) : State :=
  let code := (s.node k).st.code
  let s := s.orReg ⟨.ctxStatus, nkCtx k, 0⟩ 1
  s.report { typ := 0x11, status := stGRAPH_UNDERFLOW, source := sourceUnit 1, ctx := some (nkCtx k),
             body := [s.nodeArg k + code * 2 ^ 28, excess] }

/-- All of one hub cycle's updates of node `k`: `i` increments, then `d` decrements (R49 to R53). -/
def State.applyUpdates (s : State) (k i d : Nat) : State :=
  let s := s.bump (gcnt 1) (i + d)
  match (s.node k).st with
  | .folded | .failed | .quarantined => s.bump (ctxCnt (nkCtx k) 6) d
  | .waiting =>
    let r := s.checkNode k
    match r.2 with
    | none => r.1
    | some p =>
      let s := r.1
      let v := p + i - d
      let s := s.updNode k fun n => n.setCount v
      let s := if p + i < d then s.underflow k (d - (p + i)) else s
      if v = 0 ∧ ¬ (s.node k).dealt then s.makeReady k else s
  | .ready | .parked | .active | .done =>
    let r := s.checkNode k
    match r.2 with
    | none => r.1
    | some _ => if d = 0 then r.1 else r.1.underflow k d
  | _ => if d = 0 then s else s.underflow k d

/-- Decrements on their way to the Resolver. -/
def State.decTo (s : State) (ks : List Nat) : State :=
  { s with gs := { s.gs with resIn := s.gs.resIn ++ ks.map fun k => { inc := false, node := k, n := 1 } } }

/-! ### Outgoing edges -/

/-- The edge slots of a node: keys of EDGE_BASE to EDGE_BASE + SUCC_COUNT - 1. -/
def State.edgeSlots (s : State) (k : Nat) : List Nat :=
  let d := (s.node k).d
  (List.range d.succ.toNat).map fun j => ek (nkCtx k) (d.edgeBase.toNat + j)

/-- The targets of a node's edges of one kind, in edge order. -/
def State.targets (s : State) (k kind : Nat) : List Nat :=
  (s.edgeSlots k).filterMap fun j =>
    let w := s.edge j
    if edgeKind w = kind then some (nk (nkCtx k) (edgeTarget w)) else none

/-- Read a node's edge words: a corrected word is counted, an uncorrectable one quarantines the source and faults its
context (R360). Answers whether the edges may be applied. -/
def State.readEdges (s : State) (k : Nat) : State × Bool :=
  let js := s.edgeSlots k
  let fixed := js.filter (· ∈ s.gs.edgeFix)
  let s := ({ s with gs := { s.gs with edgeFix := s.gs.edgeFix.filter fun j => !(decide (j ∈ fixed)) } }).bump
    ⟨.gsCorrected, 0, 0⟩ fixed.length
  match js.find? (· ∈ s.gs.edgeBad) with
  | none => (s, true)
  | some j =>
    (s.quarantine k { cause := 0x93, level := 3, detail := j % 2 ^ 22 + 2 ^ 31 } (sourceUnit 1), false)

/-- The START edges of a node are applied, once for its activation (R44, R47). -/
def State.applyStart (s : State) (k : Nat) : State :=
  if (s.node k).started then s else
  let r := (s.updNode k fun n => { n with started := true }).readEdges k
  if r.2 then r.1.decTo (r.1.targets k 1) else r.1

/-- An IN_BODY node lies in the body of a loop that still iterates. -/
def State.inIteration (s : State) (k : Nat) : Bool :=
  (s.ctxNodes (nkCtx k)).any fun y =>
    let n := s.node y
    decide (n.d.kind = .loop) && decide (n.st = .active) && decide (n.d.bodyBase ≤ nkIdx k) &&
    decide (nkIdx k < n.d.bodyBase + n.d.bodyCount)

/-- A node that is DONE and whose last edge is applied returns its slot, unless it is IN_BODY or an undecided gate (R47,
R66). A body node whose loop has been ended meanwhile becomes FOLDED (R47, R64). -/
def State.releaseSlot (s : State) (k : Nat) : State :=
  let n := s.node k
  if n.st = .done ∧ n.left = [] then
    if ¬ n.d.inBody then s.setNode k {}
    else if s.inIteration k then s
    else s.updNode k fun n => { n with st := .folded }
  else s

/-! ### Gates (R66, R279, R282) -/

/-- Ticks since a gate's release (R280). -/
def State.gateAge (s : State) (k : Nat) : Nat := s.now - ((s.node k).release.getD (0, (s.node k).readyAt)).2

/-- A settled gate is disarmed; if late, DEADLINE_MISS (R282). -/
def State.settleGate (s : State) (k : Nat) : State :=
  let n := s.node k
  let age := s.gateAge k
  let s := if ¬ n.unmon ∧ n.d.deadline < age then
      (s.report { typ := 0x66, source := sourceUnit 5, ctx := some (nkCtx k), body := [s.nodeArg k, age] }).bump ⟨.tbMisses, 0, 0⟩ 1
    else s
  (s.updNode k fun n => { n with left := [] }).releaseSlot k

/-- Nodes of a range of context `c` that are not FREE. -/
def State.rangeNodes (s : State) (c base count : Nat) : List Nat :=
  (s.ctxNodes c).filter fun x => decide (base ≤ nkIdx x) && decide (nkIdx x < base + count)

/-- Fold a range for a gate: each folded node's edges out of the range are applied as decrements, but START edges that its
activation has applied already (R66). A kitty node whose undrawn panels the fold drops is FOLDED once its panels have ended (R99). -/
def State.foldRange (s : State) (c base count : Nat) : State :=
  s.each (s.rangeNodes c base count) fun s k =>
    match (s.node k).st with
    | .waiting | .ready | .parked | .dormant =>
      let outs := (s.targets k 0 ++ (if (s.node k).started then [] else s.targets k 1)).filter fun x =>
        !(decide (base ≤ nkIdx x) && decide (nkIdx x < base + count))
      let s := s.foldNode k
      if (s.node k).st = .folded ∨ (s.node k).spoiled then (s.updNode k fun n => { n with started := true }).decTo outs else s
    | _ => s

/-- The primary range has won: the fallback range is folded and the gate's FALLBACK edges are discarded (R66). -/
def State.primaryWins (s : State) (k : Nat) : State :=
  let n := s.node k
  let s := s.updNode k fun n => { n with gst := .primaryWon, left := [] }
  let s := s.foldRange (nkCtx k) n.d.fallBase n.d.fallCount
  let s := s.traceUnit 2 { typ := 0x0A, source := 13, ctx := some (nkCtx k), node := nkIdx k, arg := 0, tag := s.gateAge k }
  s.settleGate k

/-- The fallback is taken: primary nodes not yet ACTIVE are folded, and the FALLBACK edges are applied (R66, R281). -/
def State.fallbackTaken (s : State) (k : Nat) : State :=
  let n := s.node k
  let c := nkCtx k
  let s := s.foldRange c n.d.primBase n.d.primCount
  let s := s.updNode k fun n => { n with gst := .fallbackTaken, left := (s.rangeNodes c n.d.fallBase n.d.fallCount) }
  let s := s.traceUnit 2 { typ := 0x0A, source := 13, ctx := some c, node := nkIdx k, arg := 1, tag := s.gateAge k }
  let s := s.decTo (s.targets k 2)
  if (s.node k).left = [] then s.settleGate k else s

/-- A node became DONE: gates that count it learn of it (R66, R282). -/
def State.tellGates (s : State) (k : Nat) : State :=
  let gs := (s.gs.nodes.filter fun x => decide (nkCtx x.1 = nkCtx k) && decide (k ∈ x.2.left)).map Prod.fst
  s.each gs fun s g =>
    let s := s.updNode g fun n => { n with left := n.left.filter (· ≠ k) }
    if (s.node g).left = [] then
      match (s.node g).gst with
      | .armed => s.primaryWins g
      | .fallbackTaken => s.settleGate g
      | _ => s
    else s

/-- TAIL of the nodes of a range, in descending index order (R279): the tails found so far are of higher nodes. -/
def State.tailsOf (s : State) (c base : Nat) : Nat → List (Nat × Nat) → List (Nat × Nat)
  | 0, acc => acc
  | m + 1, acc =>
    let k := nk c (base + m)
    let best := ((s.targets k 0).filterMap fun t => (acc.find? fun e => decide (e.1 = t)).map Prod.snd).foldl max 0
    s.tailsOf c base m ((k, (s.node k).d.expect.toNat + best) :: acc)

/-- Gates that the monitor holds armed. -/
def State.armedGates (s : State) : List Nat :=
  (s.gs.nodes.filter fun x => decide (x.2.left ≠ []) && !x.2.unmon).map Prod.fst

/-- A completing gate arms the deadline monitor for its primary range (R279). -/
def State.armGate (s : State) (k : Nat) : State :=
  let c := nkCtx k
  let full := decide (4096 ≤ s.armedGates.length)
  let s := s.updNode k fun n =>
    { n with gst := .armed, left := (s.rangeNodes c n.d.primBase n.d.primCount).filter fun x => decide ((s.node x).st ≠ .done), unmon := full, evaluatedAt := s.now,
             tails := s.tailsOf c n.d.primBase n.d.primCount [], predicted := false }
  let s := if full then
      (s.report { typ := 0x63, source := sourceUnit 5, ctx := some c, body := [s.nodeArg k] }).bump ⟨.tbGateFull, 0, 0⟩ 1 else s
  if (s.node k).left = [] then s.primaryWins k else s

/-! ### Completion (R32, R47) -/

/-- Nodes instantiated by node `k` and still held, with their states. -/
def State.childrenOf (s : State) (k : Nat) : List Node :=
  (s.gs.nodes.filter fun x => decide (x.2.parent = some k) && decide (x.2.st ≠ .free)).map Prod.snd

/-- An ACTIVE node completes: it is DONE, its DONE edges go to the Resolver, and the last of them frees its slot. -/
def State.completeCore (s : State) (k : Nat) : State :=
  let n := s.node k
  let s := s.updNode k fun n => { n with st := .done }
  let s := if n.d.notify then
      s.report { typ := 0x10, source := sourceUnit 0, ctx := some (nkCtx k), body := [s.nodeArg k, n.tag] } else s
  let r := s.readEdges k
  if ¬ r.2 then r.1 else
  let s := r.1
  let ts := s.targets k 0
  let s := s.decTo ts.dropLast
  let s := match ts.getLast? with
    | none => s
    | some t => { s with gs := { s.gs with resIn := s.gs.resIn ++ [Update.mk false t 1 (some k)] } }
  let s := if n.d.kind = .gate then s.armGate k else s
  let s := s.tellGates k
  if ts = [] then s.releaseSlot k else s

/-- A node completes; a SPROUT whose every sprouted node is DONE completes with it (R69). -/
def State.complete (s : State) (k : Nat) : State :=
  let p := (s.node k).parent
  let s := s.completeCore k
  match p with
  | none => s
  | some p =>
    if (s.node p).d.kind = .sprout ∧ (s.node p).st = .active ∧ (s.childrenOf p).all (fun c => decide (c.st = .done)) then
      s.completeCore p
    else s

/-! ### Dynamic blocks (R38, R57, R60, R61) -/

/-- Windows of context `c` in slots: size and pool (R36 to R38). -/
def State.nodeWin (s : State) (c : Nat) : Nat := s.fld ⟨.ctxNodes, c, 0⟩ 16 11 * 1024
def State.edgeWin (s : State) (c : Nat) : Nat := s.fld ⟨.ctxEdges, c, 0⟩ 16 11 * 4096
def State.nodesValid (s : State) (c : Nat) : Bool := bit (s.reg ⟨.ctxNodes, c, 0⟩) 31
def State.edgesValid (s : State) (c : Nat) : Bool := bit (s.reg ⟨.ctxEdges, c, 0⟩) 31
/-- The first slot of the dynamic pool of each window. -/
def State.nodePool (s : State) (c : Nat) : Nat := s.nodeWin c - s.fld ⟨.ctxDyn, c, 0⟩ 0 11 * 1024
def State.edgePool (s : State) (c : Nat) : Nat := s.edgeWin c - s.fld ⟨.ctxDyn, c, 0⟩ 16 11 * 4096

/-- The node that holds blocks has finished with them: a SPROUT once it is FREE (R67), a FANOUT or ANCHOR once it has left
ACTIVE and every node it made is FREE (R57, R61; DEDUCED, log entry 22). -/
def State.ownerDone (s : State) (c i : Nat) : Bool :=
  let n := s.node (nk c i)
  decide (n.st = .free) ||
  (decide (n.d.kind ≠ .sprout) && decide (n.st ≠ .active) && decide (s.childrenOf (nk c i) = []))

def State.freeBlocks (s : State) (c : Nat) (p : DynOwner → Bool) : State :=
  s.updCtx c fun x => { x with dynN := x.dynN.filter fun b => !p b.2, dynE := x.dynE.filter fun b => !p b.2 }

/-- Blocks whose owning node has finished with them go back to the pool. -/
def State.returnBlocks (s : State) (c : Nat) : State :=
  s.freeBlocks c fun o => match o with
    | .node i => s.ownerDone c i
    | _ => false

/-- Contexts that hold dynamic blocks. -/
def State.dynCtxs (s : State) : List Nat :=
  (s.gs.ctxs.filter fun x => decide (x.2.dynN ≠ []) || decide (x.2.dynE ≠ [])).map Prod.fst

/-! ### One hub cycle of the Resolver (R29, R52) -/

/-- The entries that 16 lanes take: increments first, then decrements, in arrival order. -/
def takeLanes (q : List Update) : List Update := ((q.filter Update.inc) ++ (q.filter fun u => !u.inc)).take 16

/-- What is left in the queue: the increments beyond 16, then the decrements that found no lane. -/
def leaveLanes (q : List Update) : List Update :=
  let inc := q.filter Update.inc
  inc.drop 16 ++ (q.filter fun u => !u.inc).drop (16 - inc.length)

/-- JOIN and GATE nodes made READY in an earlier cycle complete first (R35). -/
def State.hubComplete (s : State) : State :=
  let ks := s.gs.hubReady
  let s := { s with gs := { s.gs with hubReady := [] } }
  s.each ks fun s k =>
    if (s.node k).st = .ready then (s.updNode k fun n => { n with st := .active }).complete k else s

def State.resolverWork (s : State) : State :=
  let s := s.hubComplete
  let taken := takeLanes s.gs.resIn
  let lanes := 16 - taken.length
  let ready := s.gs.armed.take lanes
  let s := { s with gs := { s.gs with resIn := leaveLanes s.gs.resIn, armed := s.gs.armed.drop lanes } }
  let ks := taken.foldl (fun a u => insertNat u.node a) []
  let s := s.each ks fun s k =>
    let us := taken.filter fun u => decide (u.node = k)
    s.applyUpdates k (((us.filter Update.inc).map Update.n).sum) (((us.filter fun u => !u.inc).map Update.n).sum)
  let s := s.each (taken.filterMap Update.src) State.releaseSlot
  let s := s.each ready fun s k =>
    let r := s.checkNode k
    match r.2 with
    | none => r.1
    | some _ => if (s.node k).st = .waiting ∧ ¬ (s.node k).dealt then r.1.makeReady k else r.1
  s.each (s.dynCtxs.filter fun c => !s.away c) State.returnBlocks

/-- One hub cycle of the Resolver, its trace records in order. -/
def State.resolverCycle (s : State) : State := s.resolverWork.orderRecs s

def iter {α : Type} (f : α → α) : Nat → α → α
  | 0, x => x
  | n + 1, x => iter f n (f x)

/-- The Resolver works for as many hub cycles as the entries now in its queue and the nodes now armed need, 16 a cycle. -/
def State.settle (s : State) : State :=
  iter State.resolverCycle (ceilDiv (s.gs.resIn.length + s.gs.armed.length) 16) s

end Sys2Proof.Machine
end

