-- ==== Sys2Proof/Machine/Apply.lean ====
section
/-! DEFINITION. Applying descriptors to the Graph Store: the checks of R58 in the order of R468, the writes of R54, and the
instantiation of templates (R60, R61, R67). -/
namespace Sys2Proof.Machine

/-! ### Tile sets and eligible engines (R71, R73, R81, R250, R251) -/

/-- The sixteen words of tile-set entry `i` of pod `p`. -/
def State.tset (s : State) (p i : Nat) : List (BitVec 32) := tget [] (s.pod p).tset i
def wordAt (ws : List (BitVec 32)) (j : Nat) : BitVec 32 := ws.getD j 0
def tsetTile (ws : List (BitVec 32)) (t : Nat) : Bool := bit (wordAt ws (t / 32)) (t % 32)
def tsetLe (ws : List (BitVec 32)) : BitVec 32 := wordAt ws 12
def tsetValid (ws : List (BitVec 32)) : Bool := bit (wordAt ws 13) 0
def tsetHasTile (ws : List (BitVec 32)) : Bool := (List.range 12).any fun j => decide (wordAt ws j ≠ 0)

/-- Pod `p` owns tile `t` now (R250). -/
def State.ownsTile (s : State) (p t : Nat) : Bool :=
  let v := s.reg ⟨.tileOwner, t, 0⟩
  bit v 4 && decide (bits v 0 4 = p)

/-- A unit counts as benched by its own bit, its tile's or its region's (R349). -/
def State.benched (s : State) (e : Nat) : Bool :=
  if isLE e then bit (s.reg ⟨.benchLe, 0, 0⟩) (e - 8192)
  else
    bit (s.reg ⟨.benchRegions, 0, 0⟩) (engRegion e) || bit (s.reg ⟨.benchCells, engTileIdx e, 0⟩) 15 ||
    bit (s.reg ⟨.benchCells, engTileIdx e, 0⟩) (engCell e)

/-- Tiles of pod `p` in service in region `r` (R283). -/
def State.tilesIn (s : State) (p r : Nat) : Nat :=
  if bit (s.reg ⟨.benchRegions, 0, 0⟩) r then 0
  else ((List.range 48).filter fun t => s.ownsTile p (48 * r + t) && !bit (s.reg ⟨.benchCells, 48 * r + t, 0⟩) 15).length

/-- RATE and BURST of the memory and the link regulator. -/
def State.memRate (s : State) (p : Nat) : Nat := s.fld ⟨.podRegMem, p, 0⟩ 0 20
def State.memBurst (s : State) (p : Nat) : Nat := s.fld ⟨.podRegMem, p, 0⟩ 32 24
def State.linkRate (s : State) (p : Nat) : Nat := s.fld ⟨.podRegLink, p, 0⟩ 0 20
def State.linkBurst (s : State) (p : Nat) : Nat := s.fld ⟨.podRegLink, p, 0⟩ 32 24

/-- Cells of one tile that belong to an entry of pod `p` and class `cls` and are in service, ascending. -/
def State.tileEngines (s : State) (p cls : Nat) (ws : List (BitVec 32)) (ti : Nat) : List Nat :=
  if tsetTile ws ti && s.ownsTile p ti then
    ((classCells cls).map fun b => cellId (ti / 48) (ti % 48) b).filter fun e => !s.benched e
  else []

/-- Eligible engines of a class and tile-set entry, in ascending engine ID (R73).
DEDUCED (log entry 88): an entry whose VALID is 0 gives no eligible engine; R73 does not name VALID. -/
def State.eligible (s : State) (p ts cls : Nat) : List Nat :=
  let ws := s.tset p ts
  if ¬ tsetValid ws then []
  else if cls = 3 then
    ((List.range 32).filter fun k => bit (tsetLe ws) k && !s.benched (leId k)).map leId
  else (List.range 384).flatMap (s.tileEngines p cls ws)

/-- Eligible engines of a node. -/
def State.eligibleOf (s : State) (k : Nat) : List Nat :=
  s.eligible (s.nodePod k) (s.node k).d.tileset (s.node k).d.cls

/-! ### Free runs of dynamic blocks (R38, R60) -/

/-- The lowest run of `need` consecutive free blocks of `total`; `used` is ascending. -/
def findRun (used : List Nat) (total need : Nat) : Option Nat :=
  (0 :: used.map (· + 1)).find? fun b =>
    decide (b + need ≤ total) && !(used.any fun u => decide (b ≤ u) && decide (u < b + need))

/-- The `need` lowest free blocks. -/
def lowestFree (used : List Nat) (total need : Nat) : Option (List Nat) :=
  let l := ((List.range total).filter fun b => !(decide (b ∈ used))).take need
  if l.length = need then some l else none

def State.nodeBlocks (s : State) (c : Nat) : Nat := s.fld ⟨.ctxDyn, c, 0⟩ 0 11 * 16
def State.edgeBlocks (s : State) (c : Nat) : Nat := s.fld ⟨.ctxDyn, c, 0⟩ 16 11 * 16

/-- Take `n` consecutive node blocks from block `b` for an owner. -/
def State.takeNodes (s : State) (c b n : Nat) (o : DynOwner) : State :=
  s.updCtx c fun x => { x with dynN := (List.range n).foldl (fun t j => tinsert t (b + j) o) x.dynN }
def State.takeEdges (s : State) (c b n : Nat) (o : DynOwner) : State :=
  s.updCtx c fun x => { x with dynE := (List.range n).foldl (fun t j => tinsert t (b + j) o) x.dynE }

/-- A reservation of one contiguous run of node slots and one of edge slots; answers their first slots (R60, R67). -/
def State.reserve (s : State) (c nNodes nEdges : Nat) (o : DynOwner) : Option (State × Nat × Nat) :=
  let x := s.ctx c
  match findRun (tkeys x.dynN) (s.nodeBlocks c) (ceilDiv nNodes 64), findRun (tkeys x.dynE) (s.edgeBlocks c) (ceilDiv nEdges 256) with
  | some bn, some be =>
    some ((s.takeNodes c bn (ceilDiv nNodes 64) o).takeEdges c be (ceilDiv nEdges 256) o,
          s.nodePool c + 64 * bn, s.edgePool c + 256 * be)
  | _, _ => none

/-! ### The checks of one node (R35, R41 to R43, R58, R62, R65, R67, R73) -/

/-- Some reserved bit of a node descriptor is set. -/
def descRsvd (bs : List Byte) (d : Desc) : Bool :=
  let w0 := d.w0
  let b := d.b
  let t := d.t
  decide (bits d.flags 0 3 ≠ 0) || decide (leAt bs 4 4 / 2 ^ 22 ≠ 0) ||
  match d.kind with
  | .task => decide (bits w0 2 2 ≠ 0)
  | .join => decide (w0 ≠ 0) || decide (b ≠ 0)
  | .signal | .wait => decide (bits w0 28 2 ≠ 0) || decide (bits b 48 16 ≠ 0)
  | .loop => decide (bits w0 20 12 ≠ 0) || decide (bits b 20 12 ≠ 0)
  | .gate => decide (bits w0 20 12 ≠ 0) || decide (bits b 20 12 ≠ 0) || decide (bits t 48 16 ≠ 0)
  | .fanout => decide (bits w0 20 12 ≠ 0) || decide (bits t 16 16 ≠ 0)
  | .remote => decide (bits w0 13 3 ≠ 0) || decide (bits w0 25 7 ≠ 0) || decide (bits b 20 12 ≠ 0) || decide (bits b 48 16 ≠ 0)
  | .sprout => decide (bits w0 2 2 ≠ 0) || decide (bits w0 16 16 ≠ 0) || decide (bits t 32 32 ≠ 0)
  | .anchor => decide (bits w0 4 28 ≠ 0) || decide (bits b 20 12 ≠ 0) || decide (bits b 48 16 ≠ 0)

/-- BAD_CLASS (R43, R73). -/
def State.badClass (s : State) (c : Nat) (d : Desc) : Bool :=
  match d.kind with
  | .task | .sprout =>
    let ws := s.tset (s.podOf c) d.tileset
    (decide (d.kind = .task) && decide (bits d.w0 16 16 ≠ 0) && decide (d.cls ≠ 0)) || decide (256 ≤ d.tileset) || !tsetValid ws ||
    (if d.cls = 3 then decide (tsetLe ws = 0) else !tsetHasTile ws)
  | _ => false

/-- BAD_ALIGN (R43). -/
def Desc.badAlign (d : Desc) : Bool :=
  match d.kind with
  | .task | .sprout => decide (bits d.b 0 8 ≠ 0)
  | .anchor => decide (bits d.t 0 8 ≠ 0)
  | .loop => decide (bits d.t 0 2 ≠ 0)
  | .fanout => decide (bits d.b 0 6 ≠ 0)
  | _ => false

/-- BAD_FIELD (R43). -/
def Desc.badField (d : Desc) : Bool :=
  match d.kind with
  | .signal => decide (3 < d.op) || (if d.op = 2 then decide (d.amount = 0) else decide (d.amount ≠ 0))
  | .wait => decide (3 < d.op) || (decide (d.op ≠ 2) && decide (d.amount ≠ 0))
  | .fanout => decide (d.topk = 0) || decide (8 < d.topk)
  | .remote => decide (d.count = 0)
  | .sprout => decide (d.resNodes = 0) || decide (d.resEdges = 0)
  | _ => false

/-- LOOP nodes of context `c` whose body holds node index `i`. -/
def State.loopsOver (s : State) (c i : Nat) : List Nat :=
  (s.ctxNodes c).filter fun y =>
    let d := (s.node y).d
    decide (d.kind = .loop) && decide (d.bodyBase ≤ i) && decide (i < d.bodyBase + d.bodyCount)

def inRange (base count i : Nat) : Bool := decide (base ≤ i) && decide (i < base + count)

/-- Targets of every edge of a node, whatever their kind. -/
def State.allTargets (s : State) (k : Nat) : List Nat := (s.edgeSlots k).map fun j => edgeTarget (s.edge j)

/-- The rules of a LOOP's body (R62), against the Graph Store as it stands after the descriptor. -/
def State.badBody (s : State) (c : Nat) (i : Nat) (d : Desc) : Bool :=
  let base := d.bodyBase
  let count := d.bodyCount
  let body := s.rangeNodes c base count
  decide (count = 0) || decide (s.nodeWin c < base + count) || inRange base count i || decide (body.length ≠ count) ||
  !(body.all fun y => (s.node y).d.inBody) ||
  !(body.all fun y => (s.allTargets y).all (inRange base count)) ||
  !((s.ctxNodes c).all fun y => inRange base count (nkIdx y) || !((s.allTargets y).any (inRange base count))) ||
  !(body.all fun y => decide ((s.node y).d.kind ≠ .loop) ||
      (decide (base ≤ (s.node y).d.bodyBase) && decide ((s.node y).d.bodyBase + (s.node y).d.bodyCount ≤ base + count) &&
       decide ((s.node y).d.bodyCount < count)))

/-- BAD_RANGE (R43, R58, R62, R65, R111). A FANOUT whose TEMPLATE index lies outside the window names no template node, which is
BAD_RANGE by R111; OUT_OF_WINDOW, which R58 gives a node index outside the window, is not judged of it (DEDUCED, log entry 78). -/
def State.badRange (s : State) (c i : Nat) (d : Desc) : Bool :=
  let win := s.nodeWin c
  match d.kind with
  | .loop => s.badBody c i d
  | .gate =>
    let pb := d.primBase
    let pc := d.primCount
    let fb := d.fallBase
    let fc := d.fallCount
    decide (pc = 0) || decide (fc = 0) || decide (win < pb + pc) || decide (win < fb + fc) ||
    (decide (pb < fb + fc) && decide (fb < pb + pc)) || inRange pb pc i || inRange fb fc i ||
    !((s.targets (nk c i) 0).all fun y => inRange pb pc (nkIdx y)) ||
    !((s.targets (nk c i) 2).all fun y => inRange fb fc (nkIdx y))
  | .fanout =>
    let y := s.node (nk c d.fanTemplate)
    !(decide (y.st = .template) && decide (y.d.kind = .task) && decide (y.d.succ = 0))
  | .anchor => decide (d.tplCount = 0) || decide (win < d.tplBase + d.tplCount)
  | _ => false

/-- Loops nested more than four deep (R62). -/
def State.tooDeep (s : State) (c i : Nat) (d : Desc) : Bool :=
  decide (d.kind = .loop) &&
  (i :: ((s.rangeNodes c d.bodyBase d.bodyCount).filter fun y => decide ((s.node y).d.kind = .loop)).map nkIdx).any fun y =>
    decide (4 < 1 + (s.loopsOver c y).length)

/-- The first condition one node meets, in ascending cause code (R468 step 2). `r` says whether its reservation fails. -/
def State.nodeCause (s : State) (c i : Nat) (bs : List Byte) (r : Bool) : Option Nat :=
  match Desc.decode bs with
  | none => some 0x01
  | some d =>
    if d.kind = .anchor ∧ d.template then some 0x01
    else if s.edgeWin c < leAt bs 4 4 % 2 ^ 22 + d.succ.toNat ∧ d.succ ≠ 0 then some 0x02
    else if s.badClass c d then some 0x06
    else if d.badAlign then some 0x07
    else if d.badField then some 0x08
    else if s.badRange c i d then some 0x09
    else if descRsvd bs d then some 0x0A
    else if r then some 0x0C
    else if s.tooDeep c i d then some 0x10
    else none

/-! ### A descriptor on the Graph Store (R54 to R58) -/

/-- What a LAUNCH_GRAPH, an APPEND_NODES or a sprout buffer brings. -/
structure GraphDesc where
  ctx : Nat
  first : Nat
  nodes : List (List Byte)
  efirst : Nat
  edges : List (BitVec 32)
  cmd : Option (Nat × Nat)
  indirect : Bool := false
  /-- The context bound to the slot of the descriptor. -/
  ptrCtx : Nat := 0
  /-- The SPROUT node that a sprout buffer belongs to. -/
  sprout : Option Nat := none

/-- A refusal: cause, index, and whether the index is an edge index. -/
structure GsRefusal where
  cause : Nat
  index : Nat
  edge : Bool := false
  deriving DecidableEq, Repr

def GsRefusal.detail (r : GsRefusal) : Nat := r.index + if r.edge then 2 ^ 31 else 0

/-- Cut a byte string into pieces of `n` bytes. -/
def chunks (n : Nat) : Nat → List Byte → List (List Byte)
  | 0, _ => []
  | m + 1, bs => bs.take n :: chunks n m (bs.drop n)

/-- Slots whose words are written whole hold no faulty word any more (R360). -/
def State.rewritten (s : State) (nodes edges : Nat → Bool) : State :=
  { s with gs := { s.gs with
    nodeBad := s.gs.nodeBad.filter fun k => !nodes k, nodeFix := s.gs.nodeFix.filter fun k => !nodes k
    edgeBad := s.gs.edgeBad.filter fun j => !edges j, edgeFix := s.gs.edgeFix.filter fun j => !edges j } }

/-- Write the nodes and edges of a descriptor (R47, R54 step 3). Nodes whose KIND is not of R35 are left out: such a
descriptor is refused. -/
def State.writeGraph (s : State) (g : GraphDesc) : State :=
  let s := s.rewritten (fun k => inRange g.first g.nodes.length (nkIdx k) && decide (nkCtx k = g.ctx))
    (fun j => decide (ek g.ctx g.efirst ≤ j) && decide (j < ek g.ctx (g.efirst + g.edges.length)))
  let s := s.each (List.range g.edges.length) fun s j => s.setEdge (ek g.ctx (g.efirst + j)) (g.edges.getD j 0)
  s.each (List.range g.nodes.length) fun s j =>
    match Desc.decode (g.nodes.getD j []) with
    | none => s
    | some d =>
      let k := nk g.ctx (g.first + j)
      let base : Node := { d := d, cmd := g.cmd, indirect := g.indirect, ptrCtx := g.ptrCtx, parent := g.sprout,
                           call := g.sprout.bind fun p => (s.node p).call }
      let epoch := (g.sprout.map fun p => (s.node p).epoch).getD 0
      if d.template then s.setNode k { base with st := .template, cmd := none }
      else if d.inBody then s.setNode k { base with st := .dormant, epoch := epoch }
      else (s.setNode k { base with epoch := epoch }).updNode k fun n => { n.setCount d.inDeg.toNat with st := .waiting }

/-- Sources of an edge slot among the nodes a descriptor writes. -/
def State.sourcesOf (s : State) (g : GraphDesc) (j : Nat) : List Nat :=
  ((List.range g.nodes.length).map fun x => nk g.ctx (g.first + x)).filter fun k => decide (ek g.ctx j ∈ s.edgeSlots k)

/-- Edges that increment a target the descriptor does not write: their targets, in ascending edge index. R56 speaks of the
edges of a descriptor's nodes, so those of TEMPLATE nodes are among them (DEDUCED, log entry 78). -/
def State.outsideTargets (s : State) (g : GraphDesc) (j : Nat) : List Nat :=
  let t := edgeTarget (s.edge (ek g.ctx j))
  if inRange g.first g.nodes.length t then []
  else (s.sourcesOf g j).map fun _ => nk g.ctx t

/-- The first condition the edge words meet, in ascending edge index; `seen` are the increments so far (R468 step 3). `s` is
the Graph Store after the descriptor, `old` before it. R44 and R58 refuse a reserved bit of an edge word with RSVD_NONZERO, which
step 3 of R468 does not place; it is judged after BAD_EDGE (DEDUCED, log entry 78). -/
def State.edgeCause (s old : State) (g : GraphDesc) : List Nat → List Nat → Option GsRefusal
  | [], _ => none
  | j :: js, seen =>
    let w := s.edge (ek g.ctx j)
    let src := s.sourcesOf g j
    let bad (c : Nat) : Option GsRefusal := some ⟨c, j, true⟩
    if edgeKind w = 3 ∨ s.nodeWin g.ctx ≤ edgeTarget w ∨
        (edgeKind w = 1 ∧ src.any fun k => decide ((s.node k).d.kind ≠ .task)) ∨
        (edgeKind w = 2 ∧ src.any fun k => decide ((s.node k).d.kind ≠ .gate)) then bad 0x04
    else if edgeRsvd w ≠ 0 then bad 0x0A
    else
      let ts := s.outsideTargets g j
      if ts.any fun t => decide ((old.node t).st ≠ .waiting) then bad 0x0B
      else if ts.any fun t => decide (65535 < (old.node t).pri.v.toNat + (seen ++ ts).countP (· = t)) then bad 0x05
      else s.edgeCause old g js (seen ++ ts)

/-- Reservations of the SPROUT nodes of a descriptor, in ascending node index (R67): the state with them made, or the
first node whose reservation the pool cannot hold. -/
def State.reserveSprouts (s : State) (c : Nat) : List Nat → Except Nat State
  | [] => .ok s
  | k :: ks =>
    let d := (s.node k).d
    if d.kind = .sprout ∧ ¬ d.template then
      match s.reserve c d.resNodes d.resEdges (.node (nkIdx k)) with
      | none => .error (nkIdx k)
      | some (s', n, e) => (s'.updNode k fun x => { x with res := some (n, e) }).reserveSprouts c ks
    else s.reserveSprouts c ks

/-- The first condition a descriptor's nodes meet, in ascending node index. -/
def State.nodesCause (s : State) (g : GraphDesc) (full : Option Nat) : Nat → List (List Byte) → Option GsRefusal
  | _, [] => none
  | i, bs :: t =>
    match s.nodeCause g.ctx i bs (decide (full = some i)) with
    | some c => some ⟨c, i, false⟩
    | none => s.nodesCause g full (i + 1) t

/-- Judge a descriptor whole and write it whole, or answer its refusal (R54, R58, R468). Zero-degree nodes are armed, and
increments of existing targets go to the Resolver. The range concerned in OUT_OF_WINDOW is the node range where the node window is
not valid or the node range is out, else the edge range; a range of count 0 is placed like any other, so its FIRST is judged
(DEDUCED, log entry 78). -/
def State.applyGraph (s : State) (g : GraphDesc) : Except GsRefusal State :=
  let n := g.nodes.length
  let m := g.edges.length
  let pool := if g.sprout.isSome then s.nodeWin g.ctx else s.nodePool g.ctx
  let epool := if g.sprout.isSome then s.edgeWin g.ctx else s.edgePool g.ctx
  if ¬ s.nodesValid g.ctx ∨ pool < g.first + n then .error ⟨0x02, g.first, false⟩
  else if ¬ s.edgesValid g.ctx ∨ epool < g.efirst + m then .error ⟨0x02, g.efirst, true⟩
  else
    match ((List.range n).map fun j => nk g.ctx (g.first + j)).find? fun k => decide ((s.node k).st ≠ .free) with
    | some k => .error ⟨0x03, nkIdx k, false⟩
    | none =>
      let w := s.writeGraph g
      let ks := (List.range n).map fun j => nk g.ctx (g.first + j)
      let res := w.reserveSprouts g.ctx ks
      let full := match res with | .error i => some i | .ok _ => none
      match w.nodesCause g full g.first g.nodes with
      | some r => .error r
      | none =>
        match res with
        | .error i => .error ⟨0x0C, i, false⟩
        | .ok w =>
          let js := (ks.flatMap fun k => (w.edgeSlots k).map fun j => j % 2 ^ 22) ++ (List.range m).map (g.efirst + ·)
          let js := js.foldl (fun a j => insertNat j a) []
          match w.edgeCause s g js [] with
          | some r => .error r
          | none =>
            let incs := js.flatMap (w.outsideTargets g)
            let zero := ks.filter fun k => decide ((w.node k).st = .waiting) && decide ((w.node k).d.inDeg = 0)
            .ok { w with gs := { w.gs with
              resIn := w.gs.resIn ++ incs.map fun t => { inc := true, node := t, n := 1 }
              armed := zero.foldl (fun a k => insertNat k a) w.gs.armed } }

/-! ### Instantiation (R60, R61, R67, R151) -/

/-- What becomes of an instantiation. -/
inductive InstResult where
  | ok (s : State)
  | noRoom
  | bad

/-- Whom an instance's nodes belong to. -/
structure InstFor where
  cmd : Option (Nat × Nat) := none
  parent : Option Nat := none
  call : Option Nat := none
  epoch : Nat := 0
  owner : DynOwner
  /-- The FANOUT facts of its nodes, if any. -/
  fan : Option FanInst := none

/-- Move an index that lies in the range. -/
def reloc (base count dst i : Nat) : Nat := if inRange base count i then dst + (i - base) else i

/-- Relocate the indices a node descriptor holds (R60): those of LOOP and GATE ranges and a FANOUT's TEMPLATE. -/
def Desc.relocate (d : Desc) (base count dst : Nat) (eoff : Int) : Desc :=
  let r := reloc base count dst
  let d := if d.succ = 0 then d else { d with edgeBase := BitVec.ofInt 22 (d.edgeBase.toNat + eoff) }
  let d := { d with flags := d.flags &&& 0xBF#8 }
  match d.kind with
  | .loop => { d with w0 := setBits d.w0 0 20 (r d.bodyBase) }
  | .gate => { d with w0 := setBits d.w0 0 20 (r d.primBase), b := setBits d.b 0 20 (r d.fallBase) }
  | .fanout => { d with w0 := setBits d.w0 0 20 (r d.fanTemplate) }
  | _ => d

/-- The indices outside the range that a template node and its edges name; `trick` says that an ANCHOR instantiates, and a
FANOUT's TEMPLATE is then judged apart (R60, R151). -/
def State.outsideRefs (s : State) (c base count : Nat) (trick : Bool) (k : Nat) : List Nat :=
  let d := (s.node k).d
  let own := match d.kind with
    | .loop => [d.bodyBase]
    | .gate => [d.primBase, d.fallBase]
    | .fanout => if trick then [] else [d.fanTemplate]
    | _ => []
  (own ++ s.allTargets k).filter fun i => !inRange base count i || decide (s.nodeWin c ≤ i)

/-- An index outside the range names a non-template node (R60): a FREE slot holds no node, so it names none (DEDUCED, log
entry 79). -/
def State.namesNode (s : State) (c i : Nat) : Bool :=
  decide (i < s.nodeWin c) && decide ((s.node (nk c i)).st ≠ .template) && decide ((s.node (nk c i)).st ≠ .free)

/-- The TEMPLATE of a FANOUT in a trick's range names a template node outside the range (R151). -/
def State.trickTemplateOk (s : State) (c base count k : Nat) : Bool :=
  let d := (s.node k).d
  decide (d.kind ≠ .fanout) ||
  (!inRange base count d.fanTemplate && decide (d.fanTemplate < s.nodeWin c) && decide ((s.node (nk c d.fanTemplate)).st = .template))

/-- The indices that a range's template nodes hold are as R60 and R151 ask. -/
def State.refsOk (s : State) (c base count : Nat) (trick : Bool) (ks : List Nat) : Bool :=
  (ks.flatMap (s.outsideRefs c base count trick)).all (s.namesNode c) && (!trick || ks.all (s.trickTemplateOk c base count))

/-- The instantiating node is an ANCHOR. -/
def State.byAnchor (s : State) (parent : Option Nat) : Bool :=
  match parent with
  | some p => decide ((s.node p).d.kind = .anchor)
  | none => false

/-- The edge slots the nodes of a range use: first and one past the last. A node with SUCC_COUNT 0 uses none, so its EDGE_BASE
bounds nothing and is copied as it stands (DEDUCED, log entry 79). -/
def State.edgeSpan (s : State) (ks : List Nat) : Nat × Nat :=
  let l := ks.filter fun k => decide ((s.node k).d.succ ≠ 0)
  match l.map fun k => (s.node k).d.edgeBase.toNat with
  | [] => (0, 0)
  | b :: bs =>
    (bs.foldl min b, (l.map fun k => (s.node k).d.edgeBase.toNat + (s.node k).d.succ.toNat).foldl max 0)

/-- Reserve for the SPROUT nodes of an instance (R67). -/
def State.reserveInst (s : State) (c : Nat) (ks : List Nat) : Option State :=
  match s.reserveSprouts c ks with
  | .ok s => some s
  | .error _ => none

/-- Instantiate a template range: nodes and edges are copied to the lowest runs of free blocks that hold them, relocated,
changed by `chg`, and armed (R60, R151). IN_BODY instances are written DORMANT, as R47 has it of every IN_BODY node, and WAITING
once their loop arms them (DEDUCED, log entry 79). -/
def State.instantiate (s : State) (c base count : Nat) (w : InstFor) (chg : Desc → Desc) : InstResult :=
  let ks := (List.range count).map fun j => nk c (base + j)
  if ¬ ks.all (fun k => decide ((s.node k).st = .template)) then .bad
  else if ¬ s.refsOk c base count (s.byAnchor w.parent) ks then .bad
  else
    let span := s.edgeSpan ks
    match s.reserve c count (span.2 - span.1) w.owner with
    | none => .noRoom
    | some (s1, n0, e0) =>
      let s1 := s1.rewritten (fun k => inRange n0 count (nkIdx k) && decide (nkCtx k = c))
        (fun j => decide (ek c e0 ≤ j) && decide (j < ek c (e0 + (span.2 - span.1))))
      let s2 := s1.each (List.range (span.2 - span.1)) fun s j =>
        let v := s.edge (ek c (span.1 + j))
        s.setEdge (ek c (e0 + j)) (setBits v 0 20 (reloc base count n0 (edgeTarget v)))
      let s3 := s2.each (List.range count) fun s j =>
        let t := s.node (nk c (base + j))
        let d := chg (t.d.relocate base count n0 ((e0 : Int) - span.1))
        s.setNode (nk c (n0 + j))
          { d := d, cmd := w.cmd, parent := w.parent, call := w.call, epoch := w.epoch, fan := w.fan, indirect := t.indirect, ptrCtx := t.ptrCtx,
            st := .dormant }
      let ns := (List.range count).map fun j => nk c (n0 + j)
      match s3.reserveInst c ns with
      | none => .noRoom
      | some s4 => .ok (s4.each ns fun s k => if (s.node k).d.inBody then s else s.arm k)

/-- Whether some ACTIVE node of the context holds dynamic blocks, so that a block can come back (R61). Blocks that a command or a
call took are held by its nodes. -/
def State.blockCanReturn (s : State) (c : Nat) : Bool :=
  let x := s.ctx c
  let live (p : Node → Bool) : Bool := s.gs.nodes.any fun e => decide (nkCtx e.1 = c) && decide (e.2.st = .active) && p e.2
  (x.dynN.map Prod.snd ++ x.dynE.map Prod.snd).any fun o => match o with
    | .node i => decide ((s.node (nk c i)).st = .active)
    | .cmd n q => live fun e => decide (e.cmd = some (n, q))
    | .call x => live fun e => decide (e.call = some x)

/-- An instantiation that finds no room: its node waits, or, if no block can ever come back, fails with DYN_EXHAUSTED (R61). -/
def State.noRoomFor (s : State) (k : Nat) : State :=
  let c := nkCtx k
  if s.blockCanReturn c then
    (s.updCtx c fun x => { x with dynWait := if k ∈ x.dynWait then x.dynWait else x.dynWait ++ [k] })
  else
    (s.updCtx c fun x => { x with dynWait := x.dynWait.filter (· ≠ k) }).failNode k { cause := 0x0C, detail := nkIdx k } (sourceUnit 1)

end Sys2Proof.Machine
end

