-- ==== Sys2Proof/Machine/Loops.lean ====
section
/-! DEFINITION. The Resolver's cycle, loops and sprouts as commands (R52, R62 to R64, R67 to R69). -/
namespace Sys2Proof.Machine

/-- RESOLVER_UPDATE (R29, R52). -/
def State.resolverUpdate (s : State) : State := if s.runs 1 then s.resolverCycle else s

def execResolverUpdate (s : State) : Host.Outcome State Fault Refusal := .next s.resolverUpdate

/-- A node whose counters are written (R47, R52). -/
def Node.armed (n : Node) : Bool :=
  match n.st with
  | .waiting | .ready | .parked | .active | .done => true
  | _ => false

/-! ### Loops -/

/-- Body nodes of a loop that no loop nested in it holds (R63). -/
def State.ownBody (s : State) (k : Nat) : List Nat :=
  let body := s.bodyOf k
  let inner := body.filter fun y => decide ((s.node y).d.kind = .loop)
  body.filter fun y => !(inner.any fun l => decide (y ∈ s.bodyOf l))

/-- Arm an iteration: every body node of the loop itself becomes WAITING (R47, R63). -/
def State.armBody (s : State) (k it : Nat) : State :=
  let s := s.updNode k fun n => { n with iterNo := it }
  s.each (s.ownBody k) fun s b =>
    match (s.node b).st with
    | .dormant | .done | .folded =>
      (s.updNode b fun n =>
        { n with iter := it, sent := false, ending := false, gst := .unarmed, predicted := false, ptr := none,
                 trip := none, ord := 0 }).arm b
    | _ => s

/-- The loop lies in another loop's body. -/
def State.nestedLoop (s : State) (k : Nat) : Bool :=
  (s.loopsOver (nkCtx k) (nkIdx k)).any fun y => decide (y ≠ k)

/-- A loop completes: its DONE edges, and its body freed, or made DORMANT for the enclosing loop (R64). -/
def State.completeLoop (s : State) (k : Nat) : State :=
  let body := s.bodyOf k
  let nested := s.nestedLoop k
  (s.complete k).each body fun s b =>
    match (s.node b).st with
    | .dormant | .done | .folded => if nested then s.updNode b fun n => { n with st := .dormant } else s.setNode b {}
    | _ => s

/-- LOOP_START (R63). -/
def State.loopStart (s : State) (k : Nat) : State :=
  let n := s.node k
  if n.st = .ready ∧ n.d.kind = .loop ∧ s.runs 1 ∧ s.open ∧ ¬ s.saveHolds k then
    let s := s.updNode k fun n => { n with st := .active, startedAt := s.now, loopEnd := false }
    let sp := ctxSpace (nkCtx k)
    let s := s.noteHost sp n.d.t.toNat
    match s.readWord sp n.d.t.toNat 4 with
    | none => s.failNode k { cause := 0x96 } (sourceUnit 1)
    | some t =>
      if t = 0 then (s.completeLoop k).settle
      else if n.d.tripMax < t then s.failNode k { cause := 0x0D } (sourceUnit 1)
      else ((s.updNode k fun n => { n with trip := some t }).armBody k 0).settle
  else s

def execLoopStart (c i : Nat) (s : State) : Host.Outcome State Fault Refusal :=
  .next (s.viaHost (ctxSpace c) (s.node (nk c i)).d.t.toNat (.loopStart c i) fun s => s.loopStart (nk c i))

/-- Every body node of the iteration is DONE or FOLDED, and no update of the Resolver concerns them (R64). -/
def State.iterationOver (s : State) (k : Nat) : Bool :=
  let own := s.ownBody k
  own.all (fun y => decide ((s.node y).st = .done) || decide ((s.node y).st = .folded)) &&
  !(s.gs.resIn.any fun u => decide (u.node ∈ own) || (match u.src with | some y => decide (y ∈ own) | none => false))

/-- LOOP_ITERATION_END (R64, R144). -/
def State.iterationEnd (s : State) (k : Nat) : State :=
  let n := s.node k
  match n.trip with
  | none => s
  | some t =>
    if n.st = .active ∧ n.d.kind = .loop ∧ s.runs 1 ∧ s.iterationOver k then
      if n.iterNo + 1 < t ∧ ¬ n.loopEnd then (s.armBody k (n.iterNo + 1)).settle else (s.completeLoop k).settle
    else s

def execLoopIterationEnd (c i : Nat) (s : State) : Host.Outcome State Fault Refusal := .next (s.iterationEnd (nk c i))

/-! ### Sprouts -/

/-- The header of a sprout buffer: node and edge counts, and the reserved bytes. -/
def sproutHead (bs : List Byte) : Nat × Nat × Nat := (leAt bs 0 2, leAt bs 2 2, leAt bs 4 12)

/-- A sprouted node's bytes with EDGE_BASE moved into the reservation. -/
def moveEdgeBase (e : Nat) (bs : List Byte) : List Byte := bs.take 4 ++ leBytes 4 ((leAt bs 4 4 + e) % 2 ^ 22) ++ bs.drop 8

/-- A sprouted node's edges are edges of the buffer, whose count is `ec`: its EDGE_BASE is relative to the reservation, its
reserved bits are zero, and edges out of the subgraph are impossible (R68, R69; DEDUCED, log entry 80). -/
def sproutEdgesOk (ec : Nat) (bs : List Byte) : Bool :=
  decide (leAt bs 4 4 < 2 ^ 22) && (decide (leAt bs 8 2 = 0) || decide (leAt bs 4 4 + leAt bs 8 2 ≤ ec))

/-- The kinds and flags that R69 allows a sprouted node. -/
def sproutNodeOk (bs : List Byte) : Bool :=
  match Desc.decode bs with
  | none => false
  | some d =>
    (decide (d.kind = .task) || decide (d.kind = .join) || decide (d.kind = .signal) || decide (d.kind = .wait) ||
     decide (d.kind = .remote)) && !d.template && !d.inBody

/-- The sprout buffer's arrays. -/
def State.sproutArrays (s : State) (sp a nc ec : Nat) : Option (List (List Byte) × List (BitVec 32)) :=
  match s.readBytes sp (a + 16) (32 * nc), s.readBytes sp (a + 16 + 32 * nc) (4 * ec) with
  | some x, some y => some (chunks 32 nc x, (chunks 4 ec y).map fun w => BitVec.ofNat 32 (ofLe w))
  | _, _ => none

/-- SPROUT_READ (R68, R69): the completed sprout task's buffer is read, checked and instantiated into its reservation. -/
def State.sproutRead (s : State) (k : Nat) : State :=
  let n := s.node k
  if n.st = .active ∧ n.d.kind = .sprout ∧ n.place = .unit ∧ s.runs 1 then
    let sp := ctxSpace (nkCtx k)
    let a := n.constAddr + 0x100
    let s := s.noteHost sp a
    let bad (s : State) (detail : Nat) : State := s.failNode k { cause := 0x0E, detail := detail } (sourceUnit 1)
    let lost (s : State) : State := s.failNode k { cause := 0x96 } (sourceUnit 1)
    match s.readBytes sp a 16 with
    | none => lost s
    | some h =>
      let (nc, ec, rsvd) := sproutHead h
      let res := n.res.getD (0, 0)
      if nc = 0 ∨ n.d.resNodes < nc ∨ n.d.resEdges < ec ∨ rsvd ≠ 0 then bad s 0
      else match s.sproutArrays sp a nc ec with
        | none => lost s
        | some (ns, es) =>
          if ¬ ns.all sproutNodeOk ∨ ¬ ns.all (sproutEdgesOk ec) ∨ ¬ es.all (fun w => decide (edgeTarget w < nc)) then bad s 0
          else
            let g : GraphDesc :=
              { ctx := nkCtx k, first := res.1, nodes := ns.map (moveEdgeBase res.2), efirst := res.2,
                edges := es.map fun w => setBits w 0 20 (edgeTarget w + res.1), cmd := n.cmd, sprout := some k }
            match s.applyGraph g with
            | .error e => bad s e.detail
            | .ok t => (t.updNode k fun n => { n with place := .hub }).settle
  else s

def execSproutRead (c i : Nat) (s : State) : Host.Outcome State Fault Refusal :=
  .next (s.viaHost (ctxSpace c) ((s.node (nk c i)).constAddr + 0x100) (.sproutRead c i) fun s => s.sproutRead (nk c i))

end Sys2Proof.Machine
end

