-- ==== Sys2Proof/Machine/Dealing.lean ====
section
/-! DEFINITION. Shared dealing operations: free engines, hands and quotas, dispatch, offer rounds, launches and the ends of
tasks and panels (R73 to R99). -/
namespace Sys2Proof.Machine

/-- HUB_CYCLES (R401), the clock of QWAIT and BUSY. -/
def State.hubCycles (s : State) : Nat := (s.reg (gcnt 0)).toNat

/-! ### Engines and picks (R81, R89) -/

/-- An engine is free (R81). -/
def State.freeEngine (s : State) (e : Nat) : Bool :=
  let x := s.eng e
  !s.benched e && x.job.isNone && x.held.isNone && x.drain.isNone && x.reset.isNone

/-- The engine that the static deal of LOCKSTEP gives node `k`, panel `p` (R89). -/
def State.assigned (s : State) (k p : Nat) : Option Nat :=
  let l := s.eligibleOf k
  if l = [] then none
  else l[(if (s.node k).d.panels = 0 then nkIdx k else p) % l.length]?

/-- Free eligible engines of node `k` in region `r`. -/
def State.freeIn (s : State) (r k : Nat) : List Nat :=
  (s.eligibleOf k).filter fun e => decide (engRegion e = r) && s.freeEngine e

/-- The pointer of dealer `r` for a pod and class (R81). -/
def State.pickPtr (s : State) (r p cls : Nat) : Nat := tget 0 (s.dealer r).ptr (3 * p + cls)

/-- Pick among free engines: the first tile at or after the pointer, wrapping, and its lowest cell (R81). -/
def pickFrom (ptr : Nat) (es : List Nat) : Option Nat := minBy (fun e => (engTile e + 48 - ptr) % 48 * 16 + engCell e) es

/-- The pointer moves past the picked tile. -/
def State.movePtr (s : State) (r p cls e : Nat) : State :=
  s.updDealer r fun d => { d with ptr := tput 0 d.ptr (3 * p + cls) ((engTile e + 1) % 48) }

/-! ### Hands (R78 to R80) -/

/-- The context is under donation (R268). -/
def State.donated (s : State) (c : Nat) : Bool := s.sy.donations.any fun d => decide (d.holder = c)

/-- An entry's class: its slot's PRIO, or 3 for a context under donation (R80, R268). -/
def State.entPrio (s : State) (h : HandEnt) : Nat := if s.donated (nkCtx h.key) then 3 else s.slotPrio h.slot

/-- The slot of an entry holds its class's lead (R80, R253). -/
def State.isLead (s : State) (h : HandEnt) : Bool := decide (tget 0 (s.pod h.pod).lead (s.slotPrio h.slot) = h.slot)

/-- Where an entry stands among those of its class: a resume entry stands ahead of every other entry of its slot (R258). -/
def rankArrive (hs : List HandEnt) (h : HandEnt) : Nat :=
  if h.susp.isSome then
    ((hs.filter fun g => decide (g.slot = h.slot)).map HandEnt.arrive).foldl min h.arrive
  else h.arrive

/-- Hand order (R80, R258, R268). -/
def State.before (s : State) (hs : List HandEnt) (a b : HandEnt) : Bool :=
  let key (h : HandEnt) : List Nat :=
    let don := s.donated (nkCtx h.key)
    [3 - s.entPrio h, if don then 0 else 1, if don ∧ h.susp.isSome then 0 else 1, if s.isLead h then 0 else 1,
     rankArrive hs h, if h.susp.isSome then 0 else 1, h.arrive, nkCtx h.key, nkIdx h.key]
  decide (key a < key b)

/-- The entries of one hand of dealer `r`, in hand order. -/
def State.hand (s : State) (r p cls : Nat) : List HandEnt :=
  let hs := (s.dealer r).hands.filter fun h => decide (h.pod = p) && decide (h.cls = cls)
  sortBy (s.before hs) hs

/-- The hand entries and the kitty entries of one dealer (R78, R97). -/
def handEntries : Nat := 4096
def kittyEntries : Nat := 256

/-- A new entry would keep within the dealer's entries and the quotas of R78. -/
def State.quotaOk (s : State) (r p slot : Nat) (kitty : Bool) : Bool :=
  let q := s.reg ⟨.podDeal, p, 0⟩
  let all := (s.dealer r).hands
  let mine := all.filter fun h => decide (h.pod = p)
  decide (all.length < handEntries) && (!kitty || decide ((all.filter HandEnt.kitty).length < kittyEntries)) &&
  decide (mine.length < bits q 0 13) && decide ((mine.filter fun h => decide (h.slot = slot)).length < bits q 32 13) &&
  (!kitty || decide ((mine.filter HandEnt.kitty).length < bits q 16 9))

/-- Share `i` of node `k` has its kitty entry in dealer `r`'s hands. -/
def Dealer.holds (d : Dealer) (k i : Nat) : Bool := d.hands.any fun h => decide (h.key = k) && h.kitty && decide (h.share = i)

/-- The first share of node `k` in dealer `r` that has undrawn panels and no kitty entry. -/
def State.unlistedShare (s : State) (r k : Nat) : Option Nat :=
  let d := s.dealer r
  (d.shares.find? fun (h : Share) => decide (h.key = k) && decide (h.undrawn ≠ []) && !d.holds k h.id).map Share.id

/-- Put an entry into dealer `r`'s hands; a kitty entry stands for the node's first share without one. -/
def State.addEnt (s : State) (r k : Nat) (susp : Option Susp) : State :=
  let n := s.node k
  s.updDealer r fun d =>
    { d with hands := d.hands ++ [{ key := k, pod := s.nodePod k, cls := n.d.cls, slot := n.slot, kitty := n.d.isKitty && susp.isNone,
                                    susp := susp, share := (s.unlistedShare r k).getD 0, arrive := d.arrivals, cycle := 2 * (s.reg (gcnt 0)).toNat }]
             arrivals := d.arrivals + 1 }

/-- A dispatch of the hub to dealer `r` (R401). -/
def State.insertEnt (s : State) (r k : Nat) (susp : Option Susp) : State := (s.addEnt r k susp).bump (gcnt 2) 1

/-- Dispatch to dealer `r`: into its hands, or behind the backlog (R78, R79). -/
def State.toDealer (s : State) (r k : Nat) : State :=
  let p := s.nodePod k
  let q := p * 8 + r
  if tget [] s.dl.backlog q = [] ∧ s.quotaOk r p (s.node k).slot (s.node k).d.isKitty then
    (s.insertEnt r k none).updNode k fun n => { n with place := .hand }
  else
    ({ s with dl := { s.dl with backlog := tput [] s.dl.backlog q (tget [] s.dl.backlog q ++ [k]) } }).updNode k
      fun n => { n with place := .backlog }

/-- Move as much of one backlog as its quotas allow into the hand: one entry, the oldest (R79). -/
def State.fromBacklog (s : State) (p r : Nat) : State :=
  let q := p * 8 + r
  match tget [] s.dl.backlog q with
  | [] => s
  | k :: t =>
    if s.quotaOk r p (s.node k).slot (s.node k).d.isKitty then
      (({ s with dl := { s.dl with backlog := tput [] s.dl.backlog q t } }).insertEnt r k none).updNode k
        fun n => { n with place := .hand }
    else s

/-! ### Dispatch (R75, R76, R83, R89) -/

/-- Regions that hold eligible engines, ascending. -/
def regionsOf (es : List Nat) : List Nat := (List.range 8).filter fun r => es.any fun e => decide (engRegion e = r)

/-- A node with no eligible engine is held, and TILESET_EMPTY written (R75). -/
def State.holdNode (s : State) (k : Nat) : State :=
  (s.updNode k fun n => { n with place := .held }).report
    { typ := 0x12, source := sourceUnit 2, ctx := some (nkCtx k), body := [s.nodeArg k, (s.node k).d.tileset] }

/-- Open an offer round, or wait for one of the 64 (R77). -/
def State.openOffer (s : State) (k : Nat) (rs : List Nat) : State :=
  let s := s.updNode k fun n => { n with place := .offer }
  if (s.dl.offers.filter fun o => !o.closed).length < 64 ∧ s.dl.offerWait = [] then
    { s with dl := { s.dl with offers := s.dl.offers ++ [{ key := k, regions := rs, asked := rs }] } }
  else { s with dl := { s.dl with offerWait := s.dl.offerWait ++ [k] } }

/-- The bounds of the shares of `total` panels over regions with `m` engines each (R83): region, first and end positions. -/
def shareBounds (es : List Nat) (total : Nat) : List (Nat × Nat × Nat) :=
  let below (r : Nat) : Nat := (es.filter fun e => decide (engRegion e < r)).length
  let upto (r : Nat) : Nat := (es.filter fun e => decide (engRegion e ≤ r)).length
  (regionsOf es).map fun r => (r, total * below r / es.length, total * upto r / es.length)

/-- The undrawn panels of a kitty node that are to be dispatched: those returned to the hub, or the whole range. -/
def Node.undealt (n : Node) : Runs := n.runs.getD [(0, n.d.panels)]

/-- Undrawn panels of node `k` come to dealer `r`: a new share (R74, R83), or in LOCKSTEP, which has no shares, more panels of the
one list that the dealer keeps of the node (R89). -/
def State.addShare (s : State) (r k : Nat) (ps : Runs) : State :=
  s.updDealer r fun d =>
    if s.lockstep && d.shares.any fun (h : Share) => decide (h.key = k) then
      { d with shares := d.shares.map fun (h : Share) => if h.key = k then
          { h with first := min h.first ((runsMin ps).getD h.first), stop := max h.stop (runsEnd ps), size := h.size + runsCount ps,
                   undrawn := (runsPanels ps).foldl (fun a p => runsAdd p a) h.undrawn, reported := false }
          else h }
    else { d with shares := d.shares ++ [{ key := k, id := d.arrivals, first := (runsMin ps).getD 0, stop := runsEnd ps, undrawn := ps, size := runsCount ps }], arrivals := d.arrivals + 1 }

/-- Some dealer's hands or backlog hold an entry for node `k`'s share in region `r`. -/
def State.shareListed (s : State) (r k : Nat) : Bool :=
  ((s.dealer r).hands.any fun h => decide (h.key = k) && h.kitty) || decide (k ∈ tget [] s.dl.backlog (s.nodePod k * 8 + r))

/-- Send a non-empty share to its dealer. -/
def State.sendShare (s : State) (k r : Nat) (ps : Runs) : State :=
  if runsCount ps = 0 then s else
  let s := s.addShare r k ps
  if s.lockstep ∧ s.shareListed r k then s else s.toDealer r k

/-- Panels of a list that LOCKSTEP assigns to engines of region `r`. -/
def State.assignedPanels (s : State) (k r : Nat) (ps : Runs) : Runs :=
  ((runsPanels ps).filter fun p => match s.assigned k p with | some e => decide (engRegion e = r) | none => false).foldl
    (fun a p => runsAdd p a) []

/-- The regions that hold shares of node `k`. -/
def State.shareRegions (s : State) (k : Nat) : List Nat :=
  (List.range 8).filter fun r => (s.dealer r).shares.any fun (h : Share) => decide (h.key = k)

/-- The combine turn of a kitty node lives in the hub from now on where it has several shares, or in LOCKSTEP where its engines
lie in several regions (R74, R87, R89). -/
def State.placeTurn (s : State) (k : Nat) (el : List Nat) : State :=
  s.updNode k fun n => { n with turnHub := n.turnHub || decide (1 < (if s.lockstep then regionsOf el else s.shareRegions k).length) }

/-- Dispatch a kitty node's undealt panels (R74, R83, R89). -/
def State.dispatchKitty (s : State) (k : Nat) (el : List Nat) : State :=
  let ps := (s.node k).undealt
  let parts := if s.lockstep then (regionsOf el).map fun r => (r, s.assignedPanels k r ps)
    else (shareBounds el (runsCount ps)).map fun b => (b.1, runsSlice b.2.1 b.2.2 ps)
  let s := s.updNode k fun n => { n with runs := some [], place := .hand }
  (s.each parts fun s b => s.sendShare k b.1 b.2).placeTurn k el

/-- The hub dispatches a node (R75, R76). -/
def State.dispatch (s : State) (k : Nat) : State :=
  let n := s.node k
  let el := s.eligibleOf k
  if el = [] then s.holdNode k
  else if n.d.cls = 3 then
    let h : HandEnt := { key := k, pod := s.nodePod k, cls := 3, slot := n.slot, arrive := s.gs.order }
    let s := { s with dl := { s.dl with leHand := s.dl.leHand ++ [h] }, gs := { s.gs with order := s.gs.order + 1 } }
    (s.bump (gcnt 2) 1).updNode k fun n => { n with place := .hand }
  else if n.d.isKitty then s.dispatchKitty k el
  else if s.lockstep then
    match s.assigned k 0 with
    | some e => s.toDealer (engRegion e) k
    | none => s
  else match regionsOf el with
    | [r] => s.toDealer r k
    | rs => s.openOffer k rs

/-- A node stands at the hub to be dispatched: a READY TASK or SPROUT, or a kitty node with panels returned (R74, R76). -/
def State.dispatchable (s : State) (k : Nat) : Bool :=
  let n := s.node k
  (decide (n.d.kind = .task) || decide (n.d.kind = .sprout)) && decide (n.place = .hub) && (!n.indirect || n.ptr.isSome) &&
  !s.reporting k && !n.ending &&
  (decide (n.st = .ready) ||
   (decide (n.st = .active) && n.d.isKitty && (match n.runs with | some r => decide (r ≠ []) | none => false))) &&
  !s.saveHolds k

/-! ### Offer rounds (R77) -/

/-- Close what is finished, and start rounds that wait. -/
def State.pruneOffers (s : State) : State :=
  let live := s.dl.offers.filter fun o =>
    !(o.closed && decide (o.transit = []) && decide (o.asked = []) && o.confirm.isNone && decide (o.withdraw = []))
  let room := 64 - (live.filter fun o => !o.closed).length
  let go := s.dl.offerWait.take room
  let s := { s with dl := { s.dl with offers := live, offerWait := s.dl.offerWait.drop room } }
  s.each go fun s k =>
    let rs := regionsOf (s.eligibleOf k)
    { s with dl := { s.dl with offers := s.dl.offers ++ [{ key := k, regions := rs, asked := rs }] } }

def State.updOffer (s : State) (p : Offer → Bool) (f : Offer → Offer) : State :=
  { s with dl := { s.dl with offers := updFirst p f s.dl.offers } }

/-- Remove the first pair of a list that names region `r`. -/
def dropRegion {α : Type} (r : Nat) (l : List (Nat × α)) : List (Nat × α) := eraseFirst (fun x => decide (x.1 = r)) l

/-- The best YES: the largest F, ties to the lowest region: (region, engine). -/
def bestYes (got : List (Nat × Option (Nat × Nat))) : Option (Nat × Nat) :=
  let yes : List (Nat × Nat × Nat) := got.filterMap fun a => a.2.map fun h => (a.1, h.1, h.2)
  let top := (yes.map fun y => y.2.2).foldl max 0
  (minBy (fun (y : Nat × Nat × Nat) => y.1) (yes.filter fun y => decide (y.2.2 = top))).map fun y => (y.1, y.2.1)

/-- The region with the most eligible engines, ties to the lowest. -/
def mostEligible (es : List Nat) : Option Nat :=
  let cnt (r : Nat) : Nat := (es.filter fun e => decide (engRegion e = r)).length
  let top := ((regionsOf es).map cnt).foldl max 0
  (regionsOf es).find? fun r => decide (cnt r = top)

/-! ### Launches (R84, R91, R95, R112, R258) -/

/-- The ROUTE word (R112): that of an expert instance, or of a serving instance's node. -/
def Node.route (n : Node) (panel : Nat) : Nat :=
  match n.fan, n.call with
  | some f, _ => (if n.d.isKitty then min f.rowsT (f.kept - panel * f.rowsT) else f.kept) * 2 ^ 12 + f.expert
  | none, some x => n.rows * 2 ^ 12 + x % 256
  | none, none => 0

/-- The launch record of a task or panel (R91). -/
def State.launchRec (s : State) (k panel : Nat) : Launch :=
  let n := s.node k
  { const := n.constAddr, node := nkIdx k, ctx := nkCtx k, slot := n.slot, pod := s.nodePod k, det := s.det, trace := n.d.trace,
    sprout := decide (n.d.kind = .sprout), panel := panel, panels := n.d.panels, iter := n.iter, route := n.route panel,
    epoch := n.epoch }

/-- A task or panel starts on engine `e` (R91, R95): the launch record is written, and a start report is sent for cells. -/
def State.launch (s : State) (e k panel source : Nat) : State :=
  let l := s.launchRec k panel
  let c := nkCtx k
  let s := (s.unblock c).updEng e fun x => { x with job := some l, startAt := s.hubCycles, startTick := s.now, held := none, stall := 0 }
  let s := (s.emit (.launch e l)).bump (gcnt 3) 1
  let s := (s.bump (ctxCnt c 1) 1).bump (ctxCnt c 0) (s.hubCycles - (s.node k).readyHub)
  let s := if isLE e then s else { s with dl := { s.dl with starts := s.dl.starts ++ [(e, l)] } }
  let s := s.updNode k fun n => { n with place := if n.d.isKitty then n.place else .engine }
  s.traceNode 2 source k (some e) panel

/-- A suspended task is resumed on engine `e` (R258): its launch record unchanged, then RESUME. -/
def State.resumeOn (s : State) (e k : Nat) (u : Susp) (source : Nat) : State :=
  let c := nkCtx k
  let s := (s.unblock c).updEng e fun x =>
    { x with job := some u.launch, startAt := s.hubCycles, startTick := s.now, held := none, claims := u.claims, stall := 0 }
  let s := ((s.emit (.launch e u.launch)).emit (.resumeOrder e u.addr)).bump (gcnt 3) 1
  let s := s.bump (ctxCnt c 4) (s.now - u.since)
  let s := s.updCtx c fun x => { x with suspUsed := x.suspUsed.filter (· ≠ u.addr) }
  s.traceNode 6 source k (some e) u.launch.panel

/-- The undrawn panels of the share that a kitty entry of dealer `r` stands for. -/
def State.shareOf (s : State) (r : Nat) (h : HandEnt) : Runs :=
  (((s.dealer r).shares.find? fun (x : Share) => decide (x.key = h.key) && decide (x.id = h.share)).map Share.undrawn).getD []

/-- A stop lets panel `p` of node `k` be drawn: any panel while nothing stops, and while QUIESCING a panel below a running panel
of the node that waits for its turn (R415). -/
def State.panelOpen (s : State) (k p : Nat) : Bool :=
  s.open ||
  (decide (s.ob.stop = .quiescing) && (s.enginesOf k).any fun e =>
    (s.eng e).turnAsk && (match (s.eng e).job with | some l => decide (p < l.panel) | none => false))

/-- The panels that a kitty entry may draw now: the lowest of its share, or in LOCKSTEP each of them (R84, R89, R415). -/
def State.drawable (s : State) (r : Nat) (h : HandEnt) : List Nat :=
  (if s.lockstep then runsPanels (s.shareOf r h) else (runsMin (s.shareOf r h)).toList).filter (s.panelOpen h.key)

/-- Draw panel `p` of node `k`'s share in dealer `r` onto engine `e`; the hand entry goes with the last panel (R84, R85). -/
def State.draw (s : State) (r k p e : Nat) : State :=
  let s := s.updDealer r fun d =>
    { d with shares := d.shares.map fun (h : Share) => if h.key = k ∧ runsMem p h.undrawn then
        { h with undrawn := runsDel p h.undrawn, running := insertNat p h.running } else h }
  let s := s.updDealer r fun d =>
    { d with hands := d.hands.filter fun h => !(decide (h.key = k) && h.kitty && decide (s.shareOf r h = [])) }
  (s.bump ⟨.dlDraws, r, 0⟩ 1).launch e k p r

/-- Deal a hand entry of dealer `r` to engine `e` (R82, R258). -/
def State.dealEnt (s : State) (r : Nat) (h : HandEnt) (e : Nat) : State :=
  let s := s.bump ⟨.dlIssued, r, 0⟩ 1
  if h.kitty then
    match (s.drawable r h).find? fun p => !s.lockstep || decide (s.assigned h.key p = some e) with
    | some p => s.draw r h.key p e
    | none => s
  else
    let s := s.updDealer r fun d => { d with hands := eraseFirst (fun x => decide (x = h)) d.hands }
    match h.susp with
    | some u => s.resumeOn e h.key u r
    | none => s.launch e h.key 0 r

/-! ### The ends of tasks and panels (R85 to R88, R93) -/

/-- A panel has left its engine: it no longer runs in its share, and a share with nothing left reports (R85). -/
def State.panelEnd (s : State) (r k p : Nat) (ok : Bool) : State :=
  let s := s.updDealer r fun d =>
    { d with shares := d.shares.map fun (h : Share) => if h.key = k ∧ p ∈ h.running then
        let run := h.running.filter (· ≠ p)
        { h with running := run, done := h.done + ok.toNat, reported := decide (run = []) && decide (h.undrawn = []) } else h }
  let s := s.updNode k fun n => { n with panelsOk := n.panelsOk + ok.toNat, spoiled := n.spoiled || !ok }
  s.passPanels k [p]

/-- Change every memory request that waits. -/
def State.updMemWait (s : State) (f : MemReq → MemReq) : State :=
  { s with dl := { s.dl with memWait := s.dl.memWait.map fun (q : Nat × List MemReq) => (q.1, q.2.map f) } }

/-- A waiting write that a chip-scope release of engine `e` must wait for: its own, or one that an acquire made visible to it
(R234). -/
def MemReq.holds (m : MemReq) (e : Nat) : Bool := decide (m.data ≠ []) && (decide (m.e = e) || decide (e ∈ m.seen))

/-- A write that a chip-scope release of engine `e` covers is not acknowledged: it waits at a region ordering point (R93, R234,
R283). -/
def State.writesWait (s : State) (e : Nat) : Bool := (s.dl.memWait.flatMap Prod.snd).any fun m => m.holds e

/-- The port does not take the report of engine `e`'s task yet: a write is not acknowledged, or a posted operation is held at
the port, waits for its translation, or went to another chip and is not answered (R93, R219, R220). -/
def State.portHolds (s : State) (e : Nat) : Bool :=
  decide ((s.eng e).posted ≠ 0) || s.writesWait e || (s.sy.xlatWait ++ s.sy.portWait).any fun q => q.src.isEngine e && !q.op.waits && !q.stray

/-- What a killed engine's port held is gone: its operations there are dropped, the lines of its unacknowledged writes are poisoned,
and no completion waits for what it had posted (R195, R220, R247). -/
def State.killPort (s : State) (e : Nat) : State :=
  let lost := (s.dl.memWait.flatMap Prod.snd).filter fun m => decide (m.e = e) && decide (m.data ≠ [])
  let lines := lost.flatMap fun m => ((List.range m.granules).filterMap fun i => s.phys (ctxSpace m.ctx) (m.addr + 64 * i)).map (· / 64)
  ({ s with
     dl := { s.dl with memWait := (s.dl.memWait.map fun (q : Nat × List MemReq) => (q.1, (q.2.filter fun (m : MemReq) => decide (m.e ≠ e)).map fun (m : MemReq) => { m with seen := m.seen.filter (· ≠ e) })).filter
                                     fun q => decide (q.2 ≠ []) }
     sy := { s.sy with portWait := s.sy.portWait.filter fun (q : SyncReq) => !q.src.isEngine e,
                       xlatWait := s.sy.xlatWait.map fun (q : SyncReq) => if q.src.isEngine e then { q with stray := true } else q } }).poisonLines lines

/-- The engine ends its task: it is free, and its watch entry and suspension go; busy cycles are counted (R81, R217, R287). -/
def State.freeUp (s : State) (e : Nat) : State :=
  match (s.eng e).job with
  | none => s
  | some l =>
    let s := s.bump (ctxCnt l.ctx 2) (2 * (s.hubCycles - (s.eng e).startAt - (s.eng e).stall))
    let s := { s with li := { s.li with
      unanswered := s.li.unanswered.map (fun (u : Unanswered) => if u.asker = Asker.engine e then { u with asker := Asker.none } else u)
      numberWait := s.li.numberWait.map fun (u : Unanswered) => if u.asker = Asker.engine e then { u with asker := Asker.none } else u } }
    ((s.closeWatch e).dropSusp e).updEng e fun x =>
      { x with job := none, turnAsk := false, turnHeld := false, drain := none, susp := none, posted := 0, postedLost := false,
               claims := [], inval := false, stall := 0 }

/-- A kitty node with no share left and no panel at the hub has ended: DONE if every panel was OK, else FOLDED (R85, R195). -/
def State.kittyEnd (s : State) (k : Nat) : State :=
  let n := s.node k
  if (n.st = .active ∨ (n.st = .ready ∧ (n.ending ∨ n.spoiled))) ∧ s.shareRegions k = [] ∧ n.runs.getD [] = [] ∧ s.enginesOf k = [] ∧ s.suspsOf k = [] ∧ ¬ s.reporting k then
    if n.spoiled then s.setFolded k else (s.complete k).settle
  else s

/-! ### Entries that must move (R74, R75, R89, R353) -/

/-- Region `r` holds a tile of the node's entry that its pod owns (R74, R251). -/
def State.hasTile (s : State) (r k : Nat) : Bool :=
  let ws := s.tset (s.nodePod k) (s.node k).d.tileset
  (List.range 48).any fun t => tsetTile ws (48 * r + t) && s.ownsTile (s.nodePod k) (48 * r + t)

/-- A hand entry of dealer `r` may no longer stay there. -/
def State.misplaced (s : State) (r : Nat) (h : HandEnt) : Bool :=
  if bit (s.reg ⟨.benchRegions, 0, 0⟩) r then true
  else if s.lockstep then
    if h.kitty then (runsPanels (s.shareOf r h)).any fun p => decide ((s.assigned h.key p).map engRegion ≠ some r)
    else decide ((s.assigned h.key (match h.susp with | some u => u.launch.panel | none => 0)).map engRegion ≠ some r)
  else !s.hasTile r h.key || (h.susp.isNone && decide (s.eligibleOf h.key = []))

/-- Panels as runs. -/
def runsOf (ps : List Nat) : Runs := ps.foldl (fun a p => runsAdd p a) []

/-- An undrawn panel of node `k` stays with dealer `r` when entries move: in LOCKSTEP, while its engine lies there (R89). -/
def State.panelStays (s : State) (r k p : Nat) : Bool :=
  s.lockstep && !bit (s.reg ⟨.benchRegions, 0, 0⟩) r && decide ((s.assigned k p).map engRegion = some r)

/-- Take a hand entry back to the hub: a single task stands there READY; a share gives back the undrawn panels that do not stay,
and its entry stays with those that do (R74, R89). Answers how many returns that makes: one for a task or a share, and in LOCKSTEP
one for each panel. -/
def State.takeBack (s : State) (r : Nat) (h : HandEnt) : State × Nat :=
  if h.kitty then
    let ps := runsPanels (s.shareOf r h)
    let back := ps.filter fun p => !s.panelStays r h.key p
    let stay := runsOf (ps.filter (s.panelStays r h.key))
    let s := s.updDealer r fun d =>
      { d with
        hands := if stay = [] then eraseFirst (fun x => decide (x = h)) d.hands else d.hands
        shares := (d.shares.map fun (x : Share) => if x.key = h.key ∧ x.id = h.share then
          { x with undrawn := stay, size := x.size - back.length } else x).filter fun (x : Share) =>
            decide (x.key ≠ h.key) || decide (x.id ≠ h.share) || !x.empty }
    (s.updNode h.key fun n => { n with runs := some (back.foldl (fun a p => runsAdd p a) (n.runs.getD [])), place := .hub },
     if s.lockstep then back.length else 1)
  else
    ((s.updDealer r fun d => { d with hands := eraseFirst (fun x => decide (x = h)) d.hands }).updNode h.key
      fun n => { n with place := .hub }, 1)

/-- The share that counts panel `p` of node `k` as running becomes that of dealer `r`; a share left with nothing reports (R85,
R258). -/
def State.moveRunning (s : State) (k p r : Nat) : State :=
  let s := { s with dl := s.dl.mapDealers fun d =>
    { d with shares := d.shares.map fun (h : Share) => if h.key = k ∧ p ∈ h.running then
        let run := h.running.filter (· ≠ p)
        { h with running := run, reported := decide (run = []) && decide (h.undrawn = []) } else h } }
  s.updDealer r fun d =>
    if d.shares.any fun (h : Share) => decide (h.key = k) then
      { d with shares := updFirst (fun (h : Share) => decide (h.key = k)) (fun h => { h with running := insertNat p h.running, reported := false }) d.shares }
    else { d with shares := d.shares ++ [{ key := k, id := d.arrivals, first := p, stop := p + 1, running := [p], size := 1 }], arrivals := d.arrivals + 1 }

/-- A resume entry goes to the region with the most eligible engines, or in LOCKSTEP to its assigned engine's; with none it
stays with dealer 0's copies (R258; DESIGN CHOICE, log entry 26). It is a dispatch of the hub (R401). -/
def State.placeResume (s : State) (k : Nat) (u : Susp) : State :=
  let r := if s.lockstep then (s.assigned k u.launch.panel).map engRegion else mostEligible (s.eligibleOf k)
  let r := r.getD (engRegion u.engine)
  let s := if (s.node k).d.isKitty then s.moveRunning k u.launch.panel r else s
  s.insertEnt r k (some u)

/-- The entry a node in a backlog for dealer `r` would make in its hand. -/
def State.backEnt (s : State) (r k : Nat) : HandEnt :=
  { key := k, pod := s.nodePod k, cls := (s.node k).d.cls, slot := (s.node k).slot, kitty := (s.node k).d.isKitty,
    share := (s.unlistedShare r k).getD 0 }

/-- A node leaves backlog `q`, and stands at the hub again (R75; DEDUCED for a backlog whose region has lost its tiles). -/
def State.leaveBacklog (s : State) (q k : Nat) : State :=
  let stays := s.lockstep && (s.node k).d.isKitty && (runsPanels (s.shareOf (q % 8) (s.backEnt (q % 8) k))).any (s.panelStays (q % 8) k)
  let s := if stays then s else
    { s with dl := { s.dl with backlog := tput [] s.dl.backlog q (eraseFirst (fun x => decide (x = k)) (tget [] s.dl.backlog q)) } }
  (s.takeBack (q % 8) (s.backEnt (q % 8) k)).1

/-- Every entry whose eligible engines moved away goes back to the hub, and the hub dispatches it again; nodes held for want
of an engine are dispatched too where `again` says so (R74, R75, R89). DL_REDISPATCH counts the returns of a rewrite, and in
LOCKSTEP those of a bench or a return to service too (R74, R89, R98). -/
def State.rehomeAnd (s : State) (rewrite : Bool) (again : Nat → Bool) : State :=
  let counted := rewrite || s.lockstep
  let moves := s.dl.dealers.flatMap fun d => (d.2.hands.filter (s.misplaced d.1)).map fun h => (d.1, h)
  let plain := moves.filter fun m => m.2.susp.isNone
  let s := s.each plain fun s m =>
    let t := s.takeBack m.1 m.2
    t.1.bump ⟨.dlRedispatch, m.1, 0⟩ (if counted then t.2 else 0)
  let s := s.each (moves.filterMap fun m => m.2.susp.map fun u => (m.1, m.2, u)) fun s m =>
    if s.eligibleOf m.2.1.key = [] then s
    else ((s.updDealer m.1 fun d => { d with hands := eraseFirst (fun x => decide (x = m.2.1)) d.hands }).bump
      ⟨.dlRedispatch, m.1, 0⟩ counted.toNat).placeResume m.2.1.key m.2.2
  let le := (s.dl.leHand.filter fun h => decide (s.eligibleOf h.key = [])).map HandEnt.key
  let s := { s with dl := { s.dl with leHand := s.dl.leHand.filter fun h => !(decide (h.key ∈ le)) } }
  let s := s.each le fun s k => s.updNode k fun n => { n with place := .hub }
  let queued := s.dl.backlog.flatMap fun q => (q.2.filter fun k => s.misplaced (q.1 % 8) (s.backEnt (q.1 % 8) k)).map fun k => (q.1, k)
  let s := s.each queued fun s m => s.leaveBacklog m.1 m.2
  let held := (s.gs.nodes.filter fun x => again x.1 && decide (x.2.place = .held) && (decide (x.2.st = .ready) || decide (x.2.st = .active))).map Prod.fst
  let s := s.each held fun s k => s.updNode k fun n => { n with place := .hub }
  let ks := (plain.map fun m => m.2.key) ++ le ++ queued.map Prod.snd ++ held
  let s := s.each (ks.foldl (fun a k => insertNat k a) []) fun s k => if s.dispatchable k ∧ s.open then s.dispatch k else s
  if s.lockstep then
    s.each ((s.gs.nodes.filter fun x => x.2.d.isKitty && decide (x.2.st = .active)).map Prod.fst) fun s k => s.placeTurn k (s.eligibleOf k)
  else s

/-- As above, with every held node: the disabled-unit map changed (R75). -/
def State.rehome (s : State) : State := s.rehomeAnd false fun _ => true

end Sys2Proof.Machine
end

