-- ==== Sys2Proof/Machine/LinkOps.lean ====
section
/-! DEFINITION. Shared operations of the Link Interface: parcels and blocks as bytes, routing, end-to-end numbering and
answers, refused decrements, and opening landing entries (R118, R291 to R300, R312, R314). -/
namespace Sys2Proof.Machine

/-! ### Parcels and blocks (R292 to R295) -/

/-- The TYPE byte (R294). -/
def PBody.typ : PBody → Nat
  | .decrement .. => 0x01 | .signal .. => 0x02 | .call .. => 0x03 | .ret .. => 0x04 | .ack .. => 0x05
  | .hello .. => 0x10 | .beat .. => 0x11 | .cutMarker .. => 0x12 | .unknown t _ => t

/-- The body from offset 0x14 (R295). -/
def PBody.bytes : PBody → List Byte
  | .decrement n c k => leBytes 4 (n % 2 ^ 20 + c % 512 * 2 ^ 20) ++ leBytes 4 (k % 2 ^ 16)
  | .signal v o c a => leBytes 4 (v % 2 ^ 24 + o % 16 * 2 ^ 24) ++ leBytes 4 (c % 512) ++ leBytes 8 (a % 2 ^ 48)
  | .call e r b l g p =>
    leBytes 4 (e % 2 ^ 20) ++ leBytes 4 (r % 2 ^ 24) ++ leBytes 4 b ++ leBytes 4 (l % 2 ^ 14 + g % 256 * 2 ^ 16) ++
    leBytes 4 (p % 2 ^ 16)
  | .ret l g p o d => leBytes 4 (l % 2 ^ 14 + g % 256 * 2 ^ 16) ++ leBytes 4 (p % 2 ^ 16) ++ leBytes 4 o ++ d
  | .ack q s r => leBytes 4 q ++ leBytes 4 (s % 256 + r % 256 * 2 ^ 8)
  | .hello p seen lo hi sys cr =>
    leBytes 1 (p % 64 + seen.toNat * 128) ++ leBytes 1 lo ++ leBytes 1 hi ++ zeros 1 ++ leBytes 4 sys ++
    (List.range 11).flatMap (fun j => leBytes 1 (cr.getD j 0)) ++ zeros 1
  | .beat v => leBytes 8 (v % 2 ^ 48)
  | .cutMarker i => leBytes 4 i
  | .unknown _ bs => bs

/-- A parcel with its 20-byte header (R293). -/
def Parcel.bytes (p : Parcel) : List Byte :=
  leBytes 1 p.body.typ ++ leBytes 1 (p.hops % 8 + p.rset % 4 * 16) ++ leBytes 2 (20 + p.body.bytes.length) ++
  leBytes 2 p.dst ++ leBytes 2 p.src ++ leBytes 2 p.slice ++ leBytes 2 p.ctx ++ leBytes 4 p.e2e ++ leBytes 2 p.incarn ++
  zeros 2 ++ p.body.bytes

/-- The body of a parcel of type `t` from its bytes from offset 0x14. -/
def parseBody (t : Nat) (b : List Byte) : PBody :=
  let n := b.length
  if t = 1 ∧ n = 8 then .decrement (leAt b 0 4 % 2 ^ 20) (leAt b 0 4 / 2 ^ 20 % 512) (leAt b 4 2)
  else if t = 2 ∧ n = 16 then .signal (leAt b 0 3) (leAt b 3 1 % 16) (leAt b 4 2 % 512) (leAt b 8 6)
  else if t = 3 ∧ n = 20 then
    .call (leAt b 0 4 % 2 ^ 20) (leAt b 4 3) (leAt b 8 4) (leAt b 12 2 % 2 ^ 14) (leAt b 14 1) (leAt b 16 2)
  else if t = 4 ∧ (n = 76 ∨ n = 140 ∨ n = 204) then
    .ret (leAt b 0 2 % 2 ^ 14) (leAt b 2 1) (leAt b 4 2) (leAt b 8 4) (b.drop 12)
  else if t = 5 ∧ n = 8 then .ack (leAt b 0 4) (leAt b 4 1) (leAt b 5 1)
  else if t = 0x10 ∧ n = 20 then
    .hello (leAt b 0 1 % 64) (decide (128 ≤ leAt b 0 1)) (leAt b 1 1) (leAt b 2 1) (leAt b 4 4)
      ((List.range 11).map fun j => leAt b (8 + j) 1)
  else if t = 0x11 ∧ n = 8 then .beat (leAt b 0 6)
  else if t = 0x12 ∧ n = 4 then .cutMarker (leAt b 0 4)
  else .unknown t b

/-- One parcel from its bytes. -/
def Parcel.ofBytes (bs : List Byte) : Parcel :=
  { hops := leAt bs 1 1 % 8, rset := leAt bs 1 1 / 16 % 4, dst := leAt bs 4 2 % 2 ^ 13, src := leAt bs 6 2 % 2 ^ 13,
    slice := leAt bs 8 2 % 2 ^ 12, ctx := leAt bs 10 2 % 512, e2e := leAt bs 12 4, incarn := leAt bs 16 2,
    body := parseBody (leAt bs 0 1) (bs.drop 20) }

/-- The parcels of a block; bytes that hold no whole parcel count as one of no known type. -/
def parseParcels : Nat → List Byte → List Parcel
  | 0, _ => []
  | _ + 1, [] => []
  | m + 1, b :: bs =>
    let len := leAt (b :: bs) 2 2 % 512
    if len < 20 ∨ bs.length + 1 < len then [{ body := .unknown (b.toNat) (b :: bs) }]
    else Parcel.ofBytes ((b :: bs).take len) :: parseParcels m ((b :: bs).drop len)

/-- A block's bytes up to its CRC (R292). -/
def Block.head (b : Block) : List Byte :=
  let ps := b.parcels.flatMap Parcel.bytes
  leBytes 2 b.seq ++ leBytes 2 b.ack ++ leBytes 1 b.nak.toNat ++ leBytes 1 (b.queue % 16) ++ leBytes 2 (ps.length % 256) ++
  leBytes 2 (b.credQ % 16 + b.credN % 256 * 16) ++ zeros 6 ++ ps

def Block.bytes (b : Block) : List Byte := b.head ++ leBytes 4 (crc32c b.head).toNat

/-- A received block; none where its CRC or its length is bad (R23). -/
def Block.ofBytes (bs : List Byte) : Option Block :=
  let len := leAt bs 6 1
  if bs.length ≠ 20 + len ∨ leAt bs (16 + len) 4 ≠ (crc32c (bs.take (16 + len))).toNat then none
  else some { seq := leAt bs 0 2, ack := leAt bs 2 2, nak := decide (leAt bs 4 1 % 2 = 1), queue := leAt bs 5 1 % 16,
              credQ := leAt bs 8 2 % 16, credN := leAt bs 8 2 / 16 % 256, parcels := parseParcels 12 ((bs.drop 16).take len) }

/-- The class of a parcel: requests, responses, control (R294). -/
def Parcel.isReq (p : Parcel) : Bool := decide (p.body.typ ≤ 3)
def Parcel.isCtl (p : Parcel) : Bool := decide (0x10 ≤ p.body.typ)

/-- The queue a parcel takes on the hop it stands before: hop h is 5 - HOPS (R291). -/
def Parcel.queue (p : Parcel) : Nat := (if p.isReq then 0 else 5) + (5 - p.hops)

/-! ### Routing and isolation (R312, R314) -/

def State.portUp (s : State) (k : Nat) : Bool := decide ((s.port k).st = .up)

/-- The usable first-hop port of a destination. -/
def State.route (s : State) (rset dst : Nat) : Option Nat :=
  let w := tget 0 s.li.routes (rset * 8192 + dst)
  if dst = s.chipId then none
  else if bit w 15 && s.portUp (bits w 0 6) then some (bits w 0 6)
  else if bit w 14 && s.portUp (bits w 8 6) then some (bits w 8 6)
  else none

/-- Port `k` takes a parcel of this slice tag. -/
def State.sliceOk (s : State) (k slice : Nat) : Bool :=
  !bit (s.reg ⟨.portCfg, k, 0⟩) 1 || decide (s.fld ⟨.portCfg, k, 0⟩ 16 12 = slice)

/-- A refusal of an isolated port: counted, and the first since the counter was last read is reported. -/
def State.sliceReject (s : State) (k slice : Nat) : State :=
  let s := s.bump ⟨.sliceRejects, k, 0⟩ 1
  if (s.port k).rejectArmed then
    (s.updPort k fun x => { x with rejectArmed := false }).report
      { typ := 0x77, source := sourceUnit 6, body := [k + slice * 2 ^ 16] }
  else s

/-- A response takes the route of its destination. Without a usable port it waits (R298, R307); an isolated port of another tag
refuses it. -/
def State.respond (s : State) (p : Parcel) : State :=
  match s.route p.rset p.dst with
  | none => { s with li := { s.li with respWait := s.li.respWait ++ [p] } }
  | some k =>
    if s.sliceOk k p.slice then
      s.updPort k fun x => { x with tx := tput [] x.tx p.queue (tget [] x.tx p.queue ++ [p]) }
    else s.sliceReject k p.slice

/-- Waiting responses are looked up again, in order. -/
def State.placeResponses (s : State) : State :=
  ({ s with li := { s.li with respWait := [] } }).each s.li.respWait State.respond

/-- Responses in a port's transmit stage that started their route here: only those stand in RSP0. -/
def State.ownResponses (s : State) (k : Nat) : List Parcel := if s.portUp k then tget [] (s.port k).tx 5 else []

/-! ### Leaving UP (R307) -/

/-- The packet argument of a port: port, REV, far chip and far port (R370). -/
def State.linkArg (s : State) (k : Nat) : Nat :=
  let f : Reg := ⟨.portFound, k, 0⟩
  k + (s.port k).rev * 2 ^ 8 + s.fld f 0 13 * 2 ^ 16 + s.fld f 16 6 * 2 ^ 32

/-- A port leaves UP: its credits, replay buffer and transmit stage are discarded, and LINK_DOWN is written with its cause. -/
def State.leaveUp (s : State) (k cause : Nat) : State :=
  if s.portUp k then
    (s.updPort k fun x =>
      { x with
        credits := [], replay := [], tx := [], ctl := [], owed := [], nakOwed := false, ackOwed := false,
        rx := x.rx.map fun q => (q.1, q.2.map fun (b : RxBlock) => { b with old := true }) }).report
      { typ := 0x71, source := sourceUnit 6, body := [k + cause * 2 ^ 8] }
  else s

/-- A port takes a new state; leaving UP is reported with its cause. A port judged to be MISMATCHED or FENCED goes on with its HELLO
(R306). Where it leaves or enters UP, the responses that start their
route here and wait are looked up again. -/
def State.toPortState (s : State) (k : Nat) (st : PortState) (cause : Nat) : State :=
  let own := s.ownResponses k
  let t := (s.leaveUp k cause).updPort k fun x =>
    { x with st := st, since := s.now, sentSeen := false, gotSeen := false, silentTold := false
             gotAny := x.gotAny && (decide (st = .mismatched) || decide (st = .fenced))
             helloAt := if st = .mismatched ∨ st = .fenced then x.helloAt else 0 }
  if s.portUp k ∨ st = .up then ({ t with li := { t.li with respWait := t.li.respWait ++ own } }).placeResponses else t

/-! ### Requests (R293, R296) -/

def State.ctxTag (s : State) (c : Nat) : Nat := s.fld ⟨.ctxSlice, c, 0⟩ 0 12
def State.ctxRset (s : State) (c : Nat) : Nat := s.fld ⟨.ctxSlice, c, 0⟩ 16 2

/-- A parcel of context `c` that starts its route here. -/
def State.newParcel (s : State) (c dst : Nat) (b : PBody) : Parcel :=
  { rset := s.ctxRset c, dst := dst, src := s.chipId, slice := s.ctxTag c, ctx := c, incarn := s.fld ⟨.liIncarn, 0, 0⟩ 0 16,
    body := b }

/-- A further request to `dst` keeps within the limits of R296. -/
def State.canNumber (s : State) (dst : Nat) : Bool :=
  decide ((s.li.unanswered.filter fun u => decide (u.dst = dst)).length < 256) && decide (s.li.unanswered.length < 4096)

/-- A request gets its number and stands in its context's send queue, or waits for a number. -/
def State.queueReq (s : State) (u : Unanswered) : State :=
  if s.canNumber u.dst ∧ ¬ s.li.numberWait.any fun w => decide (w.dst = u.dst) && decide (w.parcel.ctx = u.parcel.ctx) then
    let q := tget 0 s.li.nextE2e u.dst
    { s with li := { s.li with
      nextE2e := tput 0 s.li.nextE2e u.dst ((q + 1) % 2 ^ 32)
      unanswered := s.li.unanswered ++ [{ u with seq := q, parcel := { u.parcel with e2e := q }, sentAt := s.now, queued := true }] } }
  else { s with li := { s.li with numberWait := s.li.numberWait ++ [u] } }

/-- A request of context `c` to another chip. -/
def State.sendReq (s : State) (c dst : Nat) (b : PBody) (a : Asker) : State :=
  s.queueReq { dst := dst, seq := 0, parcel := s.newParcel c dst b, asker := a, sentAt := s.now, pod := s.podOf c }

/-- Requests that waited for a number get one where the limits allow. -/
def State.numberNext (s : State) : State :=
  let ws := s.li.numberWait
  ({ s with li := { s.li with numberWait := [] } }).each ws State.queueReq

/-! ### Answers (R295, R297, R299) -/

/-- Whom an answer goes to: source chip, number, route set, slice. -/
abbrev E2e := Nat × Nat × Nat × Nat

def Parcel.e2eOf (p : Parcel) : E2e := (p.src, p.e2e, p.rset, p.slice)

/-- The STATUS kept for a number that is taken and not yet answered. -/
def notAnswered : Nat := 255

def State.src (s : State) (c : Nat) : SrcChip := tget {} s.li.srcs c
def State.updSrc (s : State) (c : Nat) (f : SrcChip → SrcChip) : State :=
  { s with li := { s.li with srcs := tput {} s.li.srcs c (f (s.src c)) } }

def State.ackTo (s : State) (r : E2e) (status reason : Nat) : State :=
  s.respond { rset := r.2.2.1, dst := r.1, src := s.chipId, slice := r.2.2.2, incarn := s.fld ⟨.liIncarn, 0, 0⟩ 0 16,
              body := .ack r.2.1 status reason }

/-- A taken request is answered: the answer is recorded and sent. -/
def State.answerReq (s : State) (r : E2e) (status reason : Nat) : State :=
  match tfind (s.src r.1).taken r.2.1 with
  | some (255, _) =>
    (s.updSrc r.1 fun x => { x with taken := tinsert x.taken r.2.1 (status, reason) }).ackTo r status reason
  | _ => s

/-! ### What a refusal does to its sender (R195, R223, R300) -/

/-- End what a node belongs to with a status: its command, or the nodes of the serving call it belongs to. -/
def State.endOwner (s : State) (k status : Nat) : State :=
  match (s.node k).cmd with
  | some (n, q) => s.endCmd n q status 0
  | none =>
    match (s.node k).call with
    | some x => s.endNodes ((s.gs.nodes.filter fun e => decide (e.2.call = some x) && decide (e.2.st ≠ .free)).map Prod.fst)
    | none => s

/-- Release of a node with ORPHANED: its command is ended, and DEP_ORPHANED names the node and what it depended on (R223). -/
def State.depOrphan (s : State) (k arg : Nat) : State :=
  let s := s.report { typ := 0x32, status := stDEP_ORPHANED, source := sourceUnit 3, ctx := some (nkCtx k), body := [s.nodeArg k, arg] }
  (s.updNode k fun n => { n with sent := false }).endOwner k stDEP_ORPHANED

/-- A REMOTE or SIGNAL node whose request is answered OK completes (R70, R220); one that was being ended is FOLDED (R195). -/
def State.remoteOk (s : State) (k : Nat) : State :=
  let n := s.node k
  if n.st ≠ .active then s
  else if n.ending then (s.updNode k fun n => { n with sent := false }).setFolded k
  else ((s.updNode k fun n => { n with sent := false }).complete k).settle

/-- A REMOTE node's decrement is refused (R300). -/
def State.decRefused (s : State) (k reason : Nat) : State :=
  let n := s.node k
  if n.st ≠ .active then s
  else if n.ending then (s.updNode k fun n => { n with sent := false }).setFolded k
  else if reason = 8 then s.depOrphan k (n.d.destChip + n.d.destCtx * 2 ^ 16 + 2 ^ 63)
  else s.failNode k { cause := 0x70, detail := reason % 256 + n.d.destChip * 2 ^ 8 } (sourceUnit 6)

/-! ### Landing entries (R118, R119) -/

/-- The lowest number at or above `n` that an ascending list does not hold. -/
def lowestGap : Nat → List Nat → Nat
  | n, [] => n
  | n, u :: us => if u < n then lowestGap n us else if u = n then lowestGap (n + 1) us else n

/-- The lowest FREE landing entry, if there is one. -/
def State.freeLanding (s : State) : Option Nat :=
  let l := lowestGap 0 ((s.li.landings.filter fun x => decide (x.2.st ≠ .free)).map Prod.fst)
  if l < 16384 then some l else none

/-- Open a landing entry: GEN advances and RECEIVED is 0. -/
def State.openLanding (s : State) (l c : Nat) (o : LandOwner) (epoch base expect : Nat) (node : Option Nat) (expert : Nat) : State :=
  s.updLanding l fun x =>
    { st := .isOpen, gen := x.gen + 1, ctx := c, owner := o, epoch := epoch, base := base, expect := expect, node := node
      opener := match node with | some k => (s.node k).order | none => 0
      expert := expert }

end Sys2Proof.Machine
end

