-- ==== Sys2Proof/Machine/SyncOps.lean ====
section
/-! DEFINITION. Shared operations of the Sync Unit: translation, the operations of R206, waiters, donations, residency and
orphaning (R198 to R225, R245, R246, R266 to R268). -/
namespace Sys2Proof.Machine

/-! ### Weights residency (R266, R267) -/

/-- PARKED nodes whose weights are all in place return to READY, in the order they parked. -/
def State.unpark (s : State) : State :=
  let go := s.gs.parkList.filter fun k => decide ((s.node k).st = .parked) && !s.weightsAbsent (nkCtx k)
  ({ s with gs := { s.gs with parkList := s.gs.parkList.filter fun k => !decide (k ∈ go) } }).each go State.makeReady

/-- A LOADING entry whose flag reads 1 enters its target. -/
def State.loadDone (s : State) : State :=
  let res := s.rs.resid.map fun (x : Nat × ResEnt) =>
    if x.2.st = 1 ∧ (s.obj x.2.flag).kind = 0 ∧ (s.obj x.2.flag).alloc ∧ (s.obj x.2.flag).value = 1 then
      (x.1, { x.2 with st := x.2.target }) else x
  if res = s.rs.resid then s else ({ s with rs := { s.rs with resid := res } }).unpark

/-! ### Objects by key: flag and claim f has key f, tally t has key 2^18 + t -/

def objKey (kind idx : Nat) : Nat := if kind = 2 then 2 ^ 18 + idx else idx
def objIdx (key : Nat) : Nat := if key < 2 ^ 18 then key else key - 2 ^ 18
/-- PHYS [17:0] and KIND [19:18] of a packet. -/
def State.objArg (s : State) (key : Nat) : Nat := objIdx key + (s.obj key).kind * 2 ^ 18

/-- Physical index `i` lies in the range of pod `p` for a kind (R200). -/
def State.inPodRange (s : State) (p kind i : Nat) : Bool :=
  if kind = 2 then
    let v := s.reg ⟨.podTallies, p, 0⟩
    decide (bits v 0 16 ≤ i) && decide (i < bits v 0 16 + bits v 32 17)
  else
    let v := s.reg ⟨.podFlags, p, 0⟩
    decide (bits v 0 18 ≤ i) && decide (i < bits v 0 18 + bits v 32 19)

def State.syCheck (s : State) : Bool := bit (s.reg ⟨.syCfg, 0, 0⟩) 0

/-- A STATUS bit of an object is set by an event: counted for the context concerned, and reported when it goes from 0 to 1
(R211). -/
def State.misuse (s : State) (key b c : Nat) : State :=
  let o := s.obj key
  let s := s.bump (ctxCnt c 13) 1
  if bit o.status b then s
  else
    (s.setObj key { o with status := setBit o.status b true }).report
      { typ := 0x30, source := sourceUnit 3, ctx := some c,
        body := [s.objArg key + b * 2 ^ 24, o.lastSrc.toNat + o.lastId.toNat * 2 ^ 32] }

/-! ### Acquires (R235, R245, R246) -/

/-- A party: an engine of this chip, a hub unit, or another chip. -/
inductive Party where
  | engine (e : Nat)
  | hub
  | other
  deriving DecidableEq, Repr

/-- A scope contains both parties (R230). -/
def scopeHolds (sc : Nat) : Party → Party → Bool
  | .engine a, .engine b =>
    if isLE a ∨ isLE b then decide (2 ≤ sc)
    else decide (2 ≤ sc) || (decide (engRegion a = engRegion b) && (decide (sc = 1) || decide (engTile a = engTile b)))
  | .other, _ | _, .other => decide (3 ≤ sc)
  | _, _ => decide (2 ≤ sc)

def SyncObj.lastParty (o : SyncObj) : Party :=
  if o.lastSrc = 1 then .engine (o.lastId.toNat % 2 ^ 14) else if o.lastSrc = 2 then .hub else .other

/-- A release of engine `e` on an object covers the writes of its that wait (R234). -/
def State.coverWrites (s : State) (key e : Nat) : State :=
  s.updMemWait fun m => if m.holds e then { m with on := insertNat key m.on } else m

/-- An acquire on an object makes visible to engine `e` the writes that releases on it cover (R236). -/
def State.seeWrites (s : State) (key e : Nat) : State :=
  s.updMemWait fun m => if key ∈ m.on then { m with seen := insertNat e m.seen } else m

/-- An acquire (R235, R236), with the test of R246. -/
def State.acquire (s : State) (key sc c : Nat) (who : Party) : State :=
  let s := match who with | .engine e => s.seeWrites key e | _ => s
  let o := s.obj key
  if s.syCheck ∧ o.lastSrc ≠ 0 ∧ ¬ scopeHolds (min sc o.lastScope.toNat) o.lastParty who then s.misuse key 5 c else s

/-! ### Waiters (R216, R217) -/

/-- A condition code of R43 holds on an object: 0 FLAG_SET, 1 FLAG_CLEAR, 2 TALLY_AT_LEAST. -/
def SyncObj.holds (o : SyncObj) (cond thr : Nat) : Bool :=
  match cond with
  | 0 => decide (o.value ≠ 0)
  | 1 => decide (o.value = 0)
  | 2 => decide (thr ≤ o.value.toNat)
  | _ => false

/-- Every change of an object is written to the open watch entries of the engines that wait on it (R217). -/
def State.mirrorAll (s : State) (key : Nat) : State :=
  s.each ((s.obj key).waiters.filter fun w => w.engine) fun s w => s.emit (.mirror w.who (s.obj key).value)

def State.dropWaiter (s : State) (key : Nat) (w : Waiter) : State :=
  s.updObj key fun o => { o with waiters := eraseFirst (fun x => decide (x = w)) o.waiters }

/-- A WAIT node completes; its acquire is at its scope, widened to chip (R245). -/
def State.waitDone (s : State) (key k sc : Nat) : State :=
  let s := s.acquire key (max sc 2) (nkCtx k) .hub
  if (s.node k).st = .active then (s.complete k).settle else s

/-- A waiter is released with OK (R213). -/
def State.releaseOk (s : State) (key : Nat) (w : Waiter) : State :=
  let s := s.dropWaiter key w
  if w.engine then
    ((((s.acquire key w.scope w.ctx (.engine w.who)).updEng w.who fun x => { x with watch := none }).unblockOf w.who).emit (.answer w.who .ok 0))
  else s.waitDone key w.who w.scope

/-- A waiter is released with ORPHANED (R222, R223). -/
def State.releaseOrphan (s : State) (key : Nat) (w : Waiter) : State :=
  let s := s.dropWaiter key w
  if w.engine then ((s.updEng w.who fun x => { x with watch := none }).unblockOf w.who).emit (.answer w.who .orphaned 0)
  else s.depOrphan w.who (s.objArg key)

/-- Waiters other than claimers whose condition holds are released, in list order (R214, R215). -/
def State.testWaiters (s : State) (key : Nat) : State :=
  let go := (s.obj key).waiters.filter fun w => !w.claimer && (s.obj key).holds w.cond w.thr
  s.each go fun s w => s.releaseOk key w

/-- After every operation the waiters' conditions are tested (R214), and residency is looked at. -/
def State.objTested (s : State) (key : Nat) : State := (s.testWaiters key).loadDone

/-- VALUE changed: mirrors, waiters and residency learn of it. -/
def State.objChanged (s : State) (key : Nat) : State := (s.mirrorAll key).objTested key

/-- Records in use by WAIT nodes. -/
def State.nodeRecords (s : State) : Nat := (s.sy.objs.map fun o => (o.2.waiters.filter fun w => !w.engine).length).sum

/-! ### Donations (R268) -/

/-- Context `c` is pre-empted. -/
def State.preempted (s : State) (c : Nat) : Bool :=
  decide ((s.ctx c).st = .saving) || decide ((s.ctx c).st = .saved) ||
  s.dl.dealers.any fun d => d.2.hands.any fun h => h.susp.isSome && decide (nkCtx h.key = c)

/-- PRIO of a claimer's queue slot. -/
def State.waiterPrio (s : State) (w : Waiter) : Nat :=
  if w.engine then
    match (s.eng w.who).job with
    | some l => s.slotPrio l.slot
    | none => 0
  else s.slotPrio (s.node w.who).slot

/-- A donation begins on a claim where both conditions hold. -/
def State.checkDonation (s : State) (key : Nat) : State :=
  let o := s.obj key
  let h := o.owner.toNat
  if o.alloc ∧ o.kind = 1 ∧ o.value = 1 ∧ ¬ o.orphaned ∧ s.preempted h ∧ ¬ (s.sy.donations.any fun d => decide (d.flag = key)) then
    match o.waiters.find? fun w => w.claimer && decide (s.waiterPrio w = 3) with
    | none => s
    | some w =>
      let told := decide ((s.ctx h).st = .saved)
      let s := { s with sy := { s.sy with donations := s.sy.donations ++ [{ flag := key, holder := h, since := s.now, told := told }] } }
      if told then
        s.report { typ := 0x33, source := sourceUnit 3, ctx := some h,
                   body := [h + key * 2 ^ 18, if w.engine then w.who + 2 ^ 63 else s.nodeArg w.who] }
      else s
  else s

/-- After a context or a task is pre-empted, claims with trump claimers are looked at again. -/
def State.checkDonations (s : State) : State := s.each (tkeys s.sy.objs) State.checkDonation

def State.endDonation (s : State) (key : Nat) : State :=
  { s with sy := { s.sy with donations := s.sy.donations.filter fun d => decide (d.flag ≠ key) } }

/-! ### Answers to whoever asked -/

def SyncSrc.ctx : SyncSrc → Nat
  | .node k => nkCtx k
  | .engine _ c => c
  | .remote _ _ c => c

/-- The party of a requester. -/
def SyncSrc.party : SyncSrc → Party
  | .node _ => .hub
  | .engine e _ => .engine e
  | .remote .. => .other

/-- The translation or the check of an operation failed (R205, R220). -/
def State.syncFail (s : State) (q : SyncReq) (cause : Nat) : State :=
  match q.src with
  | .node k => s.failNode k { cause := cause, detail := q.vid } (sourceUnit 3)
  | .engine e c =>
    let s := if q.op.waits then s.emit (.answer e .fault 0) else s
    s.ctxFault c { cause := cause, engine := some e, node := if q.stray then none else (s.eng e).job.map Launch.node, detail := q.vid } (sourceUnit 3)
  | .remote .. =>
    match q.e2e with
    | some r => s.answerReq r 2 (if cause = 0x53 then 5 else 4)
    | none => s

/-- A signalling operation has been applied, refused or discarded: a SIGNAL node completes, a remote SIGNAL is answered OK. -/
def State.signalDone (s : State) (q : SyncReq) : State :=
  match q.src with
  | .node k => if (s.node k).st = .active then (s.complete k).settle else s
  | .engine .. => s
  | .remote .. => match q.e2e with
    | some r => s.answerReq r 0 0
    | none => s

/-! ### The operations (R206 to R213) -/

/-- A signalling operation is a release, and writes LAST_SRC, LAST_ID and LAST_SCOPE (R199, R220, R234, R245). -/
def State.signalled (s : State) (key : Nat) (q : SyncReq) : State :=
  (match q.src with | .engine e _ => s.coverWrites key e | _ => s).updObj key fun o => match q.src with
    | .node k => { o with lastSrc := 2, lastId := BitVec.ofNat 32 (nkIdx k + nkCtx k * 2 ^ 20), lastScope := BitVec.ofNat 2 (max q.scope 2) }
    | .engine e _ => { o with lastSrc := 1, lastId := BitVec.ofNat 32 e, lastScope := BitVec.ofNat 2 q.scope }
    | .remote chip c _ => { o with lastSrc := 3, lastId := BitVec.ofNat 32 (c + chip * 2 ^ 9), lastScope := 3 }

/-- SET (R207). -/
def State.setFlag (s : State) (key c : Nat) : State :=
  let o := s.obj key
  if o.value = 1 then
    (s.setObj key { o with overset := if o.overset = 255 then 255 else o.overset + 1 }).misuse key 0 c |>.objTested key
  else (s.setObj key { o with value := 1 }).objChanged key

/-- CLEAR (R206). -/
def State.clearFlag (s : State) (key : Nat) : State :=
  if (s.obj key).value = 0 then s.objTested key else (s.updObj key fun o => { o with value := 0 }).objChanged key

/-- ADVANCE (R208, R209, R211). -/
def State.advance (s : State) (key amt c : Nat) : State :=
  let o := s.obj key
  let v := o.value.toNat
  let p := (s.obj (2 ^ 18 + o.partner.toNat)).value.toNat
  if o.role = 2 ∧ p < v + amt then s.misuse key 2 c
  else if o.role = 1 ∧ p + o.depth.toNat < v + amt then s.misuse key 3 c
  else if 2 ^ 48 ≤ v + amt then ((s.setObj key { o with value := BitVec.ofNat 48 (2 ^ 48 - 1) }).misuse key 1 c).objChanged key
  else (s.setObj key { o with value := BitVec.ofNat 48 (v + amt) }).objChanged key

/-- A claim is granted to a context (R210); with CHECK 1 the mirror of an engine records it (R225). -/
def State.grant (s : State) (key c : Nat) (e : Option Nat) : State :=
  let s := s.updObj key fun o => { o with value := 1, owner := BitVec.ofNat 9 c }
  match e with
  | none => s
  | some e => if s.syCheck then s.updEng e fun x => { x with claims := insertNat key x.claims } else s

/-- No task holds claim `key` any more: not one on an engine, nor one suspended, in a hand or with a saved context (R225). -/
def State.forgetClaim (s : State) (key : Nat) : State :=
  let drop (u : Susp) : Susp := { u with claims := u.claims.filter (· ≠ key) }
  let dl := s.dl.mapDealers fun d => { d with hands := d.hands.map fun h => { h with susp := h.susp.map drop } }
  { s with
    dl := { dl with engines := s.dl.engines.map fun (x : Nat × Engine) => (x.1, { x.2 with claims := x.2.claims.filter (· ≠ key) }) }
    gs := { s.gs with ctxs := s.gs.ctxs.map fun (x : Nat × Ctx) =>
      (x.1, { x.2 with keptSusp := x.2.keptSusp.map fun (u : Nat × Susp) => (u.1, drop u.2) }) } }

/-- RELEASE (R210): by the holder, the first claimer is granted, or the claim becomes free. A donation on the claim ends, and one to
the new holder may begin (R268). -/
def State.release (s : State) (key c : Nat) : State :=
  let o := s.obj key
  if o.value = 0 ∨ o.owner.toNat ≠ c then s.misuse key 4 c
  else
    let s := (s.endDonation key).forgetClaim key
    match o.waiters.find? fun w => w.claimer with
    | some w => (((s.grant key w.ctx (if w.engine then some w.who else none)).mirrorAll key).releaseOk key w).checkDonation key
    | none => (s.updObj key fun o => { o with value := 0, owner := 0 }).objChanged key

/-- The answer word of a READ (R213). -/
def SyncObj.word (o : SyncObj) : Nat :=
  if o.kind = 2 then o.value.toNat
  else o.value.toNat % 2 + (if o.kind = 1 ∧ o.value = 1 then o.owner.toNat * 2 ^ 48 else 0)

/-- Waiter records that WAIT nodes may use (R216). -/
def nodeRecordLimit : Nat := 131072 - 4256

/-- A WAIT node must wait for a record: none is left, or another waits before it (R216). -/
def State.recordWaits (s : State) (k : Nat) : Bool :=
  decide (nodeRecordLimit ≤ s.nodeRecords) || (match s.sy.recWait with | x :: _ => decide (x.1 ≠ k) | [] => false)

/-- A WAIT or CLAIM of a node or an engine joins the waiter list (R216, R217); a WAIT node that finds no record waits for one, with
its translation entry. -/
def State.enlist (s : State) (key : Nat) (q : SyncReq) (w : BitVec 64) (claimer : Bool) (cond thr : Nat) : State :=
  match q.src with
  | .node k =>
    if s.recordWaits k then
      { s with sy := { s.sy with recWait := if s.sy.recWait.any fun x => decide (x.1 = k) then s.sy.recWait
                                            else s.sy.recWait ++ [(k, w)] } }
    else
      let ord := s.sy.regOrd + 1
      let s := { s with sy := { s.sy with regOrd := ord, recWait := s.sy.recWait.filter fun x => decide (x.1 ≠ k) } }
      (s.updNode k fun n => { n with ord := ord }).updObj key fun o =>
        { o with waiters := o.waiters ++ [{ who := k, ctx := nkCtx k, claimer := claimer, cond := cond, thr := thr, scope := q.scope }] }
  | .engine e c =>
    let s := s.updEng e fun x => { x with watch := some { obj := key, vid := q.vid, claim := claimer, cond := cond, thr := thr, scope := q.scope } }
    (s.updObj key fun o =>
      { o with waiters := o.waiters ++ [{ engine := true, who := e, ctx := c, claimer := claimer, cond := cond, thr := thr, scope := q.scope }] }).emit
        (.mirror e (s.obj key).value)
  | .remote .. => s

/-- A wait or claim that is over at once, with an answer. -/
def State.answerWait (s : State) (key : Nat) (q : SyncReq) (a : Answer) (w : Nat) : State :=
  match q.src with
  | .engine e c =>
    let s := if a = .ok then s.acquire key q.scope c (.engine e) else s
    s.emit (.answer e a (BitVec.ofNat 64 w))
  | .node k => if a = .ok then s.waitDone key k q.scope else if a = .orphaned then s.depOrphan k (s.objArg key) else s
  | .remote .. => s

/-- WAIT: released at once where the condition holds (R207). A node must find a record first (R216). -/
def State.waitOn (s : State) (key : Nat) (q : SyncReq) (w : BitVec 64) (cond thr : Nat) : State :=
  match q.src with
  | .node _ =>
    let t := s.enlist key q w false cond thr
    if (t.obj key).waiters ≠ (s.obj key).waiters then t.testWaiters key else t
  | _ => if (s.obj key).holds cond thr then s.answerWait key q .ok 0 else s.enlist key q w false cond thr

/-- CLAIM (R210). -/
def State.claimOn (s : State) (key : Nat) (q : SyncReq) (w : BitVec 64) : State :=
  match q.src with
  | .node k =>
    let t := s.enlist key q w true 3 0
    if (t.obj key).waiters = (s.obj key).waiters then t
    else if (s.obj key).value = 0 then
      match (t.obj key).waiters.getLast? with
      | some w => (((t.grant key (nkCtx k) none).mirrorAll key).releaseOk key w).objTested key
      | none => t
    else t.checkDonation key
  | .engine e c =>
    if (s.obj key).value = 0 then ((s.grant key c (some e)).objChanged key).answerWait key q .ok 0
    else (s.enlist key q w true 3 0).checkDonation key
  | .remote .. => s

/-- TRY_CLAIM (R210). -/
def State.tryClaimOn (s : State) (key : Nat) (q : SyncReq) : State :=
  match q.src with
  | .engine e c => if (s.obj key).value = 0 then ((s.grant key c (some e)).objChanged key).answerWait key q .ok 0 else s.answerWait key q .busy 0
  | _ => s

/-- SYNC_OPS and OB_CTX_SYNC count an operation (R400, R401). -/
def State.countOp (s : State) (q : SyncReq) : State :=
  let s := s.bump (gcnt 5) 1
  match q.src with | .remote .. => s | _ => s.bump (ctxCnt q.src.ctx 12) 1

/-- An operation on a local object that passed its checks with the entry `w` (R206, R222). -/
def State.applyOp (s : State) (key : Nat) (q : SyncReq) (w : BitVec 64) : State :=
  let c := q.src.ctx
  let o := s.obj key
  if o.orphaned then
    match q.op with
    | .set | .clear | .advance _ | .release => (s.bump ⟨.orphanOps, 0, 0⟩ 1).signalDone q
    | .read => s.answerWait key q .orphaned o.word
    | _ => s.answerWait key q .orphaned 0
  else match q.op with
    | .set => ((s.signalled key q).setFlag key c).signalDone q
    | .clear => ((s.signalled key q).clearFlag key).signalDone q
    | .advance a => ((s.signalled key q).advance key a c).signalDone q
    | .release => ((s.signalled key q).release key c).signalDone q
    | .read => s.answerWait key q .ok o.word
    | .wait cond thr => s.waitOn key q w cond thr
    | .claim => s.claimOn key q w
    | .tryClaim => s.tryClaimOn key q

/-! ### Translation (R202 to R206, R220) -/

/-- The operation suits an entry KIND: 0 FLAG, 1 TALLY, 2 CLAIM, 3 REMOTE (R203, R206). -/
def SyncOp.suits (k : Nat) : SyncOp → Bool
  | .set | .clear => decide (k = 0) || decide (k = 3)
  | .advance _ => decide (k = 1) || decide (k = 3)
  | .release | .claim | .tryClaim => decide (k = 2)
  | .read => decide (k ≤ 2)
  | .wait cond _ => if cond = 2 then decide (k = 1) else decide (k = 0) || decide (k = 2)

/-- Operation code and amount of a SIGNAL parcel (R295). -/
def SyncOp.wire : SyncOp → Nat × Nat
  | .clear => (1, 0) | .advance a => (2, a) | _ => (0, 0)

/-- A SET, CLEAR or ADVANCE on a REMOTE entry leaves as a SIGNAL parcel (R220). -/
def State.sendSignal (s : State) (q : SyncReq) (w : BitVec 64) : State :=
  let body : PBody := .signal (bits w 0 24) q.op.wire.1 (bits w 24 9) q.op.wire.2
  match q.src with
  | .node k => (s.sendReq (nkCtx k) (bits w 33 13) body (.node k)).updNode k fun n => { n with sent := true }
  | .engine e c =>
    if q.stray then s.sendReq c (bits w 33 13) body .none
    else (s.sendReq c (bits w 33 13) body (.engine e)).updEng e fun x => { x with posted := x.posted + 1 }
  | .remote .. => s

/-- The object kind of a translation entry's KIND: 0 FLAG, 1 TALLY, 2 CLAIM (R199, R203). -/
def entryKind (w : BitVec 64) : Nat := if bits w 61 2 = 1 then 2 else if bits w 61 2 = 2 then 1 else 0

/-- The object that a local translation entry names. -/
def entryKey (w : BitVec 64) : Nat := objKey (entryKind w) (bits w 0 18)

def SyncSrc.isRemote : SyncSrc → Bool
  | .remote .. => true
  | _ => false

/-- Why an operation with the translation entry it uses is not performed, judged in the order of its causes (R203, R205). -/
def State.entryCause (s : State) (q : SyncReq) (w : BitVec 64) : Option Nat :=
  let k := bits w 61 2
  let o := s.obj (entryKey w)
  if ¬ bit w 63 ∨ (k = 3 ∧ bits w 46 15 ≠ 0) ∨ (k ≠ 3 ∧ bits w 18 43 ≠ 0) ∨ (k = 1 ∧ bits w 16 2 ≠ 0) then some 0x50
  else if k = 3 then (if q.src.isRemote ∨ ¬ q.op.suits 3 then some 0x52 else none)
  else if ¬ s.inPodRange (s.podOf q.src.ctx) (entryKind w) (bits w 0 18) then some 0x51
  else if ¬ q.op.suits k ∨ (o.alloc ∧ o.kind ≠ entryKind w) then some 0x52
  else if ¬ o.alloc then some 0x53
  else none

/-- An operation with the translation entry it uses: refused, sent to another chip, or applied here. -/
def State.withEntry (s : State) (q : SyncReq) (w : BitVec 64) : State :=
  match s.entryCause q w with
  | some cause => s.syncFail q cause
  | none => if bits w 61 2 = 3 then s.sendSignal q w else (s.countOp q).applyOp (entryKey w) q w

/-- The cached entry of a VID. -/
def State.cached (s : State) (c v : Nat) : Option (BitVec 64) :=
  (s.sy.cache.find? fun x => decide (x.1 = c) && decide (x.2.1 = v)).map fun x => x.2.2

/-- An operation waits for its translation. -/
def State.xlatPush (s : State) (q : SyncReq) : State := { s with sy := { s.sy with xlatWait := s.sy.xlatWait ++ [q] } }

/-- An operation of the same context and VID waits for its translation. -/
def State.xlatBefore (s : State) (q : SyncReq) : Bool :=
  s.sy.xlatWait.any fun (x : SyncReq) => decide (x.src.ctx = q.src.ctx) && decide (x.vid = q.vid)

/-- An operation reaches the Sync Unit, whose clock it starts (R380): a VID at or above LIMIT fails, a cached one goes on behind those
that wait, any other waits (R202, R204, R215). All wait for a Sync Unit that is stopped under KL-400 compatibility (R382). -/
def State.syncOp (s0 : State) (q : SyncReq) : State :=
  let s := s0.wake 3
  if s.gated 3 then s.xlatPush q
  else if s.fld ⟨.xlatLimit, q.src.ctx, 0⟩ 0 25 ≤ q.vid then s.syncFail q 0x50
  else match s.cached q.src.ctx q.vid with
    | some w => if s.xlatBefore q then s.xlatPush q else s.withEntry q w
    | none => s.xlatPush q

/-- An operation leaves its engine's port: a release of chip or system scope only when the engine's earlier writes are acknowledged,
and none before an earlier one (R213, R219). At the tile store and the region ordering point a write is acknowledged as soon as it is made (R230). -/
def State.portReq (s : State) (q : SyncReq) : State :=
  match q.src with
  | .engine e _ =>
    if (s.writesWait e ∧ ¬ q.op.waits ∧ 2 ≤ q.scope) ∨ s.sy.portWait.any fun x => x.src.isEngine e then
      { s with sy := { s.sy with portWait := s.sy.portWait ++ [q] } }
    else s.syncOp q
  | _ => s.syncOp q

/-- Operations held at the ports leave, in the order they were made, where nothing holds them any more. -/
def State.portGo (s : State) : State := ({ s with sy := { s.sy with portWait := [] } }).each s.sy.portWait State.portReq

/-- Drop the cached entries of a context (R204). -/
def State.flushXlat (s : State) (c : Nat) : State := { s with sy := { s.sy with cache := s.sy.cache.filter fun x => decide (x.1 ≠ c) } }

/-! ### Orphaning (R222) and leftovers (R225) -/

/-- Objects that a teardown of context `c` orphans: those whose OWNER it is, and claims it holds. -/
def State.objectsOf (s : State) (c : Nat) : List Nat :=
  (s.sy.objs.filter fun o => o.2.alloc && !o.2.orphaned && decide (o.2.owner.toNat = c) &&
    (decide (o.2.kind ≠ 1) || decide (o.2.value = 1))).map Prod.fst

/-- An object becomes orphaned: VALUE is frozen, and every waiter is released. -/
def State.orphan (s : State) (key : Nat) : State :=
  let s := ((s.updObj key fun o => { o with orphaned := true }).endDonation key).mirrorAll key
  s.each (s.obj key).waiters fun s w => s.releaseOrphan key w

/-- Claims that a completing task took and its context still holds (R225). -/
def State.leftovers (s : State) (e c : Nat) : State :=
  if s.syCheck then
    s.each ((s.eng e).claims.filter fun key => decide ((s.obj key).value = 1) && decide ((s.obj key).owner.toNat = c)) fun s key =>
      s.misuse key 6 c
  else s

end Sys2Proof.Machine
end

