-- ==== Sys2Proof/Machine/Bench.lean ====
section
/-! DEFINITION. Shared operations of benching: the disabled-unit map, judging the work of a benched unit, escalation, a
region's return of its work, Align (R25, R26, R86, R88, R349 to R358, R379). -/
namespace Sys2Proof.Machine

/-! ### Align (R379) -/

/-- Align over a set of regions: every synchroniser FIFO is reset to a depth of 4 entries, and the pointers of R81 and the leads of R253
are 0. -/
def State.align (s : State) (rs : List Nat) : State :=
  let s := s.each rs fun s r => s.updDealer r fun d => { d with ptr := [], slotNo := 0, lead := some 4 }
  let s := { s with dl := { s.dl with
    lePtr := [], leSlotNo := 0, pods := s.dl.pods.map fun (p : Nat × Pod) => (p.1, { p.2 with lead := [], elapsed := [] }) } }
  s.emit (.align s.det)

/-! ### The disabled-unit map (R349) -/

/-- The 832 bytes of the map block. -/
def State.mapBlock (s : State) : List Byte :=
  leBytes 8 (s.reg ⟨.mapSeq, 0, 0⟩).toNat ++ leBytes 1 (s.reg ⟨.benchRegions, 0, 0⟩).toNat ++ zeros 3 ++
  leBytes 4 (s.reg ⟨.benchLe, 0, 0⟩).toNat ++ zeros 48 ++
  (List.range 384).flatMap fun i => leBytes 2 (s.reg ⟨.benchCells, i, 0⟩).toNat

/-- The map changed: MAP_SEQ advances and the map block is written; in LOCKSTEP it disturbs (R356). -/
def State.mapChange (s : State) : State :=
  let s := (s.bump ⟨.mapSeq, 0, 0⟩ 1).disturb 6
  let a := (s.reg ⟨.mapAddr, 0, 0⟩).toNat
  let s := s.emit .mapBlock
  if a = 0 then s else (s.writeBytes devSpace a s.mapBlock).getD s

/-! ### Judging the work of a benched unit (R86, R350) -/

inductive Verdict where
  /-- Ended or failed already: it counts as killed. -/
  | gone
  | rerun
  | lost (cause : Nat)
  deriving DecidableEq, Repr

def State.verdict (s : State) (e : Nat) (l : Launch) : Verdict :=
  let n := s.node l.key
  if n.ending ∨ (n.st ≠ .ready ∧ n.st ≠ .active) then .gone
  else if (s.eng e).turnHeld ∧ n.d.isKitty then .lost 0x92
  else if n.d.rerunSafe then .rerun
  else .lost 0x91

/-- Start reports of engine `e` that the hub has not taken are dropped. -/
def State.dropStarts (s : State) (e : Nat) : State :=
  { s with dl := { s.dl with starts := s.dl.starts.filter fun x => decide (x.1 ≠ e) } }

/-- A panel goes back to its share in dealer `r` as undrawn, reopening the kitty entry; a benched region's panel goes back to
the hub (R86, R353). -/
def State.returnPanel (s : State) (r k p : Nat) : State :=
  let away := bit (s.reg ⟨.benchRegions, 0, 0⟩) r
  let id := (((s.dealer r).shares.find? fun (h : Share) => decide (h.key = k) && decide (p ∈ h.running)).map Share.id).getD 0
  let s := s.updDealer r fun d =>
    { d with shares := (d.shares.map fun (h : Share) => if h.key = k ∧ h.id = id then
        { h with running := h.running.filter (· ≠ p), undrawn := if away then h.undrawn else runsAdd p h.undrawn,
                 size := if away then h.size - 1 else h.size } else h).filter
                         fun (h : Share) => !(away && decide (h.key = k) && h.empty) }
  if away then s.updNode k fun n => { n with runs := some (runsAdd p (n.runs.getD [])), place := .hub }
  else if (s.dealer r).holds k id ∨ (s.lockstep ∧ s.shareListed r k) then s
  else s.updDealer r fun d =>
    { d with hands := d.hands ++ [{ key := k, pod := s.nodePod k, cls := (s.node k).d.cls, slot := (s.node k).slot, kitty := true,
                                    share := id, arrive := d.arrivals, cycle := 2 * (s.reg (gcnt 0)).toNat }]
             arrivals := d.arrivals + 1 }

/-- A returned panel of BITEXACT recalls the highest waiting panel above it, where every eligible ME of the share is busy with
waiting panels of the node; its engine is held for the returned panel until the reset is done (R88). -/
def State.recall (s : State) (r k p : Nat) : State :=
  let es := (s.eligibleOf k).filter fun e => decide (engRegion e = r)
  let waits (e : Nat) : Bool := (s.eng e).turnAsk && (match (s.eng e).job with | some l => decide (l.key = k) | none => false)
  let panel (e : Nat) : Nat := ((s.eng e).job.map Launch.panel).getD 0
  if s.det = 1 ∧ es ≠ [] ∧ es.all waits then
    let top := (es.map panel).foldl max 0
    match es.find? fun e => decide (panel e = top) with
    | some e =>
      if p < top then
        let s := ((((((s.dropStarts e).killPort e).freeUp e).updEng e fun x => { x with reset := some s.now, held := some k }).emit
          (.cellReset e))).returnPanel r k top
        let s := s.updDealer r fun d =>
          { d with hands := updFirst (fun h => decide (h.key = k) && h.kitty && decide (runsMin (s.shareOf r h) = some p))
                              (fun h => { h with want := some e }) d.hands
                   confirmed := d.confirmed ++ [(k, e)] }
        s.bump ⟨.dlRecalls, r, 0⟩ 1
      else s
    | none => s
  else s

/-- A killed task or panel is counted for its command. -/
def State.countKilled (s : State) (k : Nat) : State := s.updCmdOf k fun c => { c with killed := c.killed + 1 }

/-- The outcome of one task or panel of a unit benched at a level. -/
def State.judge (s : State) (level e : Nat) (l : Launch) (v : Verdict) : State :=
  let k := l.key
  let kitty := (s.node k).d.isKitty
  match v with
  | .rerun =>
    if kitty then
      let s := s.returnPanel (engRegion e) k l.panel
      if (s.node k).spoiled then (s.dropPanels k).kittyEnd k else s.recall (engRegion e) k l.panel
    else s.makeReady k
  | .gone =>
    let s := s.countKilled k
    if kitty then s.panelEnd (engRegion e) k l.panel false
    else if (s.node k).ending ∧ ((s.node k).st = .active ∨ (s.node k).st = .ready) then s.setFolded k
    else s
  | .lost c =>
    let s := s.countKilled k
    let s := if kitty then s.panelEnd (engRegion e) k l.panel false else s
    s.failNode k { cause := c, engine := some e, level := level } e

/-! ### Benching (R350 to R354) -/

/-- One step of a bench: level of R339 (0 cell, 1 tile, 2 region, 3 chip: a region lost, or an LE), unit, reason, and the cells it takes. -/
structure BenchStep where
  level : Nat
  unit : Nat
  reason : Nat
  esc : Bool := false
  cells : List Nat

/-- The cells of a tile and of a region, by engine ID. -/
def tileCells (ti : Nat) : List Nat := (List.range 11).map fun b => cellId (ti / 48) (ti % 48) b
def regionCells (r : Nat) : List Nat := (List.range 48).flatMap fun t => tileCells (48 * r + t)

/-- Steps 1 and 2 of R350: the cell leaves the map and is reset; what it ran is judged later. -/
def State.takeCell (s : State) (e : Nat) : State :=
  ((((s.dropStarts e).killPort e).freeUp e).updEng e fun x => { x with held := none, reset := some s.now }).emit (.cellReset e)

/-- The bits a step sets in the map. -/
def State.markBench (s : State) (b : BenchStep) : State :=
  let s := s.each b.cells fun s e =>
    if isLE e then s.orReg ⟨.benchLe, 0, 0⟩ (BitVec.ofNat 64 (2 ^ (e - 8192)))
    else if b.level = 3 then s
    else s.orReg ⟨.benchCells, engTileIdx e, 0⟩ (BitVec.ofNat 64 (2 ^ engCell e))
  if b.level = 1 then s.orReg ⟨.benchCells, b.unit, 0⟩ (BitVec.ofNat 64 (2 ^ 15))
  else if 2 ≤ b.level ∧ ¬ isLE b.unit then s.orReg ⟨.benchRegions, 0, 0⟩ (BitVec.ofNat 64 (2 ^ b.unit))
  else s

/-- A service core is reset: its execution state and local memory are cleared (R372), and core 8's reset ends a monitor session
(R420). -/
def State.resetCore (s : State) (k st : Nat) : State :=
  let s := if k = 8 then { s with sv := { s.sv with session := false } } else s
  (s.updCore k fun c => { c with st := st, mem := [], entry := 0 }).emit (.coreReset k)

/-- A service core is held in reset (R353, R359). -/
def State.holdCore (s : State) (k : Nat) : State := s.resetCore k 4

/-- A lost or emptied region gives up what the hub had sent it: offers leave it out, and confirmed offers are dispatched
again. Its backlogs go back to the hub (R353). -/
def State.clearRegion (s : State) (r : Nat) : State :=
  let conf := (s.dealer r).confirmed
  let s := s.each conf fun s c => s.updEng c.2 fun x => { x with held := none }
  let s := s.updDealer r fun d => { d with confirmed := [], rebuild := false, pathDown := false }
  let redo := (conf.map Prod.fst).filter (fun k => decide ((s.node k).place = .offer)) ++
    (s.dl.offers.filterMap fun o => match o.confirm with | some y => if y.1 = r then some o.key else none | none => none)
  let s := { s with dl := { s.dl with offers := s.dl.offers.map fun (o : Offer) =>
    { o with
      regions := o.regions.filter (· ≠ r), asked := o.asked.filter (· ≠ r),
      transit := o.transit.filter (fun a => decide (a.1 ≠ r)), got := o.got.filter (fun a => decide (a.1 ≠ r)),
      confirm := (match o.confirm with | some y => if y.1 = r then none else some y | none => none),
      withdraw := o.withdraw.filter fun w => decide (w.1 ≠ r) } } }
  let back := (List.range 16).flatMap fun p => tget [] s.dl.backlog (p * 8 + r)
  let s := { s with dl := { s.dl with backlog := s.dl.backlog.filter fun b => decide (b.1 % 8 ≠ r) } }
  let s := s.each back fun s k =>
    if (s.node k).d.isKitty then
      let undrawn := ((s.dealer r).shares.filter fun (h : Share) => decide (h.key = k)).flatMap fun (h : Share) => runsPanels h.undrawn
      let s := s.updDealer r fun d =>
        { d with shares := (d.shares.map fun (h : Share) => if h.key = k then { h with undrawn := [], size := h.size - runsCount h.undrawn } else h).filter
                             fun (h : Share) => decide (h.key ≠ k) || !h.empty }
      s.updNode k fun n => { n with runs := some (undrawn.foldl (fun a p => runsAdd p a) (n.runs.getD [])) }
    else s
  let ks := (redo ++ back).foldl (fun a k => insertNat k a) []
  let s := s.each ks fun s k => (s.updNode k fun n => { n with place := .hub })
  (s.each ks fun s k => if s.dispatchable k ∧ s.open then s.dispatch k else s).pruneOffers

/-- A bench with its escalations: cells leave the map and are reset; the map changes and one UNIT_BENCHED is written per step,
lowest level first; then the work is judged, and entries whose engines moved away are dispatched again (R350 to R353, R371). -/
def State.bench (s : State) (steps : List BenchStep) : State :=
  let work : List (Nat × Nat × Launch × Verdict) := steps.flatMap fun b => b.cells.filterMap fun e =>
    (s.eng e).job.map fun l => (b.level, e, l, s.verdict e l)
  let s := s.each (steps.flatMap BenchStep.cells) State.takeCell
  let s := s.each steps fun s b =>
    let mine := work.filter fun w => decide (w.2.1 ∈ b.cells)
    let re := (mine.filter fun w => decide (w.2.2.2 = .rerun)).length
    let bad := (mine.filter fun w => match w.2.2.2 with | .lost _ => true | _ => false).length
    let s := ((s.markBench b).mapChange).pinEvent 2
    s.report { typ := 0x23, source := sourceUnit 9,
               body := [b.level + b.reason * 2 ^ 4 + b.esc.toNat * 2 ^ 8 + b.unit * 2 ^ 16, (s.reg ⟨.mapSeq, 0, 0⟩).toNat,
                        min re 65535 + min bad 65535 * 2 ^ 16] }
  let s := s.each work fun s w => s.judge w.1 w.2.1 w.2.2.1 w.2.2.2
  let s := s.each (steps.filter fun b => decide (2 ≤ b.level) && !isLE b.unit) fun s b => (s.clearRegion b.unit).holdCore b.unit
  s.rehome

/-- The escalation of a tile bench: a region left with no ME in service (R25, R353). `out` are the cells taken already. -/
def State.regionStep (s : State) (ti : Nat) (out : List Nat) : List BenchStep :=
  let r := ti / 48
  let left := (regionCells r).filter fun e => !s.benched e && !decide (e ∈ out)
  if left.any fun e => decide (engClass e = 0) then [] else [{ level := 2, unit := r, reason := 5, esc := true, cells := left }]

/-- The bench of a tile and what it escalates to; `out` are cells taken already. -/
def State.tileSteps (s : State) (ti reason : Nat) (esc : Bool) (out : List Nat) : List BenchStep :=
  let cs := (tileCells ti).filter fun e => !s.benched e && !decide (e ∈ out)
  { level := 1, unit := ti, reason := reason, esc := esc, cells := cs } :: s.regionStep ti (out ++ cs)

/-- The bench of a cell and what it escalates to (R352): a second cell of the tile within 1 µs, or a class exhausted: any of the
three classes, be it the failing cell's own or one that the map has emptied before (DEDUCED, log entry 81). The tile bench that
follows has ESCALATED 1 in both cases (DEDUCED, log entry 81). -/
def State.benchCell (s : State) (e reason : Nat) : State :=
  if s.benched e then s else
  let ti := engTileIdx e
  let pair := s.fc.recent.any fun x => decide (x.1 ≠ e) && decide (engTileIdx x.1 = ti) && decide (s.now ≤ x.2 + 1)
  let left := (tileCells ti).filter fun x => !s.benched x && decide (x ≠ e)
  let empty := !((List.range 3).all fun c => left.any fun x => decide (engClass x = c))
  let s := { s with fc := { s.fc with recent := (e, s.now) :: s.fc.recent.filter fun x => decide (s.now ≤ x.2 + 1) } }
  s.bench ({ level := 0, unit := e, reason := reason, cells := [e] } ::
    (if pair then s.tileSteps ti 4 true [e] else if empty then s.tileSteps ti 5 true [e] else []))

/-- A tile fault (R352). -/
def State.benchTile (s : State) (ti reason : Nat) : State :=
  if bit (s.reg ⟨.benchCells, ti, 0⟩) 15 ∨ bit (s.reg ⟨.benchRegions, 0, 0⟩) (ti / 48) then s else s.bench (s.tileSteps ti reason false [])

/-- A region is lost (R353, R357, R358): every cell in service is judged, and completion reports it holds are taken. -/
def State.loseRegion (s : State) (r reason : Nat) : State :=
  if bit (s.reg ⟨.benchRegions, 0, 0⟩) r then s else
  s.bench [{ level := 3, unit := r, reason := reason, esc := true, cells := (regionCells r).filter fun e => !s.benched e }]

/-- A link engine is benched (R354): its task is judged, and its two ports enter DISABLED. -/
def State.benchLE (s : State) (k reason : Nat) : State :=
  if s.benched (leId k) then s else
  let s := s.bench [{ level := 3, unit := leId k, reason := reason, cells := [leId k] }]
  (s.toPortState (2 * k) .disabled 3).toPortState (2 * k + 1) .disabled 3

end Sys2Proof.Machine
end

