-- ==== Sys2Proof/Machine/Deal.lean ====
section
/-! DEFINITION. The hub's dispatch, offer rounds, the dealers' issue slots and the combine turn, as commands (R74 to R90, R96). -/
namespace Sys2Proof.Machine

/-! ### Dispatch and offer rounds -/

/-- NODE_DISPATCH (R76). -/
def State.nodeDispatch (s : State) (k : Nat) : State :=
  if s.dispatchable k ∧ s.runs 1 ∧ s.open then s.dispatch k else s

def execNodeDispatch (c i : Nat) (s : State) : Host.Outcome State Fault Refusal := .next (s.nodeDispatch (nk c i))

/-- Dealer `r` answers offers and takes orders from the hub. -/
def State.dealerOn (s : State) (r : Nat) : Bool :=
  s.runs 2 && !(s.dealer r).rebuild && !(s.dealer r).pathDown && !bit (s.reg ⟨.benchRegions, 0, 0⟩) r

/-- OFFER_ANSWER (R77 step 2). -/
def State.offerAnswer (s : State) (r k : Nat) : State :=
  let here (o : Offer) : Bool := decide (o.key = k) && decide (r ∈ o.asked)
  if (s.dl.offers.any here) ∧ s.dealerOn r ∧ s.open then
    let free := s.freeIn r k
    let p := s.nodePod k
    let cls := (s.node k).d.cls
    match pickFrom (s.pickPtr r p cls) free with
    | none => s.updOffer here fun o => { o with asked := o.asked.filter (· ≠ r), transit := o.transit ++ [(r, none)] }
    | some e =>
      let s := (s.movePtr r p cls e).updEng e fun x => { x with held := some k }
      s.updOffer here fun o => { o with asked := o.asked.filter (· ≠ r), transit := o.transit ++ [(r, some (e, free.length))] }
  else s

def execOfferAnswer (r c i : Nat) (s : State) : Host.Outcome State Fault Refusal := .next (s.offerAnswer r (nk c i))

/-- ANSWER_ARRIVAL (R77 steps 3 and 4): an answer is held for the window; one that comes late counts as NO, and its YES is
withdrawn. -/
def State.answerArrival (s : State) (r k : Nat) : State :=
  let here (o : Offer) : Bool := decide (o.key = k) && o.transit.any fun a => decide (a.1 = r)
  match s.dl.offers.find? here with
  | none => s
  | some o =>
    if ¬ s.runs 1 ∨ (s.dealer r).pathDown then s else
    match o.transit.find? fun a => decide (a.1 = r) with
    | none => s
    | some a =>
      (s.updOffer here fun o =>
        { o with
          transit := dropRegion r o.transit
          got := if o.closed then o.got else o.got ++ [a]
          withdraw := if o.closed then o.withdraw ++ (a.2.map fun h => (r, h.1)).toList else o.withdraw }).pruneOffers

def execAnswerArrival (r c i : Nat) (s : State) : Host.Outcome State Fault Refusal := .next (s.answerArrival r (nk c i))

/-- A single task goes to the hand of the region with the most eligible engines (R77 step 5), or is held (R75). -/
def State.toLargest (s : State) (k : Nat) : State :=
  match mostEligible (s.eligibleOf k) with
  | some r => s.toDealer r k
  | none => s.holdNode k

/-- COLLECT_WINDOW_CLOSE (R77 steps 4 and 5). -/
def State.windowClose (s : State) (k : Nat) : State :=
  let here (o : Offer) : Bool := decide (o.key = k) && !o.closed
  match s.dl.offers.find? here with
  | none => s
  | some o =>
    if ¬ s.runs 1 ∨ ¬ s.open then s else
    match bestYes o.got with
    | none => ((s.updOffer here fun o => { o with closed := true, got := [] }).toLargest k).pruneOffers
    | some y =>
      let rest := (o.got.filterMap fun a => a.2.map fun h => (a.1, h.1)).filter fun w => decide (w.1 ≠ y.1)
      ((s.updOffer here fun o => { o with closed := true, got := [], confirm := some y, withdraw := o.withdraw ++ rest }).bump
        (gcnt 2) 1).pruneOffers

def execCollectWindowClose (c i : Nat) (s : State) : Host.Outcome State Fault Refusal := .next (s.windowClose (nk c i))

/-- The round of node `k` has a confirmation on its way to dealer `r`. -/
def Offer.confirms (o : Offer) (k r : Nat) : Bool :=
  decide (o.key = k) && (match o.confirm with | some y => decide (y.1 = r) | none => false)

/-- OFFER_CONFIRM (R77): the confirmation waits for the next issue slot, or is answered REJECT and the hub runs a new round. -/
def State.offerConfirm (s : State) (r k : Nat) : State :=
  let here (o : Offer) : Bool := o.confirms k r
  match (s.dl.offers.find? here).bind Offer.confirm with
  | none => s
  | some y =>
    if ¬ s.runs 2 ∨ (s.dealer r).pathDown then s else
    let s := s.updOffer here fun o => { o with confirm := none }
    let s := if (s.eng y.2).held = some k ∧ ¬ s.benched y.2 then
        s.updDealer r fun d => { d with confirmed := d.confirmed ++ [(k, y.2)] }
      else (s.updNode k fun n => { n with place := .hub }).dispatch k
    s.pruneOffers

def execOfferConfirm (r c i : Nat) (s : State) : Host.Outcome State Fault Refusal := .next (s.offerConfirm r (nk c i))

/-- OFFER_WITHDRAW (R77 step 4): the held engine is free again. -/
def State.offerWithdraw (s : State) (r k : Nat) : State :=
  let here (o : Offer) : Bool := decide (o.key = k) && o.withdraw.any fun w => decide (w.1 = r)
  match (s.dl.offers.find? here).bind fun o => o.withdraw.find? fun w => decide (w.1 = r) with
  | none => s
  | some w =>
    if ¬ s.runs 2 ∨ (s.dealer r).pathDown then s else
    let s := s.updOffer here fun o => { o with withdraw := dropRegion r o.withdraw }
    (if (s.eng w.2).held = some k then s.updEng w.2 fun x => { x with held := none } else s).pruneOffers

def execOfferWithdraw (r c i : Nat) (s : State) : Host.Outcome State Fault Refusal := .next (s.offerWithdraw r (nk c i))

/-- BACKLOG_DISPATCH (R79): the oldest node of one backlog, if its quotas allow. -/
def State.backlogDispatch (s : State) (p r : Nat) : State :=
  if s.runs 1 ∧ s.open ∧ ¬ (s.dealer r).pathDown then s.fromBacklog p r else s

def execBacklogDispatch (p r : Nat) (s : State) : Host.Outcome State Fault Refusal := .next (s.backlogDispatch p r)

/-! ### Issue slots (R82, R90) -/

/-- ME issue is stopped in region `r` (R363, R364). -/
def State.meStopped (s : State) (r : Nat) : Bool := s.dipped r || s.dipped 8

/-- What a stop lets a dealer deal (R415): while QUIESCING, resume entries, and undrawn panels below a running panel of the
same node that waits for its turn. -/
def State.entAllowed (s : State) (r : Nat) (h : HandEnt) : Bool :=
  !s.saveHolds h.key &&
  (s.open || (decide (s.ob.stop = .quiescing) && (h.susp.isSome || (h.kitty && decide (s.drawable r h ≠ [])))))

/-- The engine an entry of dealer `r` would be dealt to now (R81, R89). -/
def State.entEngine (s : State) (r : Nat) (h : HandEnt) : Option Nat :=
  if h.cls = 0 ∧ s.meStopped r then none
  else if s.lockstep then
    let ps := if h.kitty then s.drawable r h
      else [match h.susp with | some u => u.launch.panel | none => 0]
    (ps.filterMap (s.assigned h.key)).find? fun e => decide (engRegion e = r) && s.freeEngine e
  else pickFrom (s.pickPtr r h.pod h.cls) (s.freeIn r h.key)

/-- The hands of an issue slot, in the order they are scanned: after the hand last served, wrapping; in LOCKSTEP the one hand
of the slot's position (R82, R90). -/
def State.slotHands (s : State) (r : Nat) : List Nat :=
  if s.lockstep then
    let pods := (List.range 16).filter fun p => (List.range 48).any fun t => s.ownsTile p (48 * r + t)
    let rot := pods.flatMap fun p => [3 * p, 3 * p + 1, 3 * p + 2]
    if rot = [] then [] else (rot[(s.dealer r).slotNo % rot.length]?).toList
  else (List.range 48).map fun j => ((s.dealer r).last + 1 + j) % 48

/-- The first entry that can be dealt, with its hand and its engine. -/
def State.dealChoice (s : State) (r : Nat) : Option (Nat × HandEnt × Nat) :=
  (s.slotHands r).findSome? fun h =>
    ((s.hand r (h / 3) (h % 3)).take 8).findSome? fun x =>
      if s.entAllowed r x then (s.entEngine r x).map fun e => (h, x, e) else none

/-- The first confirmed offer or victim's entry of dealer `r`. -/
def State.confirmedHead (s : State) (r : Nat) : Option (Nat × Nat) :=
  if ¬ s.open then none
  else (s.dealer r).confirmed.find? fun c => (s.eng c.2).reset.isNone && !(decide (engClass c.2 = 0) && s.meStopped r)

/-- Deal a confirmed entry on its held engine: the entry it is held for, or the first of the node in the hands. A hold that a bench
has taken away is a REJECT: the hub dispatches again (R77), and the slot goes unused, as where no entry is left (R98). -/
def State.dealConfirmed (s : State) (r : Nat) (c : Nat × Nat) : State :=
  let s := s.updDealer r fun d => { d with confirmed := eraseFirst (fun x => decide (x = c)) d.confirmed }
  let n := s.node c.1
  let hs := (s.dealer r).hands
  let ent := (hs.find? fun h => decide (h.key = c.1) && decide (h.want = some c.2)) <|> hs.find? fun h => decide (h.key = c.1)
  if (s.eng c.2).held ≠ some c.1 ∨ s.benched c.2 then
    let s := s.bump ⟨.dlIdle, r, 0⟩ 1
    if n.place = .offer then (s.updNode c.1 fun n => { n with place := .hub }).dispatch c.1 else s
  else match ent with
    | some h => (s.updEng c.2 fun x => { x with held := none }).dealEnt r h c.2
    | none =>
      if n.st = .ready ∧ n.place = .offer then (s.bump ⟨.dlIssued, r, 0⟩ 1).launch c.2 c.1 0 r
      else (s.updEng c.2 fun x => { x with held := none }).bump ⟨.dlIdle, r, 0⟩ 1

/-- ISSUE_SLOT (R82, R89, R90); while a LOSSLESS trace stops issue the slot goes unused (R410). -/
def State.issueSlot (s : State) (r : Nat) : State :=
  if ¬ s.runs 2 ∨ (s.dealer r).rebuild ∨ bit (s.reg ⟨.benchRegions, 0, 0⟩) r then s
  else
    let t := if s.ob.lossStop then s.bump ⟨.dlIdle, r, 0⟩ 1 else match s.confirmedHead r with
      | some c => s.dealConfirmed r c
      | none =>
        match s.dealChoice r with
        | some (h, x, e) =>
          let s := if s.lockstep then s else s.movePtr r x.pod x.cls e
          (s.dealEnt r x e).updDealer r fun d => { d with last := h }
        | none => s.bump ⟨.dlIdle, r, 0⟩ 1
    t.updDealer r fun d => { d with slotNo := d.slotNo + 1 }

def execIssueSlot (r : Nat) (s : State) : Host.Outcome State Fault Refusal := .next (s.issueSlot r)

/-! ### The link deal stage (R96) -/

/-- The LE an entry would be dealt to: its assigned LE in LOCKSTEP, else the first free one at or after the pod's pointer. -/
def State.leEngine (s : State) (h : HandEnt) : Option Nat :=
  let ptr := tget 0 s.dl.lePtr h.pod
  if s.lockstep then (s.assigned h.key 0).filter s.freeEngine
  else minBy (fun e => (e - 8192 + 32 - ptr) % 32) ((s.eligibleOf h.key).filter s.freeEngine)

def State.leHands (s : State) : List Nat :=
  if s.lockstep then [s.dl.leSlotNo % 16] else (List.range 16).map fun j => (s.dl.leLast + 1 + j) % 16

def State.leChoice (s : State) : Option (Nat × HandEnt × Nat) :=
  s.leHands.findSome? fun p =>
    let hs := s.dl.leHand.filter fun h => decide (h.pod = p)
    ((sortBy (s.before hs) hs).take 8).findSome? fun h => (s.leEngine h).map fun e => (p, h, e)

/-- LE_ISSUE_SLOT (R96): the LE task is dealt, its node becomes ACTIVE, and its START edges are applied. -/
def State.leIssueSlot (s : State) : State :=
  if ¬ s.runs 6 ∨ ¬ s.open then s
  else
    let t := match s.leChoice with
      | none => s
      | some (p, h, e) =>
        let ptr := if s.lockstep then s.dl.lePtr else tput 0 s.dl.lePtr p ((e - 8192 + 1) % 32)
        let s := { s with dl := { s.dl with leHand := eraseFirst (fun x => decide (x = h)) s.dl.leHand, leLast := p, lePtr := ptr } }
        let s := s.launch e h.key 0 12
        ((s.updNode h.key fun n => { n with st := .active, startedAt := s.now }).applyStart h.key).settle
    { t with dl := { t.dl with leSlotNo := t.dl.leSlotNo + 1 } }

def execLeIssueSlot (s : State) : Host.Outcome State Fault Refusal := .next s.leIssueSlot

/-! ### Start reports, shares and the combine turn -/

/-- The path from an engine to the hub carries reports. -/
def State.pathUp (s : State) (e : Nat) : Bool := isLE e || !(s.dealer (engRegion e)).pathDown

/-- START_REPORT (R84, R95): the node's first start report makes it ACTIVE and applies its START edges. -/
def State.startReport (s : State) (e : Nat) : State :=
  match s.dl.starts.find? fun x => decide (x.1 = e) with
  | none => s
  | some (_, l) =>
    if ¬ s.runs 1 ∨ ¬ s.pathUp e then s else
    let s := { s with dl := { s.dl with starts := eraseFirst (fun x => decide (x = (e, l))) s.dl.starts } }
    if (s.node l.key).st = .ready then
      let at0 := if (s.eng e).job = some l then (s.eng e).startTick else s.now
      ((s.updNode l.key fun n => { n with st := .active, startedAt := at0 }).applyStart l.key).settle
    else s

def execStartReport (e : Nat) (s : State) : Host.Outcome State Fault Refusal := .next (s.startReport e)

/-- SHARE_DONE (R85): the dealer's report that a share is done, one report for each share. -/
def State.shareDone (s : State) (r k : Nat) : State :=
  let mine (h : Share) : Bool := decide (h.key = k) && h.reported
  if (s.dealer r).shares.any mine ∧ s.runs 1 ∧ ¬ (s.dealer r).pathDown ∧ ¬ (s.dl.starts.any fun x => decide (x.2.key = k)) then
    (s.updDealer r fun d => { d with shares := eraseFirst mine d.shares }).kittyEnd k
  else s

def execShareDone (r c i : Nat) (s : State) : Host.Outcome State Fault Refusal := .next (s.shareDone r (nk c i))

/-- COMBINE_REQUEST (R87): the turn is granted at once, or when every lower panel has passed. -/
def State.combineRequest (s : State) (e : Nat) : State :=
  match (s.eng e).job with
  | none => s
  | some l => if s.runs 2 then (s.updEng e fun x => { x with turnAsk := true }).grantTurns l.key else s

def execCombineRequest (e : Nat) (s : State) : Host.Outcome State Fault Refusal := .next (s.combineRequest e)

/-- COMBINE_DONE (R87): the panel passes the turn. -/
def State.combineDone (s : State) (e : Nat) : State :=
  match (s.eng e).job with
  | none => s
  | some l =>
    if s.runs 2 then (s.updEng e fun x => { x with turnAsk := false, turnHeld := false }).passPanels l.key [l.panel] else s

def execCombineDone (e : Nat) (s : State) : Host.Outcome State Fault Refusal := .next (s.combineDone e)

end Sys2Proof.Machine
end

