-- ==== Sys2Proof/Machine/Ends.lean ====
section
/-! DEFINITION. The ends of tasks and panels as commands: completions, drains and cell resets (R32, R85, R93 to R95, R120,
R195, R220, R225, R467). -/
namespace Sys2Proof.Machine

/-- The packet and record argument of a panel and its status (R405). -/
def completeArg (panel : Nat) (st : CellStatus) : Nat := panel % 2 ^ 16 + (if st = .error then 2 ^ 16 else 0)

/-- A completion report is accepted: counted and traced (R401, R405). -/
def State.accepted (s : State) (e : Nat) (l : Launch) (st : CellStatus) : State :=
  (s.bump (gcnt 4) 1).traceNode 3 (if isLE e then 12 else engRegion e) l.key (some e) (completeArg l.panel st)

/-- The record of an engine's ERROR: cause 0x80 where the cell refused a floating-point atomic (R324), else 0x90 (R94). -/
def errorRec (e : Nat) (l : Launch) (w : BitVec 32) : FaultRec :=
  { cause := if l.det ≠ 0 ∧ Config.saysFpAtomic w then 0x80 else 0x90, engine := some e, detail := w.toNat }

/-- The call of a remote send task that completed with OK (R120): one EXPERT_CALL, and its landing entry's timeout starts. -/
def State.sendCall (s : State) (k : Nat) : State :=
  let n := s.node k
  match n.fan with
  | none => s
  | some f =>
    match f.landing with
    | none => s
    | some l =>
      if f.callSent ∨ n.d.cls ≠ 3 then s else
      let x := s.landing l
      let s := s.updNode k fun n => { n with fan := some { f with callSent := true } }
      let s := s.updLanding l fun x => { x with callAt := some s.now }
      s.sendReq (nkCtx k) f.chip (.call f.sysExpert f.kept f.rowBytes l x.gen.toNat x.epoch) (.landing l)

/-- A single task or sprout task has ended: its node completes, or its sprout buffer is read next; a SPROUT that is being
ended is FOLDED (R32, R68, R195). -/
def State.singleOk (s : State) (k : Nat) : State :=
  let n := s.node k
  if n.st ≠ .active ∧ n.st ≠ .ready then s
  else if n.d.kind = .sprout then
    if n.ending then s.setFolded k else s.updNode k fun n => { n with st := .active, place := .unit }
  else
    let s := s.sendCall k
    ((s.updNode k fun n => { n with st := .active, ending := false }).complete k).settle

/-- A report with ERROR: the node fails and its context faults, or, during an ending, the node is FOLDED (R94, R195). -/
def State.endError (s : State) (k : Nat) (f : FaultRec) (e : Nat) : State :=
  let n := s.node k
  if n.st ≠ .active ∧ n.st ≠ .ready then s
  else if n.ending then if n.d.isKitty then s.kittyEnd k else s.setFolded k
  else s.failNode k f e

/-- The cell port takes the report of engine `e`'s task: the engine is free, and claims left held are marked (R93, R225). -/
def State.portAccept (s : State) (e : Nat) (l : Launch) : State := (s.leftovers e l.ctx).freeUp e

/-- ENGINE_COMPLETION (R93): accepted once every write of the engine is acknowledged and its posted requests are answered (R220).
A panel's OK is the dealer's own (R85); every other report goes on to the hub. -/
def State.engineDone (s : State) (e : Nat) (st : CellStatus) (w : BitVec 32) : State :=
  let x := s.eng e
  match x.job with
  | none => s
  | some l =>
    if isLE e ∨ x.drain.isSome ∨ x.reset.isSome ∨ s.portHolds e ∨ ¬ s.hubOn ∨ s.gated 2 then s else
    let st := if x.postedLost then .error else st
    let kitty := (s.node l.key).d.isKitty
    let s := s.portAccept e l
    if kitty ∧ st = .ok then (s.panelEnd (engRegion e) l.key l.panel true).accepted e l st
    else
      let s := if kitty then s.panelEnd (engRegion e) l.key l.panel false else s
      { s with dl := { s.dl with reports := s.dl.reports ++ [EngReport.mk e l st w] } }

def execEngineCompletion (e : Nat) (st : CellStatus) (word : BitVec 32) (s : State) : Host.Outcome State Fault Refusal :=
  .next (s.engineDone e st word)

/-- COMPLETION_ACCEPT (R32, R95): the hub takes the report of engine `e`, after the task's start report. The reports of a region
reach it in the order its cell ports accepted them. -/
def State.completionAccept (s : State) (e : Nat) : State :=
  match s.dl.reports.find? fun r => decide (engRegion r.e = engRegion e) with
  | none => s
  | some r =>
    if r.e ≠ e ∨ ¬ s.runs 1 ∨ ¬ s.pathUp e ∨ (s.dl.starts.any fun x => decide (x = (e, r.job))) then s else
    let s := { s with dl := { s.dl with reports := eraseFirst (fun x => decide (x = r)) s.dl.reports } }
    let s := s.accepted e r.job r.st
    if r.st = .ok then s.singleOk r.job.key
    else (s.endError r.job.key (errorRec e r.job r.word) e).settle

def execCompletionAccept (e : Nat) (s : State) : Host.Outcome State Fault Refusal := .next (s.completionAccept e)

/-- LE_COMPLETION (R467): a link engine's report reaches the Link Interface, and its decrements are applied. -/
def State.leDone (s : State) (k : Nat) (st : CellStatus) (w : BitVec 32) : State :=
  let e := leId k
  let x := s.eng e
  match x.job with
  | none => s
  | some l =>
    if x.drain.isSome ∨ x.reset.isSome ∨ s.portHolds e ∨ ¬ s.takes 6 then s else
    let st := if x.postedLost then .error else st
    let s := (s.portAccept e l).accepted e l st
    if st = .ok then s.singleOk l.key else (s.endError l.key (errorRec e l w) e).settle

def execLeCompletion (k : Nat) (st : CellStatus) (word : BitVec 32) (s : State) : Host.Outcome State Fault Refusal :=
  .next (s.reach 6 (.leCompletion k st word) fun s => s.leDone k st word)

/-! ### Drains and resets (R195) -/

/-- DRAIN_REPORT: the engine reports before it is reset, and the task counts as drained. -/
def State.drainDone (s : State) (e : Nat) (st : CellStatus) : State :=
  let x := s.eng e
  match x.job with
  | none => s
  | some l =>
    if x.drain.isNone ∨ x.reset.isSome ∨ s.portHolds e ∨ ¬ s.hubOn then s else
    let k := l.key
    let s := if (s.node k).d.isKitty then s else s.dropStarts e
    let s := s.updCmdOf k fun c => { c with drained := c.drained + 1 }
    let s := (s.portAccept e l).accepted e l st
    if (s.node k).d.isKitty then s.panelEnd (engRegion e) k l.panel (decide (st = .ok))
    else if st = .ok then s.singleOk k
    else if (s.node k).st = .active ∨ (s.node k).st = .ready then s.setFolded k
    else s

def execDrainReport (e : Nat) (st : CellStatus) (s : State) : Host.Outcome State Fault Refusal := .next (s.drainDone e st)

/-- The cell is reset, the lines of its unacknowledged writes are poisoned, those that wait at the region's ordering point and the
`lines` on their way beyond it, and TASK_KILLED is written (R195, R247). -/
def State.killCell (s : State) (e : Nat) (l : Launch) (lines : List Nat) : State :=
  ((((s.updEng e fun x => { x with reset := some s.now }).emit (.cellReset e)).killPort e).poisonLines lines).report
    { typ := 0x15, status := stPOISONED, source := e, ctx := some l.ctx,
      body := [s.nodeArg l.key + l.panel % 2 ^ 16 * 2 ^ 32, (s.node l.key).tag] }

/-- DRAIN_LIMIT_EXPIRY: no report within LIMIT µs of the drain. The cell is reset, and the node becomes FOLDED. -/
def State.drainExpiry (s : State) (e : Nat) (lines : List Nat) : State :=
  let x := s.eng e
  match x.job, x.drain with
  | some l, some t =>
    if x.reset.isSome ∨ s.now < t + s.fld ⟨.drainLimit, 0, 0⟩ 0 16 ∨ ¬ s.hubOn then s else
    let k := l.key
    let s := s.killCell e l lines
    let s := (if (s.node k).d.isKitty then s else s.dropStarts e).countKilled k
    if (s.node k).d.isKitty then s.panelEnd (engRegion e) k l.panel false
    else if (s.node k).st = .active ∨ (s.node k).st = .ready then s.setFolded k
    else s
  | _, _ => s

def execDrainLimitExpiry (e : Nat) (lines : List Nat) (s : State) : Host.Outcome State Fault Refusal := .next (s.drainExpiry e lines)

/-- CELL_RESET_DONE: the reset has completed, which is the engine's acknowledgement. -/
def State.resetDone (s : State) (e : Nat) : State :=
  if (s.eng e).reset.isSome ∧ s.hubOn then (s.freeUp e).updEng e fun x => { x with reset := none, drain := none } else s

def execCellResetDone (e : Nat) (s : State) : Host.Outcome State Fault Refusal := .next (s.resetDone e)

/-- CELL_RESET_TIMEOUT: a reset that has not completed within 2 µs benches the cell, which is its acknowledgement (R350). -/
def State.resetTimeout (s : State) (e : Nat) : State :=
  match (s.eng e).reset with
  | none => s
  | some t =>
    if s.now < t + 2 ∨ ¬ s.hubOn then s else
    let s := (s.freeUp e).updEng e fun x => { x with reset := none, drain := none }
    if isLE e then s.benchLE (e - 8192) 3 else s.benchCell e 3

def execCellResetTimeout (e : Nat) (s : State) : Host.Outcome State Fault Refusal := .next (s.resetTimeout e)

end Sys2Proof.Machine
end

