-- ==== Sys2Proof/Machine/RosterOps.lean ====
section
/-! DEFINITION. Shared operations of the Roster: the four lists, the page pool, retirement, admission, extension and folding
of sequences (R130 to R140, R144 to R147, R154). -/
namespace Sys2Proof.Machine

/-! ### Parameters of roster `k` (R132, R454) -/

def State.roEnabled (s : State) (k : Nat) : Bool := bit (s.reg ⟨.roCtrl, k, 0⟩) 0
def State.roClosed (s : State) (k : Nat) : Bool := bit (s.reg ⟨.roCtrl, k, 0⟩) 1
def State.roLogEn (s : State) (k : Nat) : Bool := bit (s.reg ⟨.roCtrl, k, 0⟩) 4
def State.roReplayEn (s : State) (k : Nat) : Bool := bit (s.reg ⟨.roCtrl, k, 0⟩) 5
def State.roCtx (s : State) (k : Nat) : Nat := s.fld ⟨.roCfg, k, 0⟩ 0 9
def State.pageShift (s : State) (k : Nat) : Nat := s.fld ⟨.roCfg, k, 0⟩ 16 4
def State.pageTokens (s : State) (k : Nat) : Nat := 2 ^ s.pageShift k
/-- Slot `q` lies in the roster's window (R130). -/
def State.inWindow (s : State) (k q : Nat) : Bool :=
  let b := s.fld ⟨.roSlots, k, 0⟩ 0 14
  decide (b ≤ q) && decide (q < b + s.fld ⟨.roSlots, k, 0⟩ 16 15)

/-- Slots of the roster that are not FREE, ascending. -/
def State.rosterSeqs (s : State) (k : Nat) : List Nat :=
  (s.rs.seqs.filter fun e => decide (e.2.roster = k) && decide (e.2.st ≠ .free)).map Prod.fst

/-- A retire record waits for room. -/
def State.rosterHolds (s : State) (k : Nat) : Bool := decide (s.rosterSeqs k ≠ [])

/-! ### The four lists: 0 urgent decode, 1 urgent prefill, 2 normal decode, 3 normal prefill -/

/-- The list a sequence belongs to. -/
def SeqEnt.list (e : SeqEnt) : Option Nat :=
  match e.st with
  | .ready => some (if e.urgent then 0 else 2)
  | .pending => some (if e.urgent then 1 else 3)
  | _ => none

def State.roList (s : State) (k j : Nat) : List Nat := tget [] (s.ros k).lists j
def State.setRoList (s : State) (k j : Nat) (l : List Nat) : State := s.updRos k fun x => { x with lists := tput [] x.lists j l }

/-- An eligible sequence joins the tail of its list. -/
def State.joinTail (s : State) (q : Nat) : State :=
  let e := s.seqEnt q
  match e.list with
  | none => s
  | some j => s.setRoList e.roster j (s.roList e.roster j ++ [q])

/-- A sequence of a folded trick returns to the head of its list (R153). -/
def State.joinHead (s : State) (q : Nat) : State :=
  let e := s.seqEnt q
  match e.list with
  | none => s
  | some j => s.setRoList e.roster j (q :: s.roList e.roster j)

/-- Take a sequence out of its roster's lists. -/
def State.unlist (s : State) (q : Nat) : State :=
  s.updRos (s.seqEnt q).roster fun x => { x with lists := (x.lists.map fun l => (l.1, l.2.filter (· ≠ q))).filter fun l => decide (l.2 ≠ []) }

/-- A reason to compose again has come (R143). -/
def State.wakeRoster (s : State) (k : Nat) : State := s.updRos k fun x => { x with wake := true }

/-! ### The page pool (R145, R146) -/

def State.poolBase (s : State) (p : Nat) : Nat := s.fld ⟨.podPages, p, 0⟩ 0 24
def State.poolCount (s : State) (p : Nat) : Nat := s.fld ⟨.podPages, p, 0⟩ 32 25
/-- Pages of the pool that are free: returned, or never granted. -/
def State.poolFree (s : State) (p : Nat) : Nat :=
  (s.pod p).stack.length + (s.pod p).deep + (s.poolBase p + s.poolCount p - (s.pod p).nextPage)

/-- Rosters bound to contexts of pod `p`. -/
def State.podRosters (s : State) (p : Nat) : List Nat := (List.range 16).filter fun k => decide (s.podOf (s.roCtx k) = p)

/-- Pages held by the sequences of a roster. -/
def State.pagesHeld (s : State) (k : Nat) : Nat := ((s.rosterSeqs k).map fun q => (s.seqEnt q).pages.length).sum

def State.unmetReserve (s : State) (k : Nat) : Nat := s.fld ⟨.roReserve, k, 0⟩ 0 25 - s.pagesHeld k

/-- How many pages roster `k` may be granted (R146). -/
def State.grantable (s : State) (k : Nat) : Nat :=
  let p := s.podOf (s.roCtx k)
  let held := s.pagesHeld k
  let others := ((s.podRosters p).filter fun j => decide (j ≠ k) && s.roEnabled j).map s.unmetReserve
  min (s.fld ⟨.roLimit, k, 0⟩ 0 25 - held)
    (if held < s.fld ⟨.roReserve, k, 0⟩ 0 25 then s.poolFree p else s.poolFree p - others.sum)

/-- The entries of a return stack that the dealer keeps (R145). -/
def stackTop : Nat := 256

/-- Where entry `h` of pod `p`'s return stack lies in memory, counted from the bottom. -/
def State.stackAddr (s : State) (p h : Nat) : Nat := (s.reg ⟨.podStack, p, 0⟩).toNat + 4 * h

/-- Entry `h` of a return stack as memory holds it; one that cannot be read is a free value (log entry 34). -/
def State.stackEntry (s : State) (p h : Nat) : Nat :=
  (s.readWord devSpace (s.stackAddr p h) 4).getD (Config.unreadPage (s.stackAddr p h)).toNat

/-- One page: the most recently returned, whose place at the bottom of the kept entries the top one in memory takes, else the
lowest page never granted (R145). -/
def State.popPage (s : State) (p : Nat) : State × Nat :=
  let x := s.pod p
  match x.stack with
  | g :: t =>
    if x.deep = 0 then (s.updPod p fun x => { x with stack := t }, g)
    else ((s.noteHost devSpace (s.stackAddr p (x.deep - 1))).updPod p fun x =>
      { x with stack := t ++ [s.stackEntry p (x.deep - 1)], deep := x.deep - 1 }, g)
  | [] => (s.updPod p fun x => { x with nextPage := x.nextPage + 1 }, x.nextPage)

/-- Grant pages to a sequence: each is appended to its page list in memory. Answers whether every append was written (R145,
R151). -/
def State.givePages (s : State) (k q : Nat) : Nat → State × Bool
  | 0 => (s, true)
  | n + 1 =>
    let t := s.popPage (s.podOf (s.roCtx k))
    let e := t.1.seqEnt q
    let u := t.1.updSeq q fun e => { e with pages := e.pages ++ [t.2] }
    match u.writeWord (ctxSpace (s.roCtx k)) (e.pageList + 4 * e.pages.length) 4 t.2 with
    | none => (u, false)
    | some v => v.givePages k q n

/-- `grant(s, c)` of R145: the tokens that fit after the grant, and whether every append was written. -/
def State.grantPages (s : State) (k q c : Nat) : State × Nat × Bool :=
  let e := s.seqEnt q
  let p := s.pageTokens k
  let need := ceilDiv (e.kvLen + c) p - e.pages.length
  let g := min need (s.grantable k)
  let t := s.givePages k q g
  if g = need then (t.1, c, t.2) else (t.1, (t.1.seqEnt q).pages.length * p - e.kvLen, t.2)

/-- The dealer keeps the top 256 entries of the return stack; a push onto a full top writes the lowest of them out to STACK_ADDR
(R145; DEDUCED, log entry 34). -/
def State.pushPage (s : State) (p g : Nat) : State :=
  let x := s.pod p
  if x.stack.length < stackTop then s.updPod p fun x => { x with stack := g :: x.stack }
  else
    let t := (s.writeWord devSpace (s.stackAddr p x.deep) 4 (x.stack.getLast?.getD 0)).getD s
    t.updPod p fun x => { x with stack := g :: x.stack.dropLast, deep := x.deep + 1 }

/-! ### Retirement (R136, R137, R154) -/

/-- Codes of REASON. -/
def reENDED : Nat := 0
def reLIMIT : Nat := 1
def reFOLDED : Nat := 2
def reIMPORT : Nat := 3
def reTORN : Nat := 4

/-- A sequence enters ENDED: its pages return, first page first, and its retire record waits for the ring. A composition waiting for
pages is tried again, and one that waits by the log may now have diverged (R143, R157). -/
def State.endSeq (s : State) (q reason : Nat) : State :=
  let e := s.seqEnt q
  let p := s.podOf (s.roCtx e.roster)
  let s := s.unlist q
  let s := s.each e.pages fun s g => s.pushPage p g
  let s := s.updSeq q fun e => { e with st := .ended, pages := [], starved := false }
  let s := s.updRos e.roster fun x => { x with retire := x.retire ++ [RetRec.mk q reason e.pages.length] }
  let s := if s.roReplayEn e.roster then s.wakeRoster e.roster else s
  if e.pages = [] then s else s.each (s.podRosters p) State.wakeRoster

/-- The import's landing entry, if it is open or filled. -/
def State.importLanding (s : State) (q : Nat) : Option Nat :=
  let e := s.seqEnt q
  (s.landingsWhere fun l => decide (l.owner = .sequence e.roster q e.epoch.toNat)).head?

/-- Fold a sequence (R136, R140): its epoch advances and its landing entry is revoked. -/
def State.foldSeq (s : State) (q : Nat) : State :=
  let e := s.seqEnt q
  let s := s.each (s.landingsWhere fun l => decide (l.owner = .sequence e.roster q e.epoch.toNat)) State.revoke
  let s := s.updSeq q fun e => { e with epoch := e.epoch + 1 }
  match e.st with
  | .inTrick => s.updSeq q fun e => { e with st := .folded }
  | .pending | .ready | .held | .importing => s.endSeq q reFOLDED
  | _ => s

/-- Tear a roster's sequences down (R343 step 3): answers how many ended. Those that had ENDED before and wait for their retire
records are TORN_DOWN too (R136). -/
def State.tearSeqs (s : State) (k : Nat) : State × Nat :=
  let qs := (s.rosterSeqs k).filter fun q => decide ((s.seqEnt q).st ≠ .ended)
  let s := s.updRos k fun x => { x with retire := x.retire.map fun (r : RetRec) => { r with reason := reTORN } }
  (s.each qs fun s q => s.endSeq q reTORN, qs.length)

/-! ### Admission (R133, R138, R155) -/

/-- ADMIT_REFUSED. -/
def State.admitRefused (s : State) (k q cause c : Nat) : State :=
  s.report { typ := 0x51, source := sourceUnit 4, ctx := some c, body := [k + q * 2 ^ 16 + cause * 2 ^ 32] }

/-- ADM_FIELD: a reserved or Tsuica-written field is not zero, or the import fields do not suit IMPORT. -/
def admField (bs : List Byte) : Bool :=
  let imp := (leAt bs 1 1).testBit 1
  let rb := leAt bs 0x64 4
  decide (leAt bs 0 1 ≠ 0) || decide (leAt bs 1 1 / 4 ≠ 0) || decide (leAt bs 2 2 ≠ 0) || decide (leAt bs 4 1 / 16 ≠ 0) ||
  decide (leAt bs 5 1 ≠ 0) || decide (leAt bs 6 2 / 2 ^ 14 ≠ 0) || decide (leAt bs 0x10 8 ≠ 0) || decide (leAt bs 0x1C 8 ≠ 0) ||
  decide (leAt bs 0x30 4 ≠ 0) || decide (leAt bs 0x40 16 ≠ 0) || decide (leAt bs 0x50 4 / 2 ^ 20 ≠ 0) ||
  decide (leAt bs 0x54 2 / 2 ^ 13 ≠ 0) || decide (leAt bs 0x56 2 ≠ 0) || decide (leAt bs 0x60 4 / 2 ^ 24 ≠ 0) ||
  decide (leAt bs 0x6C 20 ≠ 0) ||
  (if imp then decide (rb % 64 ≠ 0) || decide (rb < 64) || decide (65536 < rb)
   else decide (leAt bs 0x50 6 ≠ 0) || decide (leAt bs 0x58 20 ≠ 0))

/-- The first condition of R138 that an admission record meets. -/
def State.admCause (s : State) (k c : Nat) (bs : List Byte) : Option Nat :=
  let q := leAt bs 6 2 % 2 ^ 14
  let imp := (leAt bs 1 1).testBit 1
  let maxLen := leAt bs 0x24 4
  if leAt bs 4 1 % 16 ≠ k ∨ ¬ s.roEnabled k ∨ s.roClosed k ∨ s.roCtx k ≠ c then some 0x30
  else if ¬ s.inWindow k q then some 0x31
  else if (s.seqEnt q).st ≠ .free then some 0x32
  else if admField bs then some 0x33
  else if leAt bs 0x28 8 % 4 ≠ 0 ∨ (imp ∧ leAt bs 0x58 8 % 64 ≠ 0) then some 0x34
  else if maxLen = 0 ∨ maxLen < leAt bs 0x18 4 + leAt bs 0x68 4 ∨ leAt bs 0x34 4 < ceilDiv maxLen (s.pageTokens k) then some 0x35
  else none

/-- The import of a sequence starts: a landing entry opens and the call is sent (R155); without a free entry it waits for one
(DESIGN CHOICE, log entry 35). -/
def State.startImport (s : State) (q : Nat) : State :=
  let e := s.seqEnt q
  let c := s.roCtx e.roster
  match s.freeLanding with
  | none => s
  | some l =>
    let s := s.openLanding l c (.sequence e.roster q e.epoch.toNat) e.epoch.toNat e.impAddr (e.impRows * e.impRowBytes) none 0
    let s := (s.updLanding l fun x => { x with callAt := some s.now }).updSeq q fun e => { e with landing := l }
    s.sendReq c e.impChip (.call e.impExpert e.impRows e.impRowBytes l (s.landing l).gen.toNat e.epoch.toNat) (.landing l)

/-- An admission record is applied (R133, R136, R138). -/
def State.admitSeqTo (s : State) (k q : Nat) (bs : List Byte) : State :=
  let r : Reg := ⟨.roAdmitSeq, k, 0⟩
  let imp := (leAt bs 1 1).testBit 1
  let left := leAt bs 0x18 4
  let e : SeqEnt :=
    { st := if imp then .importing else if left = 0 then .held else .pending, urgent := (leAt bs 1 1).testBit 0, isImport := imp,
      epoch := (s.seqEnt q).epoch + 1, roster := k, tag := BitVec.ofNat 64 (leAt bs 8 8),
      admitSeq := BitVec.ofNat 32 (s.reg r).toNat, prefillLeft := left, maxLen := leAt bs 0x24 4, pageList := leAt bs 0x28 8,
      pageCap := leAt bs 0x34 4, prompt := BitVec.ofNat 64 (leAt bs 0x38 8), admitBeat := s.beat,
      impExpert := leAt bs 0x50 4 % 2 ^ 20, impChip := leAt bs 0x54 2 % 2 ^ 13, impAddr := leAt bs 0x58 8,
      impRows := leAt bs 0x60 4 % 2 ^ 24, impRowBytes := leAt bs 0x64 4, impTokens := leAt bs 0x68 4 }
  let s := (s.updSeq q fun _ => e).setReg r (BitVec.ofNat 64 (((s.reg r).toNat + 1) % 2 ^ 32))
  let s := if imp then s.startImport q else s.joinTail q
  s.wakeRoster k

/-- One admission record of a ROSTER_ADMIT. -/
def State.admitRecord (s : State) (k c : Nat) (bs : List Byte) : State :=
  let q := leAt bs 6 2 % 2 ^ 14
  match s.admCause k c bs with
  | some x => s.admitRefused k q x c
  | none => s.admitSeqTo k q bs

/-! ### Extension and folding (R139, R140) -/

def State.stale (s : State) (k : Nat) : State := s.bump ⟨.roExtendStale, k, 0⟩ 1

/-- An extension is applied to a live sequence, or refused. R139 gives no order between its two refusals; one that breaks both limits
is refused with ADM_FIELD, the lower code (DEDUCED, log entry 83). -/
def State.extend (s : State) (k q tokens prompt c : Nat) : State :=
  let e := s.seqEnt q
  match e.st with
  | .free | .ended | .folded => s.stale k
  | _ =>
    if prompt ≠ 0 ∧ e.prefillLeft ≠ 0 then s.admitRefused k q 0x33 c
    else if e.maxLen < e.kvLen + e.prefillLeft + tokens then s.admitRefused k q 0x35 c
    else
      let left := e.prefillLeft + tokens
      let s := s.updSeq q fun e =>
        { e with prefillLeft := left, prompt := if prompt = 0 then e.prompt else BitVec.ofNat 64 prompt
                 prefillOff := if prompt = 0 then e.prefillOff else 0
                 st := if e.st = .held then (if left = 0 then .ready else .pending) else e.st }
      let s := if e.st = .held then s.joinTail q else s
      s.wakeRoster k

/-- One 16-byte record of a ROSTER_EXTEND; one for an IN_TRICK sequence is kept for its trick end. -/
def State.extendRecord (s : State) (k c : Nat) (bs : List Byte) : State :=
  let q := leAt bs 0 2 % 2 ^ 14
  let e := s.seqEnt q
  if ¬ s.inWindow k q ∨ e.st = .free ∨ e.st = .ended ∨ e.st = .folded ∨ e.epoch.toNat ≠ leAt bs 2 2 then s.stale k
  else if e.st = .inTrick then s.updSeq q fun e => { e with kept := e.kept ++ [(leAt bs 4 4, leAt bs 8 8)] }
  else s.extend k q (leAt bs 4 4) (leAt bs 8 8) c

/-- One 4-byte record of a ROSTER_FOLD. -/
def State.foldRecord (s : State) (k : Nat) (bs : List Byte) : State :=
  let q := leAt bs 0 2 % 2 ^ 14
  let e := s.seqEnt q
  if ¬ s.inWindow k q ∨ e.st = .free ∨ e.st = .ended ∨ e.st = .folded ∨ e.epoch.toNat ≠ leAt bs 2 2 then s.stale k
  else s.foldSeq q

/-- The records that a sequence kept while IN_TRICK are applied after its trick-end step. -/
def State.applyKept (s : State) (k q c : Nat) : State :=
  let ks := (s.seqEnt q).kept
  (s.updSeq q fun e => { e with kept := [] }).each ks fun s x => s.extend k q x.1 x.2 c

end Sys2Proof.Machine
end

