-- ==== Sys2Proof/Machine/Front.lean ====
section
/-! DEFINITION. The Front End's shared operations: the status area, doorbell values, retirement, completion records, latch
records and taking a descriptor (R160 to R186, R397 to R399). -/
namespace Sys2Proof.Machine

/-- The code of R163. -/
def SlotState.code : SlotState → Nat
  | .disabled => 0 | .idle => 1 | .fetching => 2 | .saved => 3 | .faulted => 4 | .destroying => 5

def State.slotErr (s : State) (n b : Nat) : State := s.orReg ⟨.slotErr, n, 0⟩ (BitVec.ofNat 64 (2 ^ b))
/-- FE_SLOT_ERR[n].CONFIG. -/
def State.slotConfigErr (s : State) (n : Nat) : State := s.slotErr n 0

/-- A Front End fault of a context. -/
def State.feFault (s : State) (c cause : Nat) : State := s.ctxFault c { cause := cause } (sourceUnit 0)

/-- A Front End write to an area of slot `n`, in its bound context's space; one that fails faults the context with
MEM_WRITE (R161, R342). Answers whether it was written. -/
def State.slotWrite (s : State) (n a : Nat) (bs : List Byte) : State × Bool :=
  match s.writeBytes (ctxSpace (s.slotCtx n)) a bs with
  | none => (s.feFault (s.slotCtx n) 0x95, false)
  | some t => (t, true)

def State.statusAddr (s : State) (n : Nat) : Nat := (s.reg ⟨.slotStatusAddr, n, 0⟩).toNat

/-- DONE_SEQ is written as one 8-byte write (R181). -/
def State.writeDone (s : State) (n : Nat) : State := (s.slotWrite n (s.statusAddr n) (leBytes 8 (s.slot n).doneSeq.toNat)).1

/-- IDLE_AT and STATE are written as one 8-byte write (R181). -/
def State.writeIdleAt (s : State) (n : Nat) : State :=
  (s.slotWrite n (s.statusAddr n + 8) (leBytes 4 (s.slot n).wdev.toNat ++ leBytes 1 (s.slot n).st.code ++ zeros 3)).1

/-! ### Doorbells (R166) -/

def State.ringSize (s : State) (n : Nat) : Nat := 2 ^ s.ringShift n

/-- The values that R166 accepts. -/
def State.offerOk (s : State) (n : Nat) (v : BitVec 32) : Bool :=
  decide ((v - (s.slot n).whost).toNat ≤ s.ringSize n) && decide ((v - (s.slot n).wdev).toNat ≤ s.ringSize n)

/-- A doorbell value is offered: accepted, it moves W_host and wakes an IDLE slot; refused, it sets DOORBELL, and the first
refusal writes DOORBELL_BAD (R166, R168). -/
def State.offerValue (s : State) (n : Nat) (v : BitVec 32) : State :=
  let x := s.slot n
  if s.offerOk n v then
    s.updSlot n fun x => { x with whost := v, st := if x.st = .idle ∧ v ≠ x.wdev then .fetching else x.st }
  else
    let s := if bit (s.reg ⟨.slotErr, n, 0⟩) 1 then s else
      s.report { typ := 0x13, source := sourceUnit 0, pod := some (s.slotPod n),
                 body := [v.toNat + n * 2 ^ 32, x.whost.toNat + x.wdev.toNat * 2 ^ 32] }
    s.slotErr n 1

/-- A doorbell write once it is admitted (R167). -/
def State.doorbell (s : State) (n : Nat) (v : BitVec 32) : State :=
  match (s.slot n).st with
  | .disabled | .destroying => s.bump ⟨.slotDbIgnored, n, 0⟩ 1
  | _ => s.offerValue n v

/-- The shadow word is read and offered; a read that fails offers nothing (R170; DESIGN CHOICE, log entry 24). -/
def State.readShadow (s : State) (n : Nat) : State :=
  let a := (s.reg ⟨.slotShadow, n, 0⟩).toNat
  let sp := ctxSpace (s.slotCtx n)
  let t := s.noteHost sp a
  match t.readWord sp a 4 with
  | none => t
  | some v => t.offerValue n (BitVec.ofNat 32 v)

/-- W_dev has reached W_host: IDLE_AT is written, and the idle check is next (R168 step 5). -/
def State.idleStep (s : State) (n : Nat) : State :=
  let x := s.slot n
  if x.st = .fetching ∧ x.wdev = x.whost ∧ ¬ x.idleCheck then
    (s.updSlot n fun x => { x with idleCheck := true }).writeIdleAt n
  else s

/-! ### Latch records (R397 to R399) -/

/-- The 128 bytes of a latch record of slot `n` (R398). -/
def State.latchBytes (s : State) (n seq user phase status lost : Nat) : List Byte :=
  let c := s.slotCtx n
  leBytes 8 seq ++ leBytes 8 user ++ leBytes 1 phase ++ leBytes 1 status ++ leBytes 1 n ++ zeros 1 ++ leBytes 2 c ++
  leBytes 2 lost ++ leBytes 8 s.beat ++ leBytes 4 s.beatTick ++ zeros 4 ++
  [1, 2, 0, 3, 4, 5, 10, 11, 12].flatMap (fun j => leBytes 8 (s.reg (ctxCnt c j)).toNat) ++ zeros 16

/-- OB_LATCH[n].ENABLE. -/
def State.latchOn (s : State) (n : Nat) : Bool := bit (s.reg ⟨.latchCfg, n, 0⟩) 0

/-- Records in a latch ring of slot `n`, those on their way to it included. -/
def State.latchFill (s : State) (n : Nat) : Nat :=
  ((s.reg ⟨.latchWr, n, 0⟩).toNat + 2 ^ 32 - (s.reg ⟨.latchRd, n, 0⟩).toNat) % 2 ^ 32 +
  (s.ob.latchWait.filter fun r => decide (r.slot = n)).length

/-- A record of slot `n` is lost, with the `lost` before it that it was to tell of. -/
def State.latchDrop (s : State) (n lost : Nat) : State :=
  (s.bump ⟨.latchDrops, n, 0⟩ 1).updSlot n fun x => { x with latchLost := min (x.latchLost + lost + 1) 65535 }

/-- A latch record passes the regulator into its ring, or is dropped where the write fails (R399, R412). -/
def State.latchPut (s : State) (r : LatchRec) : State :=
  let wr := (s.reg ⟨.latchWr, r.slot, 0⟩).toNat
  let a := (s.reg ⟨.latchBase, r.slot, 0⟩).toNat + wr % 2 ^ s.fld ⟨.latchCfg, r.slot, 0⟩ 8 5 * 128
  match s.writeBytes (ctxSpace (s.slotCtx r.slot)) a r.bytes with
  | none => s.latchDrop r.slot r.lost
  | some t => ((t.setReg ⟨.latchWr, r.slot, 0⟩ (BitVec.ofNat 64 ((wr + 1) % 2 ^ 32))).bump (gcnt 14) 2).payObs 2

/-- A latch record is made: dropped where the ring has no room, held where the regulator's bucket is empty. -/
def State.latch (s : State) (n seq user phase status : Nat) : State :=
  if s.latchFill n < 2 ^ s.fld ⟨.latchCfg, n, 0⟩ 8 5 then
    let lost := (s.slot n).latchLost
    let r : LatchRec := { slot := n, seq := seq, isEnd := decide (phase = 1), lost := lost
                          bytes := s.latchBytes n seq user phase status lost }
    let s := s.updSlot n fun x => { x with latchLost := 0 }
    if s.ob.latchWait = [] ∧ 0 < s.dl.obsBucket then s.latchPut r
    else { s with ob := { s.ob with latchWait := s.ob.latchWait ++ [r] } }
  else s.latchDrop n 0

/-! ### Retirement, records and DONE_SEQ (R181 to R184) -/

/-- The slot's MSI-X vector is signalled. -/
def State.slotSignal (s : State) (n : Nat) : State :=
  (s.updSlot n fun x => { x with irqCount := 0, irqSince := none }).msixNow n

/-- Notifying completions that a DONE_SEQ write covers: signal, or count them (R184). -/
def State.cover (s : State) (n : Nat) : State :=
  let x := s.slot n
  let done := x.doneSeq.toNat
  let cov := x.notes.filter fun q => decide (q.1 ≤ done)
  if cov = [] then s else
  let irq := s.reg ⟨.slotIrq, n, 0⟩
  let cnt := x.irqCount + cov.length
  let s := s.updSlot n fun x =>
    { x with notes := x.notes.filter (fun q => !decide (q.1 ≤ done)), irqCount := cnt
             irqSince := some (x.irqSince.getD s.now) }
  if cov.any Prod.snd ∨ bits irq 16 10 = 0 ∨ bits irq 0 8 ≤ cnt then s.slotSignal n else s

/-- Commands of slot `n` whose END latch records are on their way. -/
def State.latchSeqs (s : State) (n : Nat) : List Nat :=
  (s.ob.latchWait.filter fun r => decide (r.slot = n) && r.isEnd).map LatchRec.seq

/-- The largest number such that every command numbered so or below has retired, its records written (R181, R183, R399). -/
def State.doneUpTo (s : State) (n : Nat) : Nat :=
  ((s.openCmds n ++ (s.slot n).waiting.map CplRec.seq ++ s.latchSeqs n).foldl min (s.slot n).nextSeq.toNat) - 1

/-- DONE_SEQ advances if it can; the advance is written, and its notices follow. -/
def State.advanceDone (s : State) (n : Nat) : State :=
  let d := s.doneUpTo n
  if (s.slot n).doneSeq.toNat < d then
    ((s.updSlot n fun x => { x with doneSeq := BitVec.ofNat 64 d }).writeDone n).cover n
  else s

def State.cplSize (s : State) (n : Nat) : Nat := 2 ^ s.fld ⟨.slotCpl, n, 0⟩ 0 5
def State.cplFull (s : State) (n : Nat) : Bool :=
  decide (s.cplSize n ≤ ((s.reg ⟨.slotCplWr, n, 0⟩).toNat + 2 ^ 32 - (s.reg ⟨.slotCplRd, n, 0⟩).toNat) % 2 ^ 32)

/-- Held latch records pass the regulator in order while its bucket is above 0, and what waited for them goes on. -/
def State.latchDrain (s : State) : List LatchRec → State
  | [] => { s with ob := { s.ob with latchWait := [] } }
  | r :: t =>
    if 0 < s.dl.obsBucket then
      let u := { s with ob := { s.ob with latchWait := t } }
      ((u.latchPut r).advanceDone r.slot).latchDrain t
    else s

/-- Write a record at CPL_WR and advance it; a failed write faults the context and the record is lost (R182, R342). -/
def State.putRecord (s : State) (n : Nat) (r : CplRec) : State :=
  let wr := (s.reg ⟨.slotCplWr, n, 0⟩).toNat
  let base := bits (s.reg ⟨.slotCpl, n, 0⟩) 6 58 * 64
  let t := s.slotWrite n (base + wr % s.cplSize n * 32) (r.bytes n)
  if t.2 then t.1.setReg ⟨.slotCplWr, n, 0⟩ (BitVec.ofNat 64 ((wr + 1) % 2 ^ 32)) else t.1

/-- A record goes to the ring, or waits behind others for room (R183). -/
def State.fileRecord (s : State) (n : Nat) (r : CplRec) : State :=
  if (s.slot n).waiting = [] ∧ ¬ s.cplFull n then s.putRecord n r
  else s.updSlot n fun x => { x with waiting := x.waiting ++ [r] }

/-- What a retirement frees: the command's nodes and its dynamic blocks (R57). -/
def State.freeCmd (s : State) (n seq : Nat) : State :=
  let c := ((s.cmd n seq).map Cmd.ctx).getD 0
  let ks := s.cmdNodes n seq
  ((s.each ks fun s k => s.setNode k {}).freeBlocks c fun o => decide (o = .cmd n seq)).returnBlocks c |>.dropCmd n seq

/-- A command retires: nodes and blocks are freed, its END latch record and its completion record are written, and DONE_SEQ
may advance (R57, R181, R182, R184, R397). -/
def State.retire (s : State) (n seq : Nat) : State :=
  match s.cmd n seq with
  | none => s
  | some x =>
    let e := x.ending.getD (stOK, 0)
    let s := (s.freeCmd n seq).bump (gcnt 13) 1
    let s := if s.cmdsOfCtx x.ctx = [] then s.unblockIdle x.ctx else s
    let s := if x.startLatched then s.latch n seq x.user 1 e.1 else s
    let bad := decide (e.1 ≠ stOK)
    let s := if bad ∨ x.dflags.testBit 1 then s.updSlot n fun y => { y with notes := y.notes ++ [(seq, bad)] } else s
    let r : CplRec := { seq := seq, user := x.user, status := e.1, opcode := x.opcode, cause := e.2, folded := x.folded,
                        drained := min x.drained 65535, killed := min x.killed 65535, ctx := x.ctx }
    (if bad ∨ x.dflags.testBit 2 then s.fileRecord n r else s).advanceDone n

/-- Nothing of a command is left to run: its nodes are FREE or FOLDED, and every engine has acknowledged (R57, R195). -/
def State.cmdSettled (s : State) (n seq : Nat) : Bool :=
  (s.cmdNodes n seq).all (fun k => decide ((s.node k).st = .folded)) &&
  !(s.dl.engines.any fun e => match e.2.job with | some l => decide ((s.node l.key).cmd = some (n, seq)) | none => false) &&
  !(s.dl.reports.any fun r => decide ((s.node r.job.key).cmd = some (n, seq)))

/-! ### The checks of a descriptor (R173 to R178, R468) -/

/-- Some bit outside the allowed ones is set: (offset, bytes, allowed mask). -/
def strayBits (bs : List Byte) (l : List (Nat × Nat × Nat)) : Bool :=
  l.any fun x => decide (leAt bs x.1 x.2.1 &&& (2 ^ (8 * x.2.1) - 1 - x.2.2) ≠ 0)

/-- The allowed bits of each opcode beyond the common eight bytes and USER. -/
def allowedBits (op : Nat) : List (Nat × Nat × Nat) :=
  let all := 2 ^ 64 - 1
  match op with
  | 1 => [(8, 8, all), (16, 4, 0xFFFFF), (20, 4, 0x1FFFFF), (24, 8, all), (32, 4, 0x3FFFFF), (36, 4, 0x7FFFFF), (40, 8, 0), (48, 8, 0)]
  | 2 => [(8, 8, all), (16, 4, 0xFFFFF), (20, 4, 0x1FFFFF), (24, 8, all), (32, 4, 0x3FFFFF), (36, 4, 0x7FFFFF), (40, 8, all), (48, 8, 0xFF)]
  | 3 => [(8, 8, 0), (16, 4, 0xFFFFF), (20, 4, 0x1FFFFF), (24, 8, 0), (32, 8, 0), (40, 8, 0), (48, 8, 0)]
  | 4 | 5 | 6 => [(8, 8, all), (16, 4, 0x7FFF), (20, 4, 0xF), (24, 8, 0), (32, 8, 0), (40, 8, 0), (48, 8, 0)]
  | 7 => [(8, 8, 0), (16, 8, 0), (24, 8, 0), (32, 8, 0), (40, 8, all), (48, 8, 0xFF)]
  | 8 => [(8, 8, all), (16, 8, 0), (24, 8, 0), (32, 8, 0), (40, 8, 0), (48, 8, 0)]
  | _ => []

/-- FE_FIELD. -/
def badFields (bs : List Byte) (d : RingDesc) : Bool :=
  strayBits bs ([(1, 1, 0xF), (2, 2, 0x1FF), (4, 4, 0)] ++ allowedBits d.opcode) ||
  (d.dflags.testBit 3 && !(decide (d.opcode = 1) || decide (d.opcode = 2))) ||
  ((decide (d.opcode = 1) || decide (d.opcode = 2)) && (decide (2 ^ 20 < d.w14) || decide (2 ^ 22 < d.w24))) ||
  (decide (d.opcode = 3) && decide (d.w14 = 0)) ||
  ((decide (d.opcode = 4) || decide (d.opcode = 5) || decide (d.opcode = 6)) && (decide (d.w10 = 0) || decide (16384 < d.w10)))

/-- FE_ALIGN. -/
def badAddr (d : RingDesc) : Bool :=
  match d.opcode with
  | 1 | 2 => decide (d.addr % 32 ≠ 0) || decide (d.addr2 % 4 ≠ 0)
  | 4 => decide (d.addr % 64 ≠ 0)
  | 5 => decide (d.addr % 16 ≠ 0)
  | 6 => decide (d.addr % 4 ≠ 0)
  | _ => false

/-- CTX names the bound context, or on a MAINTENANCE slot a resident context of the slot's pod (R173). -/
def State.descCtxOk (s : State) (n : Nat) (d : RingDesc) : Bool :=
  if s.slotMaint n then decide ((s.ctx d.ctx).st = .resident) && decide (s.podOf d.ctx = s.slotPod n)
  else decide (d.ctx = s.slotCtx n)

/-- FE_CMD: the command is not yet assigned, or its slot is not bound to the context. -/
def State.badCmdRef (s : State) (d : RingDesc) : Bool :=
  let t := s.slot d.cmdSlot
  decide (d.cmdSeq = 0) || decide (t.nextSeq.toNat ≤ d.cmdSeq) || decide (t.st = .disabled) ||
  decide (s.slotCtx d.cmdSlot ≠ d.ctx)

/-- The Front End's first cause, in the order of R468. -/
def State.feCause (s : State) (n : Nat) (bs : List Byte) (d : RingDesc) : Option Nat :=
  if 8 < d.opcode then some 0x40
  else if badFields bs d then some 0x41
  else if badAddr d then some 0x42
  else if ¬ s.descCtxOk n d then some 0x43
  else if d.dflags.testBit 3 ∧ ¬ s.slotMaint n then some 0x44
  else if (d.opcode = 2 ∨ d.opcode = 7) ∧ s.badCmdRef d then some 0x46
  else none

/-- The context that a descriptor's command belongs to: the one it names, or the bound one where that is invalid (R178). -/
def State.descCtx (s : State) (n : Nat) (d : RingDesc) : Nat := if s.descCtxOk n d then d.ctx else s.slotCtx n

/-- The Front End takes a command's descriptor: NEXT_SEQ is assigned, the command opens, and its START latch record is
written where latching is enabled (R179, R397, R461). -/
def State.assign (s : State) (n : Nat) (d : RingDesc) : State :=
  let seq := (s.slot n).nextSeq.toNat
  let s := s.updSlot n fun x => { x with nextSeq := x.nextSeq + 1 }
  let s := s.setCmd n seq { ctx := s.descCtx n d, user := d.user, opcode := d.opcode, dflags := d.dflags,
                                startLatched := s.latchOn n }
  if s.latchOn n then s.latch n seq d.user 0 0 else s

/-- A descriptor is refused: the context faults with the cause, and the command it opened or joined retires with FAULTED
(R58, R178). -/
def State.refuse (s : State) (c : Nat) (q : Option (Nat × Nat)) (cause detail : Nat) : State :=
  let s := match q with
    | none => s
    | some (n, seq) => s.updCmd n seq fun x => { x with applied := true, ending := some (x.ending.getD (stFAULTED, cause)) }
  s.ctxFault c { cause := cause, cmd := q, detail := detail } (sourceUnit (if 0x40 ≤ cause then 0 else 1))

/-- The head of a slot's fetch buffer may be taken: the slot applies descriptors, FENCE is met, and a command has room
(R164, R179, R180). -/
def State.headOpen (s : State) (n : Nat) (d : RingDesc) : Bool :=
  (decide ((s.slot n).st = .idle) || decide ((s.slot n).st = .fetching)) &&
  (decide (d.opcode = 0) ||
    ((!d.dflags.testBit 0 || decide (s.openCmds n = [])) &&
     (decide (d.opcode = 2) || decide ((s.openCmds n).length < 1024))))

def State.popHead (s : State) (n : Nat) : State := s.updSlot n fun x => { x with buf := x.buf.drop 1 }

/-- The head entry of a slot that no command row names is refused: a failed fetch (FE_FETCH, no number), or a reserved opcode
(R174, R178). -/
def State.settleHead1 (s : State) (n : Nat) : State :=
  match (s.slot n).buf with
  | [] => s
  | e :: _ =>
    match e.bytes with
    | none => if (s.slot n).st = .idle ∨ (s.slot n).st = .fetching then s.feFault (s.slotCtx n) 0x45 else s
    | some bs =>
      let d := RingDesc.ofBytes bs
      if 8 < d.opcode ∧ s.headOpen n d then
        let seq := (s.slot n).nextSeq.toNat
        let c := s.descCtx n d
        ((s.popHead n).assign n d).refuse c (some (n, seq)) 0x40 0
      else s

def State.settleHead (s : State) (n : Nat) : State := iter (fun s => State.settleHead1 s n) 32 s

/-- Take the head entry of slot `n` for application if it is a descriptor of opcode `op`; `f` applies it, with the number
it was assigned. A refusal of the Front End is applied here (R178, R179). -/
def State.takeDesc (s : State) (n op : Nat) (f : State → RingDesc → Nat → State) : State :=
  match (s.slot n).buf with
  | [] => s
  | e :: _ =>
    match e.bytes with
    | none => s
    | some bs =>
      let d := RingDesc.ofBytes bs
      if d.opcode ≠ op ∨ ¬ s.headOpen n d ∨ ¬ s.runs 0 ∨ ¬ s.open then s
      else
        let seq := (s.slot n).nextSeq.toNat
        let c := s.descCtx n d
        let cause := s.feCause n bs d
        let t := s.popHead n
        let t := if op = 2 then t else t.assign n d
        match cause with
        | some x =>
          let q := if op ≠ 2 then some (n, seq) else if x ≠ 0x46 ∧ (s.cmd d.cmdSlot d.cmdSeq).isSome then some (d.cmdSlot, d.cmdSeq) else none
          (t.refuse c q x 0).settleHead n
        | none => (f t d seq).settleHead n

/-- The address space in which a descriptor's arrays and records lie (R161). -/
def State.arraySpace (s : State) (n : Nat) (d : RingDesc) : Nat := ctxSpace (if s.slotMaint n then d.ctx else s.slotCtx n)

/-- Whether a command's descriptor has its arrays; a failed read is FE_FETCH. -/
def State.fetchArrays (s : State) (n : Nat) (d : RingDesc) : Option (List (List Byte) × List (BitVec 32)) :=
  match s.readBytes (s.arraySpace n d) d.addr (32 * d.w14), s.readBytes (s.arraySpace n d) d.addr2 (4 * d.w24) with
  | some a, some b => some (chunks 32 d.w14 a, (chunks 4 d.w24 b).map fun w => BitVec.ofNat 32 (ofLe w))
  | _, _ => none

/-- What a graph descriptor of slot `n` brings. -/
def State.graphOf (s : State) (n : Nat) (d : RingDesc) (cmd : Nat × Nat) (a : List (List Byte) × List (BitVec 32)) : GraphDesc :=
  { ctx := d.ctx, first := d.w10, nodes := a.1, efirst := d.w20, edges := a.2, cmd := some cmd, indirect := d.dflags.testBit 3,
    ptrCtx := s.slotCtx n }

/-- Where the array of the descriptor at the head of slot `n` lies: of a graph, its nodes, or its edges where it has no nodes. -/
def State.headArray (s : State) (n : Nat) : Option (Nat × Nat) :=
  ((s.slot n).buf.head?.bind Entry.bytes).map fun bs =>
    let d := RingDesc.ofBytes bs
    (s.arraySpace n d, if (d.opcode = 1 ∨ d.opcode = 2) ∧ d.w14 = 0 then d.addr2 else d.addr)

/-- In LOCKSTEP, reading arrays from host memory is disclosed (R331). -/
def State.noteArrays (s : State) (n : Nat) (d : RingDesc) : State :=
  let sp := s.arraySpace n d
  (if d.w14 = 0 then s else s.noteHost sp d.addr).noteHost sp d.addr2

end Sys2Proof.Machine
end

