-- ==== Sys2Proof/Machine/Slots.lean ====
section
/-! DEFINITION. The Front End's commands: fetching, the idle protocol, the descriptors, retirement and destroy (R160 to R197). -/
namespace Sys2Proof.Machine

/-! ### Fetching and the idle protocol -/

/-- SHADOW_POLL (R170): an IDLE slot in shadow mode reads its shadow word every POLL_US µs. -/
def State.shadowPoll (s : State) (n : Nat) : State :=
  let x := s.slot n
  if x.st = .idle ∧ s.slotShadow n ∧ s.runs 0 ∧ s.open ∧ x.polledAt + s.fld ⟨.slotCfg, n, 0⟩ 25 7 ≤ s.now then
    (s.updSlot n fun x => { x with polledAt := s.now }).readShadow n
  else s

def execShadowPoll (n : Nat) (s : State) : Host.Outcome State Fault Refusal :=
  .next (s.viaHost (ctxSpace (s.slotCtx n)) (s.reg ⟨.slotShadow, n, 0⟩).toNat (.shadowPoll n) fun s => s.shadowPoll n)

/-- The entries of a fetch from index `w`: up to the first that cannot be read, which carries no bytes (R165, R178). -/
def State.readEntries (s : State) (n : Nat) : BitVec 32 → Nat → List Entry
  | _, 0 => []
  | w, m + 1 =>
    let a := (s.reg ⟨.slotRing, n, 0⟩).toNat + w.toNat % s.ringSize n * 64
    match s.readBytes (ctxSpace (s.slotCtx n)) a 64 with
    | none => [⟨w, none⟩]
    | some bs => ⟨w, some bs⟩ :: s.readEntries n (w + 1) m

/-- How many entries a fetch takes: at most 16, never past W_host, the end of the ring or the room in the buffer (R172, R179). -/
def State.fetchCount (s : State) (n : Nat) : Nat :=
  let x := s.slot n
  min (min 16 (x.whost - x.wdev).toNat) (min (s.ringSize n - x.wdev.toNat % s.ringSize n) (32 - x.buf.length))

/-- Slot `n` has entries to fetch. Between step 5 and step 7 of the idle protocol nothing is fetched (R168), nor past an entry that
could not be read. -/
def State.canFetch (s : State) (n : Nat) : Bool :=
  let x := s.slot n
  decide (x.st = .fetching) && !x.idleCheck && s.runs 0 && s.open && decide (s.fetchCount n ≠ 0) &&
  !(match x.buf.getLast? with | some e => e.bytes.isNone | none => false)

/-- Fetches outstanding on the memory port: in LOCKSTEP, those whose entries come from host memory (R172, R328). -/
def State.fetchesOut (s : State) : List Nat :=
  s.ob.inputs.filterMap fun h => match h with | .completion (.ringFetch n) => some n | _ => none

/-- The slot to fetch next: of the highest class, the first after the slot fetched last there, wrapping (R172). -/
def State.nextFetch (s : State) : Option Nat :=
  let due := (List.range 256).filter fun n => s.canFetch n && !decide (n ∈ s.fetchesOut)
  let top := (due.map s.slotPrio).foldl max 0
  let last := tget 255 s.fe.lastFetch top
  minBy (fun n => (n + 255 - last) % 256) (due.filter fun n => decide (s.slotPrio n = top))

/-- The entries of a fetch arrive (R168, R172). -/
def State.fetchArrive (s : State) (n : Nat) : State :=
  let x := s.slot n
  if s.canFetch n then
    let es := s.readEntries n x.wdev (s.fetchCount n)
    let s := s.noteHost (ctxSpace (s.slotCtx n)) ((s.reg ⟨.slotRing, n, 0⟩).toNat + x.wdev.toNat % s.ringSize n * 64)
    let s := s.updSlot n fun x => { x with buf := x.buf ++ es, wdev := x.wdev + BitVec.ofNat 32 es.length }
    (s.idleStep n).settleHead n
  else s

/-- RING_FETCH (R172): the fetch of the slot whose turn it is, while fewer than 8 are outstanding. -/
def State.ringFetch (s : State) (n : Nat) : State :=
  if s.nextFetch = some n ∧ s.fetchesOut.length < 8 then
    let s := { s with fe := { s.fe with lastFetch := tput 255 s.fe.lastFetch (s.slotPrio n) n } }
    s.viaHost (ctxSpace (s.slotCtx n)) ((s.reg ⟨.slotRing, n, 0⟩).toNat + (s.slot n).wdev.toNat % s.ringSize n * 64) (.ringFetch n)
      fun s => s.fetchArrive n
  else s

def execRingFetch (n : Nat) (s : State) : Host.Outcome State Fault Refusal := .next (s.ringFetch n)

/-- SLOT_IDLE_CHECK (R168 steps 6 and 7). -/
def State.slotIdleCheck (s : State) (n : Nat) : State :=
  if (s.slot n).st = .fetching ∧ (s.slot n).idleCheck ∧ s.runs 0 ∧ s.open then
    let s := if s.slotShadow n then s.readShadow n else s
    s.updSlot n fun x =>
      { x with idleCheck := false, st := if x.whost = x.wdev then .idle else x.st, polledAt := s.now }
  else s

def execSlotIdleCheck (n : Nat) (s : State) : Host.Outcome State Fault Refusal :=
  .next (if s.slotShadow n then
      s.viaHost (ctxSpace (s.slotCtx n)) (s.reg ⟨.slotShadow, n, 0⟩).toNat (.slotIdleCheck n) fun s => s.slotIdleCheck n
    else s.slotIdleCheck n)

/-! ### Enable, disable, destroy and restart -/

/-- Slot `n` lies in its pod's range and its context is the pod's (R249, R252). -/
def State.slotInPod (s : State) (n : Nat) : Bool :=
  let p := s.slotPod n
  let v := s.reg ⟨.podSlots, p, 0⟩
  decide (bits v 0 8 ≤ n) && decide (n < bits v 0 8 + bits v 16 9) &&
  decide (s.podOf (s.slotCtx n) = p)

/-- The conditions of R162 for ENABLE. -/
def State.enableOk (s : State) (n : Nat) : Bool :=
  s.slotInPod n && decide (s.reg ⟨.slotRing, n, 0⟩ ≠ 0) && decide (s.reg ⟨.slotStatusAddr, n, 0⟩ ≠ 0) &&
  decide (bits (s.reg ⟨.slotCpl, n, 0⟩) 6 58 ≠ 0) && (!s.slotShadow n || decide (s.reg ⟨.slotShadow, n, 0⟩ ≠ 0))

/-- An accepted enable (R162, R436): where a write of step 3 faults the context, the slot is FAULTED at once (R164). -/
def State.enable (s : State) (n : Nat) : State :=
  let s := if (s.slot n).cplReset then (s.setReg ⟨.slotCplWr, n, 0⟩ 0).setReg ⟨.slotCplRd, n, 0⟩ 0 else s
  let s := s.updSlot n fun x =>
    { x with whost := x.wdev, doneSeq := x.nextSeq - 1, buf := [], idleCheck := false, cplReset := false, notes := [],
             irqCount := 0, irqSince := none, polledAt := s.now }
  let was := (s.ctx (s.slotCtx n)).st
  let s := (s.writeDone n).writeIdleAt n
  let s := s.updSlot n fun x => { x with st := .idle }
  if was ≠ .faulted ∧ (s.ctx (s.slotCtx n)).st = .faulted then s.updSlot n Slot.fault else s

/-- FE_SLOT_CFG's fields other than ENABLE, PRIO and POLL_US. -/
def slotCfgFixed : BitVec 64 := 0x01FFFF86#64

/-- A write of FE_SLOT_CFG[n] (R160, R162, R423, R435): the other fields first, then the enable. -/
def State.writeSlotCfg (s : State) (n : Nat) (v : BitVec 64) : State :=
  let r : Reg := ⟨.slotCfg, n, 0⟩
  let old := s.reg r
  let v := v &&& r.row.rw
  let shift := bits v 11 5
  let poll := bits v 25 7
  if shift < 6 ∨ 16 < shift ∨ poll = 0 ∨ 64 < poll then s.slotConfigErr n
  else if (s.slot n).st = .disabled then
    let s := s.setReg r (setBit v 0 false)
    if ¬ bit v 0 then s
    else if s.enableOk n then (s.setReg r v).enable n
    else s.slotConfigErr n
  else if v &&& slotCfgFixed ≠ old &&& slotCfgFixed then s.slotConfigErr n
  else if bit v 0 then s.setReg r v
  else if (s.slot n).st = .idle ∧ s.openCmds n = [] then
    (s.setReg r v).updSlot n fun x => { x.discard with st := .disabled }
  else s.slotConfigErr n

/-- A write of DESTROY 1 (R196, R434): the slot stops, its unapplied entries are discarded, and its commands are ended. -/
def State.destroySlot (s : State) (n : Nat) : State :=
  match (s.slot n).st with
  | .disabled => s.slotConfigErr n
  | .destroying => s
  | _ =>
    let s := s.updSlot n fun x => { x.discard with st := .destroying, idleCheck := false }
    s.each (s.openCmds n) fun s q => s.endCmd n q stDESTROYED 0

/-- Steps 5 and 6 of R196: DONE_SEQ, the vector, and DISABLED. -/
def State.destroyEnd (s : State) (n : Nat) : State :=
  let s := s.updSlot n fun x => { x with doneSeq := x.nextSeq - 1, notes := [] }
  let s := (s.writeDone n).slotSignal n
  (s.setFld ⟨.slotCfg, n, 0⟩ 0 1 0).updSlot n fun x => { x with st := .disabled }

/-- DESTROY_FINISH (R196, R397). -/
def State.destroyFinish (s : State) (n : Nat) : State :=
  let qs := s.openCmds n
  if (s.slot n).st = .destroying ∧ s.runs 0 ∧ qs.all (s.cmdSettled n) ∧ ¬ (s.slot n).waiting.any CplRec.destroyed then
    let total (f : Cmd → Nat) : Nat := (qs.map fun q => ((s.cmd n q).map f).getD 0).sum
    let seq := (s.slot n).nextSeq.toNat - 1
    let r : CplRec := { seq := seq, status := stDESTROYED, folded := total Cmd.folded, drained := min (total Cmd.drained) 65535,
                        killed := min (total Cmd.killed) 65535, ctx := s.slotCtx n, destroyed := true }
    let s := (s.each qs fun s q => s.freeCmd n q).bump (gcnt 13) qs.length
    let s := if s.latchOn n then s.latch n seq 0 1 stDESTROYED else s
    let s := s.fileRecord n r
    if (s.slot n).waiting = [] then s.destroyEnd n else s
  else s

def execDestroyFinish (n : Nat) (s : State) : Host.Outcome State Fault Refusal := .next (s.destroyFinish n)

/-- A write of RESTART, with or without SKIP (R164). -/
def State.restartSlot (s : State) (n : Nat) (skip : Bool) : State :=
  let c := s.ctx (s.slotCtx n)
  if (s.slot n).st = .faulted ∧ ¬ (c.st = .faulted ∧ ¬ c.torn) then
    s.updSlot n fun x =>
      let w := if skip then x.whost else x.wdev
      { x with wdev := w, st := if x.whost = w then .idle else .fetching, polledAt := s.now, idleCheck := false }
  else s.slotConfigErr n

/-! ### Descriptors (R174 to R177) -/

/-- NOP: consumed without effect. -/
def State.nop (s : State) (n : Nat) : State :=
  match (s.slot n).buf with
  | [] => s
  | e :: _ =>
    match e.bytes with
    | none => s
    | some bs =>
      let d := RingDesc.ofBytes bs
      if d.opcode = 0 ∧ s.headOpen n d ∧ s.runs 0 ∧ s.open then (s.popHead n).settleHead n else s

def execNop (n : Nat) (s : State) : Host.Outcome State Fault Refusal := .next (s.nop n)

/-- A graph descriptor that has passed the Front End, for command `q` (R54 to R58). -/
def State.applyFor (s : State) (n : Nat) (d : RingDesc) (q : Nat × Nat) : State :=
  let s := s.noteArrays n d
  match s.fetchArrays n d with
  | none => s.refuse d.ctx (some q) 0x45 0
  | some a =>
    match s.applyGraph (s.graphOf n d q a) with
    | .error e => s.refuse d.ctx (some q) e.cause e.detail
    | .ok t => (t.updCmd q.1 q.2 fun x => { x with applied := true }).settle

def State.launchGraph (s : State) (n : Nat) : State := s.takeDesc n 1 fun s d seq => s.applyFor n d (n, seq)

def execLaunchGraph (n : Nat) (s : State) : Host.Outcome State Fault Refusal :=
  .next (s.viaHostAt (s.headArray n) (.launchGraph n) fun s => s.launchGraph n)

/-- APPEND_NODES: the arrays are fetched before a retired command is refused with APPEND_STATE (R56, R468). -/
def State.appendNodes (s : State) (n : Nat) : State :=
  s.takeDesc n 2 fun s d _ =>
    if (s.cmd d.cmdSlot d.cmdSeq).isSome then s.applyFor n d (d.cmdSlot, d.cmdSeq)
    else match s.fetchArrays n d with
      | none => (s.noteArrays n d).refuse d.ctx none 0x45 0
      | some _ => (s.noteArrays n d).refuse d.ctx none 0x0B d.w10

def execAppendNodes (n : Nat) (s : State) : Host.Outcome State Fault Refusal :=
  .next (s.viaHostAt (s.headArray n) (.appendNodes n) fun s => s.appendNodes n)

/-- TEMPLATE_RELEASE (R177). -/
def State.releaseRange (s : State) (n : Nat) (d : RingDesc) (seq : Nat) : State :=
  let ks := (List.range d.w14).map fun j => nk d.ctx (d.w10 + j)
  if ¬ s.nodesValid d.ctx ∨ s.nodeWin d.ctx < d.w10 + d.w14 then s.refuse d.ctx (some (n, seq)) 0x02 d.w10
  else match ks.find? fun k => decide ((s.node k).st ≠ .template) with
    | some k => s.refuse d.ctx (some (n, seq)) 0x09 (nkIdx k)
    | none => (s.each ks fun s k => s.setNode k {}).updCmd n seq fun x => { x with applied := true }

def State.templateRelease (s : State) (n : Nat) : State := s.takeDesc n 3 fun s d seq => s.releaseRange n d seq

def execTemplateRelease (n : Nat) (s : State) : Host.Outcome State Fault Refusal := .next (s.templateRelease n)

/-- An ACTIVE loop is ended by the fold of its command: it and every body node not running become FOLDED (R64). -/
def State.foldLoop (s : State) (k : Nat) : State :=
  let body := s.bodyOf k
  (s.setFolded k).each body fun s b => if (s.node b).st = .done then s.setFolded b else s.foldNode b

/-- A FANOUT that is expanding, or waits for blocks, makes no instances (R129). -/
def State.stopFan (s : State) (k : Nat) : State :=
  let s := s.updCtx (nkCtx k) fun c => { c with dynWait := c.dynWait.filter (· ≠ k) }
  { s with gs := { s.gs with fan := s.gs.fan.bind (fun w => if w.node = k then none else some w)
                             fanHeld := s.gs.fanHeld.filter fun w => decide (w.node ≠ k) } }

/-- The fold of one node of a folded command or trick: ACTIVE nodes run to completion, but for the loop and the trick that
are ended with it (R47, R64, R129, R153). -/
def State.foldOne (s : State) (k : Nat) : State :=
  let n := s.node k
  if n.st = .active ∧ n.d.kind = .loop then s.foldLoop k
  else if n.st = .active ∧ n.d.kind = .fanout then s.stopFan k
  else if n.st = .active ∧ n.d.kind = .anchor then
    match s.trickOf k with
    | some r => s.dropTrick r
    | none => s
  else s.foldNode k

/-- FOLD_COMMAND on an open command (R125, R177). -/
def State.foldCmd (s : State) (n seq : Nat) : State :=
  let s := s.each (s.landingsWhere fun l => decide (l.owner = .command n seq)) State.revoke
  s.each (s.cmdNodes n seq) State.foldOne

def State.foldCommand (s : State) (n : Nat) : State :=
  s.takeDesc n 7 fun s d seq =>
    let s := if (s.cmd d.cmdSlot d.cmdSeq).isSome then s.foldCmd d.cmdSlot d.cmdSeq else s.bump ⟨.slotFoldLate, n, 0⟩ 1
    s.updCmd n seq fun x => { x with applied := true }

def execFoldCommand (n : Nat) (s : State) : Host.Outcome State Fault Refusal := .next (s.foldCommand n)

/-- REPORT: one MARKER packet (R177). -/
def State.reportDesc (s : State) (n : Nat) : State :=
  s.takeDesc n 8 fun s d seq =>
    (s.report { typ := 0x02, source := sourceUnit 0, ctx := some d.ctx, body := [d.addr, d.user, seq],
                cmd := some (n, seq) }).updCmd n seq fun x => { x with applied := true, owesPacket := true }

def execReport (n : Nat) (s : State) : Host.Outcome State Fault Refusal := .next (s.reportDesc n)

/-- INDIRECT_POINTER_READ (R161, R186): the pointer word lies in the space of the context bound to the slot whose descriptor wrote the
node. -/
def State.pointerRead (s : State) (c i : Nat) : State :=
  let k := nk c i
  let n := s.node k
  if n.st = .ready ∧ n.indirect ∧ n.ptr = none ∧ (n.d.kind = .task ∨ n.d.kind = .sprout) ∧ s.runs 1 then
    let a := n.d.b.toNat
    let sp := ctxSpace n.ptrCtx
    let s := s.noteHost sp a
    match s.readWord sp a 8 with
    | none => s.failNode k { cause := 0x96 } (sourceUnit 1)
    | some p =>
      if p % 256 ≠ 0 then s.failNode k { cause := 0x07 } (sourceUnit 1)
      else s.updNode k fun n => { n with ptr := some (BitVec.ofNat 64 p) }
  else s

def execIndirectPointerRead (c i : Nat) (s : State) : Host.Outcome State Fault Refusal :=
  .next (s.viaHost (ctxSpace (s.node (nk c i)).ptrCtx) (s.node (nk c i)).d.b.toNat (.indirectPointerRead c i) fun s => s.pointerRead c i)

/-! ### Retirement and what bounds it -/

/-- Teardown of context `c` is under way: its commands retire in step 7 of R343. -/
def State.tearing (s : State) (c : Nat) : Bool := decide ((s.ctx c).st = .faulted) && !(s.ctx c).torn

/-- COMMAND_RETIRE (R57). -/
def State.commandRetire (s : State) (n seq : Nat) : State :=
  match s.cmd n seq with
  | none => s
  | some x =>
    if x.applied ∧ ¬ x.owesPacket ∧ (s.slot n).st ≠ .destroying ∧ ¬ s.tearing x.ctx ∧ ¬ s.away x.ctx ∧ s.cmdSettled n seq ∧ s.runs 0 then
      (s.retire n seq).settleHead n
    else s

def execCommandRetire (n seq : Nat) (s : State) : Host.Outcome State Fault Refusal := .next (s.commandRetire n seq)

/-- COMPLETION_RECORD_WRITE (R183): the oldest waiting record, once the ring has room. -/
def State.recordWrite (s : State) (n : Nat) : State :=
  match (s.slot n).waiting with
  | [] => s
  | r :: t =>
    if s.cplFull n ∨ ¬ s.runs 0 then s else
    let s := (s.updSlot n fun x => { x with waiting := t }).putRecord n r
    if r.destroyed then s.destroyEnd n else s.advanceDone n

def execCompletionRecordWrite (n : Nat) (s : State) : Host.Outcome State Fault Refusal := .next (s.recordWrite n)

/-- IRQ_COALESCE_TIMEOUT (R184). -/
def State.irqTimeout (s : State) (n : Nat) : State :=
  match (s.slot n).irqSince with
  | none => s
  | some t => if t + s.fld ⟨.slotIrq, n, 0⟩ 16 10 ≤ s.now ∧ s.runs 0 then s.slotSignal n else s

def execIrqCoalesceTimeout (n : Nat) (s : State) : Host.Outcome State Fault Refusal := .next (s.irqTimeout n)

/-- COMMAND_WATCHDOG (R193, R194). -/
def State.watchdog (s : State) (n seq : Nat) : State :=
  match s.cmd n seq with
  | none => s
  | some x =>
    if s.fld ⟨.cmdLimit, 0, 0⟩ 0 32 < x.age ∧ x.ending = none ∧ (s.ctx x.ctx).st = .resident ∧ s.runs 0 ∧ s.timersOn then
      (s.report { typ := 0x14, status := stWATCHDOG, source := sourceUnit 0, ctx := some x.ctx,
                  body := [seq, n + x.age % 2 ^ 56 * 2 ^ 8] }).endCmd n seq stWATCHDOG 0
    else s

def execCommandWatchdog (n seq : Nat) (s : State) : Host.Outcome State Fault Refusal := .next (s.watchdog n seq)

end Sys2Proof.Machine
end

