-- ==== Sys2Proof/Machine/Roster.lean ====
section
/-! DEFINITION. The Roster's commands: admission, extension and folding, composing and ending tricks, retire and log records,
and imports (R131, R138 to R157, R176). -/
namespace Sys2Proof.Machine

/-! ### Descriptors (R176) -/

/-- A descriptor of roster records of `size` bytes; `f` applies one record of roster `k` for context `c`. -/
def State.rosterDesc (s : State) (n op size : Nat) (f : State → Nat → Nat → List Byte → State) : State :=
  s.takeDesc n op fun s d seq =>
    let k := d.w14 % 16
    let sp := s.arraySpace n d
    let s := s.noteHost sp d.addr
    match s.readBytes sp d.addr (size * d.w10) with
    | none => s.refuse d.ctx (some (n, seq)) 0x45 0
    | some bs => (s.each (chunks size d.w10 bs) fun s r => f s k d.ctx r).updCmd n seq fun x => { x with applied := true }

def State.rosterAdmit (s : State) (n : Nat) : State := s.rosterDesc n 4 128 State.admitRecord
def execRosterAdmit (n : Nat) (s : State) : Host.Outcome State Fault Refusal :=
  .next (s.viaHostAt (s.headArray n) (.rosterAdmit n) fun s => s.rosterAdmit n)

def State.rosterExtend (s : State) (n : Nat) : State := s.rosterDesc n 5 16 State.extendRecord
def execRosterExtend (n : Nat) (s : State) : Host.Outcome State Fault Refusal :=
  .next (s.viaHostAt (s.headArray n) (.rosterExtend n) fun s => s.rosterExtend n)

def State.rosterFold (s : State) (n : Nat) : State := s.rosterDesc n 6 4 fun s k _ bs => s.foldRecord k bs
def execRosterFold (n : Nat) (s : State) : Host.Outcome State Fault Refusal :=
  .next (s.viaHostAt (s.headArray n) (.rosterFold n) fun s => s.rosterFold n)

/-! ### The composition pass (R141) -/

/-- The pass so far. -/
structure Comp where
  s : State
  budget : Nat
  taken : List TrickSeq := []
  rows : Nat := 0
  skipped : Nat := 0
  /-- A page-list append could not be written. -/
  bad : Bool := false

/-- Take sequence `q` with `c` tokens: it leaves its list and is IN_TRICK. -/
def Comp.take (a : Comp) (q c pages : Nat) : Comp :=
  let e := a.s.seqEnt q
  let t : TrickSeq := { slot := q, c := c, prefill := decide (e.st = .pending), newPages := e.pages.length - pages, was := e.st,
                        first := a.rows, pos := e.kvLen, admitSeq := e.admitSeq.toNat }
  { a with s := (a.s.unlist q).updSeq q fun e => { e with st := .inTrick, starved := false }
           budget := a.budget - c, taken := a.taken ++ [t], rows := a.rows + c }

/-- One list of the pass; `j` is its number, the decode lists being 0 and 2. -/
def Comp.list (k j floor : Nat) : List Nat → Comp → Comp
  | [], a => a
  | q :: qs, a =>
    let e := a.s.seqEnt q
    let decode := decide (j % 2 = 0)
    let chunkMax := a.s.fld ⟨.roChunk, k, 0⟩ 0 16
    let chunkMin := a.s.fld ⟨.roChunk, k, 0⟩ 16 16
    let c := if decode then 1 else min e.prefillLeft (min chunkMax a.budget)
    if a.s.fld ⟨.roBudget, k, 0⟩ 16 13 ≤ a.taken.length then a
    else if decode ∧ (a.budget < 1 ∨ (j = 2 ∧ a.budget < floor + 1)) then a
    else if ¬ decode ∧ c < e.prefillLeft ∧ c < chunkMin then a
    else
      let g := a.s.grantPages k q c
      let b := { a with s := g.1, bad := a.bad || !g.2.2 }
      if g.2.1 = 0 ∨ (¬ decode ∧ g.2.1 < e.prefillLeft ∧ g.2.1 < chunkMin) then
        Comp.list k j floor qs { b with s := b.s.updSeq q fun e => { e with starved := true }, skipped := b.skipped + 1 }
      else Comp.list k j floor qs (b.take q g.2.1 e.pages.length)

/-- The whole pass over the lists of roster `k` as they stand. -/
def State.composePass (s : State) (k : Nat) : Comp :=
  let floor := if s.roList k 1 = [] ∧ s.roList k 3 = [] then 0 else s.fld ⟨.roPrefillMin, k, 0⟩ 0 16
  [0, 1, 2, 3].foldl (fun a j => Comp.list k j floor (s.roList k j) a) { s := s, budget := s.fld ⟨.roBudget, k, 0⟩ 0 16 }

/-- KV_FAMINE and its counter (R147). -/
def State.noteFamine (s : State) (k skipped : Nat) : State :=
  let was := (s.ros k).famine
  let s := s.updRos k fun x => { x with famine := decide (skipped ≠ 0) }
  if skipped = 0 then s
  else
    let s := s.bump ⟨.roFamine, k, 0⟩ 1
    if was then s
    else s.report { typ := 0x53, source := sourceUnit 4, ctx := some (s.roCtx k),
                    body := [k + skipped % 2 ^ 12 * 2 ^ 16, s.poolFree (s.podOf (s.roCtx k))] }

/-! ### The batch table (R149) -/

/-- The 64 bytes of one sequence of the batch table. -/
def State.batchSeq (s : State) (t : TrickSeq) : List Byte :=
  let e := s.seqEnt t.slot
  leBytes 2 (t.slot + t.prefill.toNat * 2 ^ 14 + e.imported.toNat * 2 ^ 15) ++ leBytes 2 e.epoch.toNat ++ leBytes 4 t.c ++
  leBytes 4 t.pos ++ leBytes 4 t.first ++ leBytes 8 e.pageList ++ leBytes 4 e.pages.length ++ leBytes 2 t.newPages ++ zeros 2 ++
  leBytes 8 e.tag.toNat ++ leBytes 8 e.prompt.toNat ++ leBytes 4 e.prefillOff ++ zeros 12

/-- The token rows of sequence number `i`. -/
def batchRows (i : Nat) (t : TrickSeq) : List Byte :=
  (List.range t.c).flatMap fun x => leBytes 4 (i % 2 ^ 12 + (decide (x + 1 = t.c)).toNat * 2 ^ 12) ++ leBytes 4 (t.pos + x)

def State.batchTable (s : State) (k : Nat) (t : Trick) : List Byte :=
  let n := t.seqs.length
  leBytes 2 t.epoch ++ leBytes 1 k ++ leBytes 1 (s.pageShift k) ++ leBytes 4 n ++ leBytes 4 t.tokens ++
  leBytes 4 (t.seqs.filter fun x => !x.prefill).length ++ leBytes 4 (((t.seqs.filter TrickSeq.prefill).map TrickSeq.c).sum) ++
  leBytes 4 (64 + 64 * n) ++ leBytes 8 t.number ++ leBytes 8 t.beat ++ zeros 24 ++ t.seqs.flatMap s.batchSeq ++
  (List.range n).flatMap fun i => (t.seqs[i]?.map (batchRows i)).getD []

/-- A trick is formed from the sequences taken: epoch and count advance, and the batch table is written. -/
def State.formTrick (s : State) (k a : Nat) (seqs : List TrickSeq) : State :=
  let epoch := ((s.reg ⟨.roEpoch, k, 0⟩).toNat + 1) % 2 ^ 16
  let s := (s.setReg ⟨.roEpoch, k, 0⟩ (BitVec.ofNat 64 epoch)).bump ⟨.roTrick, k, 0⟩ 1
  let t : Trick := { anchor := a, epoch := epoch, number := (s.reg ⟨.roTrick, k, 0⟩).toNat, beat := s.beat, seqs := seqs,
                     tokens := (seqs.map TrickSeq.c).sum, capFactor := s.fld ⟨.roCfg, k, 0⟩ 24 8 }
  let table := s.batchTable k t
  let s := s.updRos k fun x => { x with trick := some t, anchors := x.anchors.filter (· ≠ a), stallTold := false, wake := false }
  let s := s.each seqs fun s x => s.updSeq x.slot fun e => { e with imported := false }
  let s := (s.bump (gcnt 11) 1).traceUnit 0
    { typ := 8, source := 10, ctx := some (nkCtx a), node := nkIdx a, arg := seqs.length, tag := t.number }
  match s.writeBytes (ctxSpace (nkCtx a)) (s.node a).d.t.toNat table with
  | none => s.failNode a { cause := 0x95 } (sourceUnit 4)
  | some u => u

/-! ### Replay (R157) -/

/-- One entry of a log record: slot, prefill, tokens, ADMIT_SEQ. -/
structure LogEntry where
  slot : Nat
  prefill : Bool
  c : Nat
  admitSeq : Nat

def LogEntry.ofBytes (bs : List Byte) : LogEntry :=
  ⟨leAt bs 0 2 % 2 ^ 14, (leAt bs 0 2).testBit 14, leAt bs 4 4, leAt bs 8 4⟩

/-- The entry shows that the replay has left the log. -/
def State.diverged (s : State) (k : Nat) (l : LogEntry) : Bool :=
  let e := s.seqEnt l.slot
  decide (e.st ≠ .free) && decide (e.roster = k) &&
  (decide (l.admitSeq < e.admitSeq.toNat) ||
   (decide (l.admitSeq = e.admitSeq.toNat) &&
    (decide (e.st = .ended) ||
     ((decide (e.st = .pending) || decide (e.st = .ready)) &&
      (if l.prefill then decide (e.prefillLeft < l.c) else decide (e.prefillLeft ≠ 0))))))

/-- The listed sequence is eligible. -/
def State.replayReady (s : State) (k : Nat) (l : LogEntry) : Bool :=
  let e := s.seqEnt l.slot
  decide (e.roster = k) && decide (l.admitSeq = e.admitSeq.toNat) && (decide (e.st = .pending) || decide (e.st = .ready))

/-- Take the listed sequences with the listed counts; none while pages are not grantable. -/
def Comp.replay (k : Nat) : List LogEntry → Comp → Option Comp
  | [], a => some a
  | l :: ls, a =>
    let e := a.s.seqEnt l.slot
    let g := a.s.grantPages k l.slot l.c
    if g.2.1 < l.c then none else Comp.replay k ls ({ a with s := g.1, bad := a.bad || !g.2.2 }.take l.slot l.c e.pages.length)

/-- What the replay ring holds next. -/
inductive ReplayHead where
  | wait
  | lost
  /-- The entries of the next record, and REPLAY_RD after it. -/
  | record (es : List LogEntry) (rd : Nat)

/-- Where entry `rd` of the replay ring of roster `k` lies. -/
def State.replayAt (s : State) (k rd : Nat) : Nat :=
  (s.reg ⟨.roReplayAddr, k, 0⟩).toNat + rd % 2 ^ s.fld ⟨.roReplayShift, k, 0⟩ 0 5 * 64

/-- The next record that is neither folded nor a pad; a pad is followed by the ring's start. -/
def State.replayHead (s : State) (k rd : Nat) : Nat → ReplayHead
  | 0 => .wait
  | n + 1 =>
    let size := 2 ^ s.fld ⟨.roReplayShift, k, 0⟩ 0 5
    let wr := (s.reg ⟨.roReplayWr, k, 0⟩).toNat
    let a := s.replayAt k rd
    let sp := ctxSpace (s.roCtx k)
    if rd = wr then .wait
    else match s.readBytes sp a 64 with
      | none => .lost
      | some h =>
        let seqs := leAt h 0x0C 4
        let blocks := max 1 (leAt h 0x14 4 / 64)
        if seqs = 0 then s.replayHead k ((rd + (size - rd % size)) % 2 ^ 32) n
        else if (leAt h 0x0B 1).testBit 0 then s.replayHead k ((rd + blocks) % 2 ^ 32) n
        else match s.readBytes sp (a + 64) (16 * min seqs 4096) with
          | none => .lost
          | some bs => .record ((chunks 16 (min seqs 4096) bs).map LogEntry.ofBytes) ((rd + blocks) % 2 ^ 32)

/-! ### Taking an ANCHOR (R131, R141 to R144, R152) -/

/-- The ANCHOR waits ACTIVE. -/
def State.anchorWaits (s : State) (k a : Nat) : State :=
  s.updRos k fun x => { x with wake := false, anchors := if a ∈ x.anchors then x.anchors else x.anchors ++ [a] }

/-- CLOSE with nothing left: the ANCHOR completes, and its innermost loop ends after this iteration (R144). -/
def State.anchorCloses (s : State) (k a : Nat) : State :=
  let loops := s.loopsOver (nkCtx a) (nkIdx a)
  let s := s.updRos k fun x => { x with anchors := x.anchors.filter (· ≠ a) }
  let s := match minBy (fun y => (s.node y).d.bodyCount) loops with
    | some l => s.updNode l fun n => { n with loopEnd := true }
    | none => s
  (s.complete a).settle

/-- The blocks of the replay ring not yet read: each record or pad takes at least one. -/
def State.replaySteps (s : State) (k : Nat) : Nat :=
  let wr := (s.reg ⟨.roReplayWr, k, 0⟩).toNat
  let rd := (s.reg ⟨.roReplayRd, k, 0⟩).toNat
  if rd ≤ wr then wr - rd else wr + 2 ^ 32 - rd

/-- Where the ANCHOR `a` reads next, if its roster replays and its ring is not empty. -/
def State.replayPlace (s : State) (a : Nat) : Option (Nat × Nat) :=
  let k := (s.node a).d.roster
  if s.roReplayEn k ∧ s.replaySteps k ≠ 0 then some (ctxSpace (s.roCtx k), s.replayAt k (s.reg ⟨.roReplayRd, k, 0⟩).toNat) else none

/-- Reading the replay ring in host memory is disclosed (R331). -/
def State.noteReplay (s : State) (k : Nat) : State :=
  if s.replaySteps k = 0 then s else s.noteHost (ctxSpace (s.roCtx k)) (s.replayAt k (s.reg ⟨.roReplayRd, k, 0⟩).toNat)

/-- A composition by the log (R157). -/
def State.composeReplay (s : State) (k a : Nat) : State :=
  match s.replayHead k (s.reg ⟨.roReplayRd, k, 0⟩).toNat (s.replaySteps k) with
  | .wait => s.anchorWaits k a
  | .lost => s.failNode a { cause := 0x96 } (sourceUnit 4)
  | .record es rd' =>
    match es.find? (s.diverged k) with
    | some l => s.failNode a { cause := 0x38, detail := k + l.slot * 2 ^ 16 } (sourceUnit 4)
    | none =>
      if ¬ es.all (s.replayReady k) then s.anchorWaits k a
      else match Comp.replay k es { s := s, budget := 0 } with
        | none => s.anchorWaits k a
        | some c =>
          let s := c.s.setReg ⟨.roReplayRd, k, 0⟩ (BitVec.ofNat 64 rd')
          if c.bad then s.failNode a { cause := 0x95 } (sourceUnit 4) else s.formTrick k a c.taken

/-- A composition by the lists (R141, R143, R147). -/
def State.composeLists (s : State) (k a : Nat) : State :=
  let c := s.composePass k
  let all := ([0, 1, 2, 3].map fun j => (s.roList k j).length).sum
  let t := c.s.noteFamine k c.skipped
  if c.bad then t.failNode a { cause := 0x95 } (sourceUnit 4)
  else if c.taken ≠ [] then t.formTrick k a c.taken
  else
    let t := t.anchorWaits k a
    if all ≠ 0 ∧ c.skipped = all ∧ ¬ (t.ros k).stallTold then
      (t.updRos k fun x => { x with stallTold := true }).report
        { typ := 0x52, source := sourceUnit 4, ctx := some (nkCtx a), body := [k] }
    else t

/-- An ACTIVE ANCHOR is taken, or tried again. -/
def State.takeAnchor (s : State) (a : Nat) : State :=
  let k := (s.node a).d.roster
  if ¬ s.roEnabled k ∨ s.roCtx k ≠ nkCtx a then
    (s.updRos k fun x => { x with anchors := x.anchors.filter (· ≠ a) }).failNode a { cause := 0x39, detail := k } (sourceUnit 4)
  else if (s.ros k).trick.isSome then s.anchorWaits k a
  else if s.roClosed k ∧ ¬ s.rosterHolds k then s.anchorCloses k a
  else if s.roReplayEn k then (s.noteReplay k).composeReplay k a
  else s.composeLists k a

/-- The next READY ANCHOR in the order of R80 (R159). -/
def State.nextAnchor (s : State) : Option Nat :=
  let ks := (s.gs.nodes.filter fun x => decide (x.2.st = .ready) && decide (x.2.d.kind = .anchor) &&
    decide ((s.ctx (nkCtx x.1)).st = .resident)).map Prod.fst
  let ent (k : Nat) : HandEnt := { key := k, pod := s.nodePod k, cls := 0, slot := (s.node k).slot, arrive := (s.node k).order }
  let hs := ks.map ent
  ((sortBy (s.before hs) hs).head?).map HandEnt.key

/-- TRICK_COMPOSE: READY ANCHORs are taken in the order of R80 (R159). -/
def State.trickCompose (s : State) (a : Nat) : State :=
  let n := s.node a
  if n.st = .ready ∧ n.d.kind = .anchor ∧ s.runs 4 ∧ s.open ∧ (s.ctx (nkCtx a)).st = .resident ∧ s.nextAnchor = some a then
    (s.updNode a fun n => { n with st := .active, startedAt := s.now, place := .unit }).takeAnchor a
  else s

def execTrickCompose (c i : Nat) (s : State) : Host.Outcome State Fault Refusal :=
  .next (s.viaHostAt (s.replayPlace (nk c i)) (.trickCompose c i) fun s => s.trickCompose (nk c i))

/-- COMPOSE_RETRY (R143). -/
def State.composeRetry (s : State) (a : Nat) : State :=
  let n := s.node a
  let x := s.ros n.d.roster
  if n.st = .active ∧ a ∈ x.anchors ∧ x.wake ∧ s.runs 4 ∧ s.open ∧ (s.ctx (nkCtx a)).st = .resident then s.takeAnchor a else s

def execComposeRetry (c i : Nat) (s : State) : Host.Outcome State Fault Refusal :=
  .next (s.viaHostAt (s.replayPlace (nk c i)) (.composeRetry c i) fun s => s.composeRetry (nk c i))

/-! ### The step instance (R151) -/

/-- The changes of R151 to one node of the instance. -/
def stepChange (tokens capFactor : Nat) (d : Desc) : Desc :=
  if d.kind = .task ∧ d.cls = 0 ∧ d.panels ≠ 0 then { d with w0 := setBits d.w0 16 16 (ceilDiv tokens d.panels) }
  else if d.kind = .fanout ∧ d.capacity = 0xFFFFFF then
    { d with t := setBits d.t 32 24 (max 1 (tokens * d.topk * capFactor / (16 * (d.expertsM1 + 1)))) }
  else d

/-- The dynamic-wait list no longer holds node `k`; the status bit follows it (R61). -/
def State.dynServed (s : State) (k : Nat) : State :=
  let s := s.updCtx (nkCtx k) fun x => { x with dynWait := x.dynWait.filter (· ≠ k) }
  if (s.ctx (nkCtx k)).dynWait = [] then
    s.setReg ⟨.ctxStatus, nkCtx k, 0⟩ (s.reg ⟨.ctxStatus, nkCtx k, 0⟩ &&& ~~~(2 : BitVec 64))
  else s

/-- Instantiate the step template of roster `k`'s trick, or wait for room. A trick folded meanwhile waits no more (R153). -/
def State.instantiateTrick (s : State) (k : Nat) : State :=
  match (s.ros k).trick with
  | none => s
  | some t =>
    if t.folded ∨ t.instantiated then s.dynServed t.anchor else
    let n := s.node t.anchor
    let c := nkCtx t.anchor
    match s.instantiate c n.d.tplBase n.d.tplCount
      { cmd := n.cmd, parent := some t.anchor, epoch := t.epoch, owner := .node (nkIdx t.anchor) } (stepChange t.tokens t.capFactor) with
    | .bad => (s.dynServed t.anchor).failNode t.anchor { cause := 0x09, detail := n.d.tplBase } (sourceUnit 1)
    | .noRoom => s.noRoomFor t.anchor
    | .ok u => ((u.updRos k fun x => { x with trick := some { t with instantiated := true } }).dynServed t.anchor).settle

/-- TRICK_INSTANTIATE. -/
def State.trickInstantiate (s : State) (k : Nat) : State :=
  match (s.ros k).trick with
  | none => s
  | some t =>
    if ¬ t.instantiated ∧ ¬ t.folded ∧ (s.node t.anchor).st = .active ∧ t.anchor ∉ (s.ctx (nkCtx t.anchor)).dynWait ∧ s.runs 4 then
      s.instantiateTrick k
    else s

def execTrickInstantiate (k : Nat) (s : State) : Host.Outcome State Fault Refusal := .next (s.trickInstantiate k)

/-! ### Folding a trick (R153) -/

/-- Nodes that a trick's instance holds: made by the ANCHOR, or by a FANOUT or SPROUT of the instance. -/
def State.trickNodes (s : State) (a : Nat) : List Nat :=
  let kids (p : Nat) : List Nat := (s.gs.nodes.filter fun x => decide (x.2.parent = some p) && decide (x.2.st ≠ .free)).map Prod.fst
  (kids a ++ (kids a).flatMap kids).foldl (fun l k => insertNat k l) []

/-- A write of FOLD_TRICK: without a trick in progress it has no effect. Instance nodes not yet ACTIVE are folded and ACTIVE ones run
to completion, LOOPs among them: R64 ends a LOOP early with its command only (R153). -/
def State.foldTrickNow (s : State) (k : Nat) : State :=
  match (s.ros k).trick with
  | none => s
  | some t =>
    if t.folded ∨ t.resulted then s else
      (s.dropTrick k).each (s.trickNodes t.anchor) fun s y =>
        if (s.node y).st = .active ∧ (s.node y).d.kind = .loop then s else s.foldOne y

/-! ### Trick end (R150, R152, R153) -/

/-- The instance has settled. -/
def State.trickSettled (s : State) (t : Trick) : Bool :=
  (t.instantiated || t.folded) && (s.childrenOf t.anchor).all fun n => decide (n.st = .done) || decide (n.st = .folded)

/-- The trick-end step of one sequence; its number in the trick gives the address of its RESULT word. Answers none where the
word cannot be read. -/
def State.seqEnd (s : State) (k : Nat) (t : Trick) (i : Nat) (x : TrickSeq) : Option State :=
  let c := nkCtx t.anchor
  let a := (s.node t.anchor).d.t.toNat + 64 + 64 * i + 0x34
  let folded := decide ((s.seqEnt x.slot).st = .folded)
  match (if folded then some 0 else (s.noteHost (ctxSpace c) a).readWord (ctxSpace c) a 4) with
  | none => none
  | some w =>
    let s := if folded then s else s.noteHost (ctxSpace c) a
    let next := w % 4
    let e := s.seqEnt x.slot
    let left := if x.prefill then e.prefillLeft - x.c else e.prefillLeft
    let s := s.updSeq x.slot fun e =>
      { e with
        kvLen := e.kvLen + x.c, tricks := e.tricks + 1, lastTrick := BitVec.ofNat 32 t.number, prefillLeft := left,
        prefillOff := if x.prefill then e.prefillOff + x.c else e.prefillOff,
        decoded := if ¬ x.prefill ∨ left = 0 then e.decoded + 1 else e.decoded,
        resultLast := if folded then e.resultLast else BitVec.ofNat 32 w }
    let s := if next = 3 then s.bump ⟨.roBadResult, k, 0⟩ 1 else s
    let goOn (st : SeqState) : State := (s.updSeq x.slot fun e => { e with st := st }).joinTail x.slot
    let s := if folded then s.endSeq x.slot reFOLDED
      else if next = 1 ∨ next = 3 then s.endSeq x.slot reENDED
      else if e.maxLen ≤ e.kvLen + x.c then s.endSeq x.slot reLIMIT
      else if next = 2 then goOn .held
      else if 0 < left then goOn .pending
      else goOn .ready
    some (s.applyKept k x.slot c)

/-- The trick-end steps of all its sequences, in row order. -/
def State.seqEnds (s : State) (k : Nat) (t : Trick) (i : Nat) : List TrickSeq → Option State
  | [] => some s
  | x :: xs => match s.seqEnd k t i x with
    | none => none
    | some u => u.seqEnds k t (i + 1) xs

/-- A folded trick: its sequences return to where they were, at the heads of their lists in row order; FOLDED ones retire. -/
def State.restoreSeqs (s : State) (k : Nat) (t : Trick) : State :=
  let s := s.each t.seqs.reverse fun s x =>
    if (s.seqEnt x.slot).st = .inTrick then (s.updSeq x.slot fun e => { e with st := x.was }).joinHead x.slot else s
  s.each t.seqs fun s x =>
    (if (s.seqEnt x.slot).st = .folded then s.endSeq x.slot reFOLDED else s).applyKept k x.slot (nkCtx t.anchor)

/-- The trick is over: the ANCHOR completes and applies its DONE edges, and the next one may be taken. An ANCHOR that waits is not the
trick's: that of a torn-down context is gone. -/
def State.trickOver (s : State) (k : Nat) (t : Trick) : State :=
  let s := (s.updRos k fun x => { x with trick := none }).wakeRoster k
  if (s.node t.anchor).st = .active ∧ (s.node t.anchor).d.kind = .anchor ∧ t.anchor ∉ (s.ros k).anchors then (s.complete t.anchor).settle else s

/-- TRICK_END: with LOG_EN 1 the log record comes before the ANCHOR's completion (R156). -/
def State.trickEnd (s : State) (k : Nat) : State :=
  match (s.ros k).trick with
  | none => s
  | some t =>
    if t.resulted ∨ ¬ s.trickSettled t ∨ ¬ s.runs 4 then s
    else
      let u := if t.folded then some ((s.restoreSeqs k t).dynServed t.anchor) else s.seqEnds k t 0 t.seqs
      match u with
      | none => s.failNode t.anchor { cause := 0x96 } (sourceUnit 4)
      | some s =>
        if s.roLogEn k then s.updRos k fun x => { x with trick := some { t with resulted := true } } else s.trickOver k t

/-- Where the first RESULT word lies, once there is one to read. -/
def State.resultPlace (s : State) (k : Nat) : Option (Nat × Nat) :=
  match (s.ros k).trick with
  | none => none
  | some t =>
    if t.resulted ∨ t.folded ∨ ¬ s.trickSettled t ∨ ¬ s.runs 4 then none
    else some (ctxSpace (nkCtx t.anchor), (s.node t.anchor).d.t.toNat + 0x74)

def execTrickEnd (k : Nat) (s : State) : Host.Outcome State Fault Refusal :=
  .next (s.viaHostAt (s.resultPlace k) (.trickEnd k) fun s => s.trickEnd k)

/-! ### The retire and log rings (R154, R156) -/

/-- The 32 bytes of a retire record. -/
def State.retireBytes (s : State) (k : Nat) (r : RetRec) : List Byte :=
  let e := s.seqEnt r.slot
  leBytes 2 r.slot ++ leBytes 2 e.epoch.toNat ++ leBytes 1 r.reason ++ leBytes 1 (if r.reason = reTORN then stFAULTED else stOK) ++
  leBytes 1 k ++ zeros 1 ++ leBytes 8 e.tag.toNat ++ leBytes 4 e.kvLen ++ leBytes 4 e.decoded.toNat ++ leBytes 4 e.tricks.toNat ++
  leBytes 4 r.pages

/-- The retire ring has no room. -/
def State.retireFull (s : State) (k : Nat) : Bool :=
  decide (2 ^ s.fld ⟨.roRetireShift, k, 0⟩ 0 5 ≤
    ((s.reg ⟨.roRetireWr, k, 0⟩).toNat + 2 ^ 32 - (s.reg ⟨.roRetireRd, k, 0⟩).toNat) % 2 ^ 32)

/-- RETIRE_RECORD_WRITE: the record is written, and the slot becomes FREE; a write that fails faults the context (R342). -/
def State.retireWrite (s : State) (k : Nat) : State :=
  match (s.ros k).retire with
  | [] => s
  | r :: t =>
    if s.retireFull k ∨ ¬ s.runs 4 then s
    else
      let wr := (s.reg ⟨.roRetireWr, k, 0⟩).toNat
      let a := (s.reg ⟨.roRetireAddr, k, 0⟩).toNat + wr % 2 ^ s.fld ⟨.roRetireShift, k, 0⟩ 0 5 * 32
      let u := s.writeBytes (ctxSpace (s.roCtx k)) a (s.retireBytes k r)
      let s := (s.updRos k fun x => { x with retire := t }).updSeq r.slot fun e => { epoch := e.epoch }
      match u with
      | none => s.ctxFault (s.roCtx k) { cause := 0x95 } (sourceUnit 4)
      | some u =>
        let s := { s with mem := u.mem, poison := u.poison }.setReg ⟨.roRetireWr, k, 0⟩ (BitVec.ofNat 64 ((wr + 1) % 2 ^ 32))
        if bit (s.reg ⟨.roCtrl, k, 0⟩) 6 then s.vector 274 else s

def execRetireRecordWrite (k : Nat) (s : State) : Host.Outcome State Fault Refusal := .next (s.retireWrite k)

/-- The bytes of a trick's log record, padded to whole blocks. -/
def Trick.logBytes (k : Nat) (t : Trick) : List Byte :=
  let n := t.seqs.length
  let len := roundUp (64 + 16 * n) 64
  leBytes 8 t.number ++ leBytes 2 t.epoch ++ leBytes 1 k ++ leBytes 1 t.folded.toNat ++ leBytes 4 n ++ leBytes 4 t.tokens ++
  leBytes 4 len ++ leBytes 8 t.beat ++ zeros 32 ++
  (t.seqs.flatMap fun x => leBytes 2 (x.slot + x.prefill.toNat * 2 ^ 14) ++ zeros 2 ++ leBytes 4 x.c ++
    leBytes 4 x.admitSeq ++ zeros 4) ++ zeros (len - (64 + 16 * n))

/-- The pad block. -/
def padBlock : List Byte := zeros 0x14 ++ leBytes 4 64 ++ zeros 40

/-- Blocks that the log record of a trick takes: the pad's, then its own. -/
def State.logNeed (s : State) (k : Nat) (t : Trick) : Nat × Nat :=
  let size := 2 ^ s.fld ⟨.roLogShift, k, 0⟩ 0 5
  let pos := (s.reg ⟨.roLogWr, k, 0⟩).toNat % size
  let n := roundUp (64 + 16 * t.seqs.length) 64 / 64
  (if size < pos + n then size - pos else 0, n)

/-- The log ring has no room for the record. -/
def State.logFull (s : State) (k : Nat) (t : Trick) : Bool :=
  let need := s.logNeed k t
  decide (2 ^ s.fld ⟨.roLogShift, k, 0⟩ 0 5 <
    ((s.reg ⟨.roLogWr, k, 0⟩).toNat + 2 ^ 32 - (s.reg ⟨.roLogRd, k, 0⟩).toNat) % 2 ^ 32 + need.1 + need.2)

/-- LOG_RECORD_WRITE: the record never wraps the ring; a pad block stands before its start (DEDUCED, log entry 33). -/
def State.logWrite (s : State) (k : Nat) : State :=
  match (s.ros k).trick with
  | none => s
  | some t =>
    if ¬ t.resulted ∨ s.logFull k t ∨ ¬ s.runs 4 then s
    else
      let size := 2 ^ s.fld ⟨.roLogShift, k, 0⟩ 0 5
      let wr := (s.reg ⟨.roLogWr, k, 0⟩).toNat
      let base := (s.reg ⟨.roLogAddr, k, 0⟩).toNat
      let sp := ctxSpace (s.roCtx k)
      let need := s.logNeed k t
      let u := if need.1 = 0 then some s else s.writeBytes sp (base + wr % size * 64) padBlock
      match u.bind fun u => u.writeBytes sp (base + (wr + need.1) % size * 64) (t.logBytes k) with
      | none => s.ctxFault (s.roCtx k) { cause := 0x95 } (sourceUnit 4)
      | some v => (v.setReg ⟨.roLogWr, k, 0⟩ (BitVec.ofNat 64 ((wr + need.1 + need.2) % 2 ^ 32))).trickOver k t

def execLogRecordWrite (k : Nat) (s : State) : Host.Outcome State Fault Refusal := .next (s.logWrite k)

/-! ### Imports (R155) -/

/-- IMPORT_LANDED: the landing entry is FILLED; the sequence goes on once its pages are granted. -/
def State.importLanded (s : State) (q : Nat) : State :=
  let e := s.seqEnt q
  match s.importLanding q with
  | none => s
  | some l =>
    if e.st ≠ .importing ∨ (s.landing l).st ≠ .filled ∨ ¬ s.runs 4 then s
    else
      let k := e.roster
      let need := ceilDiv e.impTokens (s.pageTokens k) - e.pages.length
      if s.grantable k < need then s.updSeq q fun e => { e with starved := true }
      else
        let g := s.givePages k q need
        let s := g.1.updSeq q fun e =>
          { e with kvLen := e.impTokens, imported := true, starved := false, st := if e.prefillLeft = 0 then .ready else .pending }
        let s := (s.joinTail q).wakeRoster k
        if g.2 then s else s.ctxFault (s.roCtx k) { cause := 0x95 } (sourceUnit 4)

def execImportLanded (slot : Nat) (s : State) : Host.Outcome State Fault Refusal := .next (s.importLanded slot)

end Sys2Proof.Machine
end

