-- ==== Sys2Proof/Machine/Fanout.lean ====
section
/-! DEFINITION. The Fan-out unit and landing entries as commands: the two passes, the output area, expert instances, completion,
timeouts and the end of an entry (R100 to R119, R126 to R129). -/
namespace Sys2Proof.Machine

/-! ### The header (R100, R105) -/

/-- The 64 bytes of the assignment table's header, by field. -/
structure FanHead where
  tokens : Nat
  epoch : Nat
  mode : Nat
  out : Nat
  size : Nat
  tpl : Nat
  place : Nat
  ret : Nat
  rowBytes : Nat
  rsvd : Bool

def FanHead.ofBytes (h : List Byte) : FanHead :=
  { tokens := leAt h 0 4 % 2 ^ 21, epoch := leAt h 4 2, mode := leAt h 6 1, out := leAt h 8 8, size := leAt h 0x10 4,
    tpl := leAt h 0x14 4 % 2 ^ 20, place := leAt h 0x18 8, ret := leAt h 0x20 8, rowBytes := leAt h 0x28 4,
    rsvd := decide (leAt h 0 4 / 2 ^ 21 ≠ 0) || decide (leAt h 7 1 ≠ 0) || decide (leAt h 0x14 4 / 2 ^ 20 ≠ 0) ||
            decide (leAt h 0x2C 20 ≠ 0) }

/-- FO_HEADER. -/
def FanHead.bad (h : FanHead) (d : Desc) : Bool :=
  decide (1 < h.mode) || h.rsvd || decide (h.out % 64 ≠ 0) || decide (h.place % 8 ≠ 0) ||
  (decide (h.place ≠ 0) && (decide (h.ret % 64 ≠ 0) || decide (h.rowBytes % 64 ≠ 0) || decide (h.rowBytes < 64) ||
    decide (65536 < h.rowBytes))) ||
  (decide (h.mode = 1) && decide (d.expertsM1 ≠ 0))

/-- CAP (R103). -/
def fanCap (d : Desc) (tokens : Nat) : Nat := if d.capacity = 0 then tokens else d.capacity

/-- LIST_OFF, MASK_OFF and the size of the output area (R107, R108). -/
def fanOffsets (d : Desc) (tokens : Nat) : Nat × Nat × Nat :=
  let e := d.expertsM1 + 1
  let list := 0x40 + 16 * e
  let mask := list + roundUp (4 * min (tokens * d.topk) (e * fanCap d tokens)) 64
  (list, mask, mask + roundUp tokens 64)

/-! ### A pass over the rows (R101, R104) -/

/-- What a pass has decided: counts per expert, entries kept (expert, place in its list, token, choice) and masks, newest
first. -/
structure Pass where
  req : Tab Nat := []
  kept : Tab Nat := []
  entries : List (Nat × Nat × Nat × Nat) := []
  masks : List Nat := []
  /-- FO_EXPERT: the token that named an expert of E or above. -/
  bad : Option Nat := none
  /-- A row could not be read (R102). -/
  unread : Bool := false

/-- One valid choice: counted, and kept while the expert has room. -/
def Pass.choose (p : Pass) (cap t j e : Nat) : Pass × Bool :=
  let fill := tget 0 p.kept e
  let p := { p with req := tput 0 p.req e (tget 0 p.req e + 1) }
  if fill < cap then ({ p with kept := tput 0 p.kept e (fill + 1), entries := (e, fill, t, j) :: p.entries }, true) else (p, false)

/-- The choices of one row, from choice `j` on. -/
def Pass.row (experts cap t : Nat) : Nat → List Nat → Nat → List (BitVec 32) → Pass → Pass
  | _, _, mask, [], p => { p with masks := mask :: p.masks }
  | j, seen, mask, w :: ws, p =>
    let e := bits w 0 12
    if bit w 15 ∨ e ∈ seen then Pass.row experts cap t (j + 1) seen mask ws p
    else if experts ≤ e then { p with bad := some t }
    else
      let q := p.choose cap t j e
      Pass.row experts cap t (j + 1) (e :: seen) (if q.2 then mask + 2 ^ j else mask) ws q.1

/-- Rows from token `t` on, up to one that cannot be read (R102) or that names no expert. -/
def State.passRows (s : State) (sp : Nat) (d : Desc) (cap : Nat) : Nat → Nat → Pass → Pass
  | 0, _, p => p
  | n + 1, t, p =>
    match s.readBytes sp (d.b.toNat + 0x40 + t * d.topk * 4) (4 * d.topk) with
    | none => { p with unread := true }
    | some bs =>
      let p := Pass.row (d.expertsM1 + 1) cap t 0 [] 0 ((chunks 4 d.topk bs).map fun w => BitVec.ofNat 32 (ofLe w)) p
      if p.bad.isSome then p else s.passRows sp d cap n (t + 1) p

/-- SIZED mode: every token is one valid choice of expert 0 (R127). -/
def sizedPass (cap tokens : Nat) : Pass :=
  (List.range tokens).foldl (fun p t => let q := p.choose cap t 0 0; { q.1 with masks := q.2.toNat :: q.1.masks }) {}

/-- The decisions of one pass. -/
def State.fanPass (s : State) (c : Nat) (d : Desc) (sized : Bool) (tokens : Nat) : Pass :=
  if sized then sizedPass (fanCap d tokens) tokens else s.passRows (ctxSpace c) d (fanCap d tokens) tokens 0 {}

/-- FIRST[e]: kept tokens of the experts below. -/
def fanFirst (kept : Tab Nat) (e : Nat) : Nat := ((kept.filter fun x => decide (x.1 < e)).map Prod.snd).sum

def tabSum (t : Tab Nat) : Nat := (t.map Prod.snd).sum

/-- The expert with the largest count, lowest index on a tie, and its count. -/
def tabMax (t : Tab Nat) : Nat × Nat := t.foldl (fun a x => if a.2 < x.2 then x else a) (0, 0)

/-! ### Pass 1 (R104, R105, R115, R117) -/

/-- A fault of the Fan-out unit. -/
def State.fanFail (s : State) (k cause detail : Nat) : State :=
  ({ s with gs := { s.gs with fan := none } }).failNode k { cause := cause, detail := detail } (sourceUnit 1)

/-- IMBALANCE (R115). -/
def State.imbalance (s : State) (k : Nat) (w : FanWork) : State :=
  let d := (s.node k).d
  let e := d.expertsM1 + 1
  let m := tabMax w.req
  let total := tabSum w.req
  if d.imbRatio ≠ 0 ∧ total ≠ 0 ∧ d.imbRatio * total < 4 * m.2 * e ∧ ¬ w.sized then
    (s.report { typ := 0x50, source := sourceUnit 1, ctx := some (nkCtx k),
                body := [s.nodeArg k + w.epoch * 2 ^ 32, m.1 + e * 2 ^ 16, m.2 + total * 2 ^ 32, total - tabSum w.kept] }).bump
      (ctxCnt (nkCtx k) 9) 1
  else s

/-- Placement entries of the experts with kept tokens; none where one cannot be read. -/
def State.placements (s : State) (sp place : Nat) : List Nat → Option (List (Nat × Nat × Nat))
  | [] => some []
  | e :: es =>
    match s.readWord sp (place + 8 * e) 8, s.placements sp place es with
    | some w, some l => some (if w.testBit 15 ∧ w % 2 ^ 13 ≠ s.chipId then (e, w % 2 ^ 13, w / 2 ^ 16 % 2 ^ 20) :: l else l)
    | _, _ => none

/-- FO_ROWS: an instance would need too many panels or rows. -/
def fanTooBig (tpl : Desc) (w : FanWork) : Bool :=
  w.kept.any fun x =>
    if (w.remote.any fun r => decide (r.1 = x.1)) ∨ tpl.panels = 0 then decide (1048575 < x.2)
    else decide (65535 < ceilDiv x.2 tpl.panels)

/-- Whom the landing entries of a FANOUT belong to (R118). -/
def State.fanOwner (s : State) (k : Nat) : LandOwner :=
  let n := s.node k
  match n.parent with
  | some p =>
    if (s.node p).d.kind = .anchor then .trick (s.node p).d.roster n.epoch
    else .command (n.cmd.getD (n.slot, 0)).1 (n.cmd.getD (n.slot, 0)).2
  | none => .command (n.cmd.getD (n.slot, 0)).1 (n.cmd.getD (n.slot, 0)).2

/-- Open landing entries for remote experts, lowest free index first, while there are any (R118). -/
def State.openAll (s : State) (w : FanWork) : List (Nat × Nat × Nat) → State × FanWork
  | [] => (s, w)
  | r :: rs =>
    if w.opened.any fun o => decide (o.1 = r.1) then s.openAll w rs
    else match s.freeLanding with
      | none => (s, { w with waiting := true })
      | some l =>
        let base := w.retAddr + fanFirst w.kept r.1 * w.rowBytes
        let t := s.openLanding l (nkCtx w.node) (s.fanOwner w.node) w.epoch base (tget 0 w.kept r.1 * w.rowBytes) (some w.node) r.1
        t.openAll { w with opened := w.opened ++ [(r.1, l)] } rs

/-- The epoch of a FANOUT node: the trick's where an ANCHOR instantiated it, else 0 (R100, R118). -/
def State.fanEpoch (s : State) (k : Nat) : Nat := if s.byAnchor (s.node k).parent then (s.node k).epoch else 0

/-- The next READY FANOUT node in the order of R80. -/
def State.nextFanout (s : State) : Option Nat :=
  let ks := (s.gs.nodes.filter fun x => decide (x.2.st = .ready) && decide (x.2.d.kind = .fanout) &&
    !s.saveHolds x.1).map Prod.fst
  let ent (k : Nat) : HandEnt := { key := k, pod := s.nodePod k, cls := 0, slot := (s.node k).slot, arrive := (s.node k).order }
  let hs := ks.map ent
  ((sortBy (s.before hs) hs).head?).map HandEnt.key

/-- The header is good: pass 1 and what follows it up to the landing entries. -/
def State.fanPassOne (s : State) (k : Nat) (h : FanHead) : State :=
  let n := s.node k
  let c := nkCtx k
  let p := s.fanPass c n.d (decide (h.mode = 1)) h.tokens
  if p.unread then s.fanFail k 0x96 0
  else match p.bad with
    | some t => s.fanFail k 0x22 t
    | none =>
      let w : FanWork := { node := k, outAddr := h.out, epoch := h.epoch, tokens := h.tokens, sized := decide (h.mode = 1),
                           retAddr := h.ret, rowBytes := h.rowBytes, remoteTpl := h.tpl, req := p.req, kept := p.kept,
                           entries := p.entries, masks := p.masks }
      let s := s.imbalance k w
      if h.size < (fanOffsets n.d h.tokens).2.2 then s.fanFail k 0x23 0
      else match (if h.place = 0 ∨ w.sized then some [] else s.placements (ctxSpace c) h.place (tkeys p.kept)) with
        | none => s.fanFail k 0x96 0
        | some rs =>
          let w := { w with remote := rs }
          if fanTooBig (s.node (nk c n.d.fanTemplate)).d w then s.fanFail k 0x24 0
          else
            let t := s.openAll w rs
            let t := if t.2.waiting then (t.1.bump (liCnt 2) 1, t.2) else t
            { t.1 with gs := { t.1.gs with fan := some t.2 } }

/-- FANOUT_EXPAND. -/
def State.fanoutExpand (s : State) : State :=
  match s.nextFanout with
  | none => s
  | some k =>
    if s.gs.fan.isSome ∨ ¬ s.runs 1 ∨ ¬ s.open then s
    else
      let n := s.node k
      let s := (s.updNode k fun n => { n with st := .active, startedAt := s.now, place := .unit }).noteHost (ctxSpace (nkCtx k)) n.d.b.toNat
      match s.readBytes (ctxSpace (nkCtx k)) n.d.b.toNat 64 with
      | none => s.fanFail k 0x96 0
      | some bs =>
        let h := FanHead.ofBytes bs
        if h.bad n.d then s.fanFail k 0x20 0
        else if h.epoch ≠ s.fanEpoch k then s.fanFail k 0x21 0
        else s.fanPassOne k h

/-- Where the assignment table of the next FANOUT node lies. -/
def State.expandPlace (s : State) : Option (Nat × Nat) :=
  if s.gs.fan.isSome ∨ ¬ s.runs 1 ∨ ¬ s.open then none else s.nextFanout.map fun k => (ctxSpace (nkCtx k), (s.node k).d.b.toNat)

def execFanoutExpand (s : State) : Host.Outcome State Fault Refusal := .next (s.viaHostAt s.expandPlace .fanoutExpand State.fanoutExpand)

/-- LANDING_WAIT_RESUME (R118): enough entries are free for the rest. -/
def State.landingResume (s : State) : State :=
  match s.gs.fan with
  | none => s
  | some w =>
    let used := (s.li.landings.filter fun x => decide (x.2.st ≠ .free)).length
    if w.waiting ∧ used + (w.remote.length - w.opened.length) ≤ 16384 ∧ s.runs 1 then
      let t := s.openAll { w with waiting := false } w.remote
      { t.1 with gs := { t.1.gs with fan := some t.2 } }
    else s

def execLandingWaitResume (s : State) : Host.Outcome State Fault Refusal := .next s.landingResume

/-! ### Pass 2 and the output area (R104, R107 to R110) -/

/-- The record of an expansion. -/
def FanWork.record (w : FanWork) (d : Desc) (skipped : Nat) : List Byte :=
  let o := fanOffsets d w.tokens
  let m := tabMax w.req
  leBytes 4 (tabSum w.req) ++ leBytes 4 (tabSum w.kept) ++ leBytes 4 (tabSum w.req - tabSum w.kept) ++ leBytes 4 skipped ++
  leBytes 4 m.1 ++ leBytes 4 m.2 ++ leBytes 4 o.1 ++ leBytes 4 o.2.1 ++ leBytes 2 w.epoch ++ zeros 30

/-- The summary entry of expert `e`. -/
def FanWork.summary (w : FanWork) (e : Nat) : List Byte :=
  leBytes 4 (tget 0 w.req e) ++ leBytes 4 (tget 0 w.kept e) ++ leBytes 4 (fanFirst w.kept e) ++
  leBytes 4 (match w.opened.find? fun o => decide (o.1 = e) with | some o => o.2 + 2 ^ 16 | none => 0)

/-- The writes of pass 2, in order, as far as they go: address, width and value of each. Answers whether all are made. -/
def State.writeAll (s : State) (sp : Nat) : List (Nat × Nat × Nat) → State × Bool
  | [] => (s, true)
  | (a, n, v) :: l =>
    match s.writeWord sp a n v with
    | none => (s, false)
    | some u => u.writeAll sp l

/-- Where pass 2 writes its kept choices, at the places that pass 1 gave them, and its masks. -/
def FanWork.writes (w : FanWork) (list mask : Nat) (p : Pass) : List (Nat × Nat × Nat) :=
  (p.entries.reverse.filterMap fun x =>
    if tget 0 w.kept x.1 ≤ x.2.1 then none
    else some (list + 4 * (fanFirst w.kept x.1 + x.2.1), 4, x.2.2.1 + x.2.2.2 * 2 ^ 21)) ++
  (List.range p.masks.length).map fun t => (mask + t, 1, p.masks.reverse.getD t 0)

/-- The lowest token on which two passes decided differently. -/
def FanWork.differs (w : FanWork) (p : Pass) : Option Nat :=
  (List.range w.tokens).find? fun t =>
    decide (w.masks.reverse[t]? ≠ p.masks.reverse[t]?) ||
    decide (w.entries.filter (fun x => decide (x.2.2.1 = t)) ≠ p.entries.filter fun x => decide (x.2.2.1 = t))

/-- Pass 2: the rows are read again, and kept list and masks are written; then the record and the summary. Answers the fault's
cause and token where it fails; what is written by then stays (R102, R105). FO_CHANGED is raised where any decision differs, as R105
and R129 have it, of which the counts that R104 compares are a part (DEDUCED, log entry 82). -/
def State.fanPassTwo (s : State) (w : FanWork) : State × Option (Nat × Nat) :=
  let k := w.node
  let d := (s.node k).d
  let sp := ctxSpace (nkCtx k)
  let o := fanOffsets d w.tokens
  let p := s.fanPass (nkCtx k) d w.sized w.tokens
  let u := s.writeAll sp (w.writes (w.outAddr + o.1) (w.outAddr + o.2.1) p)
  if ¬ u.2 then (u.1, some (0x95, 0))
  else if p.unread then (u.1, some (0x96, 0))
  else match p.bad with
    | some t => (u.1, some (0x22, t))
    | none =>
      if w.differs p ≠ none ∨ p.req ≠ w.req then (u.1, some (0x25, (w.differs p).getD 0))
      else
        let skipped := (p.masks.filter (· = 0)).length
        match u.1.writeBytes sp w.outAddr (w.record d skipped ++ (List.range (d.expertsM1 + 1)).flatMap w.summary) with
        | none => (u.1, some (0x95, 0))
        | some v => (v, none)

/-! ### Instances (R111) -/

/-- FO_TEMPLATE. -/
def State.remoteTplBad (s : State) (w : FanWork) : Bool :=
  let t := s.node (nk (nkCtx w.node) w.remoteTpl)
  decide (w.remote ≠ []) &&
  !(decide (t.st = .template) && decide (t.d.kind = .task) && decide (t.d.cls = 3) && decide (t.d.panels = 0) && decide (t.d.succ = 0))

/-- One instance: expert `e` with `n` kept tokens, in node slot `i`. -/
def State.fanInstance (s : State) (w : FanWork) (i e n : Nat) : State :=
  let f := s.node w.node
  let c := nkCtx w.node
  let rem := w.remote.find? fun r => decide (r.1 = e)
  let t := s.node (nk c (if rem.isSome then w.remoteTpl else f.d.fanTemplate))
  let d : Desc := { t.d with flags := t.d.flags &&& 0xBF#8, inDeg := 0, succ := 0 }
  let d := if rem.isNone ∧ d.panels ≠ 0 then { d with w0 := setBits d.w0 16 16 (ceilDiv n d.panels) } else d
  let fi : FanInst := { expert := e, kept := n, rowsT := t.d.panels, rowBytes := w.rowBytes,
                        landing := (w.opened.find? fun o => decide (o.1 = e)).map Prod.snd,
                        chip := (rem.map fun r => r.2.1).getD 0, sysExpert := (rem.map fun r => r.2.2).getD 0 }
  ((s.rewritten (fun x => decide (x = nk c i)) fun _ => false).setNode (nk c i)
    { d := d, cmd := f.cmd, call := f.call, parent := some w.node, epoch := f.epoch, fan := some fi, indirect := t.indirect, ptrCtx := t.ptrCtx }).arm (nk c i)

/-- Place one instance per expert with kept tokens in the lowest free blocks, or wait for room (R61, R111). -/
def State.fanInstances (s : State) (w : FanWork) : State :=
  let k := w.node
  let c := nkCtx k
  let x := s.ctx c
  let tpl := s.node (nk c (s.node k).d.fanTemplate)
  let held (s : State) : State := { s with gs := { s.gs with fan := none, fanHeld := s.gs.fanHeld.filter fun h => decide (h.node ≠ k) } }
  if s.remoteTplBad w then ((held s).dynServed k).failNode k { cause := 0x26 } (sourceUnit 1)
  else if tpl.st ≠ .template ∧ w.kept.length ≠ w.remote.length then ((held s).dynServed k).failNode k { cause := 0x09 } (sourceUnit 1)
  else match lowestFree (tkeys x.dynN) (s.nodeBlocks c) (ceilDiv w.kept.length 64) with
    | none =>
      let s := held s
      ({ s with gs := { s.gs with fanHeld := s.gs.fanHeld ++ [{ w with written := true }] } }).noRoomFor k
    | some bs =>
      let s := (held s).each bs fun s b => s.takeNodes c b 1 (.node (nkIdx k))
      let s := s.each (List.range w.kept.length) fun s j =>
        match w.kept[j]? with
        | some (e, n) => s.fanInstance w (s.nodePool c + 64 * bs.getD (j / 64) 0 + j % 64) e n
        | none => s
      let s := s.traceUnit 1 { typ := 9, source := 9, ctx := some c, node := nkIdx k, arg := w.kept.length % 2 ^ 16, tag := tabSum w.kept }
      (s.dynServed k).settle

/-- FANOUT_INSTANTIATE. -/
def State.fanoutInstantiate (s : State) : State :=
  match s.gs.fan with
  | none => s
  | some w =>
    if w.waiting ∨ ¬ s.runs 1 then s
    else
      let k := w.node
      let d := (s.node k).d
      let o := fanOffsets d w.tokens
      match s.fanPassTwo w with
      | (t, some x) => t.fanFail k x.1 x.2
      | (t, none) =>
        let t := ((t.bump (gcnt 12) 1).bump (ctxCnt (nkCtx k) 7) 1).bump (ctxCnt (nkCtx k) 8) (tabSum w.req - tabSum w.kept)
        (t.updNode k fun n => { n with fanOut := [w.outAddr, o.1, o.2.1, w.retAddr, w.rowBytes] }).fanInstances w

/-- Where the rows lie that pass 2 reads. -/
def State.rowsPlace (s : State) : Option (Nat × Nat) :=
  match s.gs.fan with
  | none => none
  | some w => if w.waiting ∨ w.sized ∨ ¬ s.runs 1 then none else some (ctxSpace (nkCtx w.node), (s.node w.node).d.b.toNat + 0x40)

def execFanoutInstantiate (s : State) : Host.Outcome State Fault Refusal :=
  .next (s.viaHostAt s.rowsPlace .fanoutInstantiate State.fanoutInstantiate)

/-! ### Completion (R114) -/

/-- Nothing of the expansion is left to do. -/
def State.fanSettled (s : State) (k : Nat) : Bool :=
  !((s.gs.fan.map FanWork.node) == some k) && !(s.gs.fanHeld.any fun w => decide (w.node = k)) &&
  (s.childrenOf k).all (fun n => decide (n.st = .done) || decide (n.st = .folded)) &&
  decide (s.landingsWhere (fun l => decide (l.node = some k) && decide (l.st = .isOpen)) = [])

/-- FANOUT_COMPLETE. -/
def State.fanoutComplete (s : State) (k : Nat) : State :=
  let n := s.node k
  if n.st = .active ∧ n.d.kind = .fanout ∧ s.fanSettled k ∧ s.runs 1 then
    ((s.updNode k fun n => { n with fanOut := [] }).complete k).settle
  else s

def execFanoutComplete (c i : Nat) (s : State) : Host.Outcome State Fault Refusal := .next (s.fanoutComplete (nk c i))

/-! ### Landing entries that time out, or whose call is refused (R126, R155) -/

/-- Clear the mask bits of one given-up expert's kept choices, kept-list entries `i` on. -/
def State.clearMasks (s : State) (sp list mask : Nat) : Nat → Nat → Option State
  | 0, _ => some s
  | n + 1, i =>
    match s.readWord sp (list + 4 * i) 4 with
    | none => none
    | some w =>
      let a := mask + w % 2 ^ 21
      match s.readWord sp a 1 with
      | none => none
      | some m =>
        match s.writeWord sp a 1 (if m.testBit (w / 2 ^ 21 % 8) then m - 2 ^ (w / 2 ^ 21 % 8) else m) with
        | none => none
        | some u => u.clearMasks sp list mask n (i + 1)

/-- SKIP: the masks, GIVEN_UP and LATE are written (R126). -/
def State.giveUpExpert (s : State) (k : Nat) (l : Landing) : Option State :=
  let sp := ctxSpace (nkCtx k)
  match (s.node k).fanOut with
  | [out, list, mask, ret, rowBytes] =>
    let sum := out + 0x40 + 16 * l.expert + 0xC
    match s.clearMasks sp (out + list) (out + mask) (l.expect / rowBytes) ((l.base - ret) / rowBytes) with
    | none => none
    | some u =>
      match u.readWord sp sum 4, u.readWord sp (out + 0x22) 2 with
      | some w, some late =>
        (u.writeWord sp sum 4 (if w.testBit 17 then w else w + 2 ^ 17)).bind fun v => v.writeWord sp (out + 0x22) 2 ((late + 1) % 2 ^ 12)
      | _, _ => none
  | _ => some s

/-- An OPEN entry that timed out (cause 0x27) or whose call was refused (0x28) becomes REVOKED, and its action applies. -/
def State.landFail (s : State) (l cause : Nat) : State :=
  let x := s.landing l
  if x.st ≠ .isOpen then s
  else
    let s := s.revoke l
    match x.owner, x.node with
    | .sequence _ q _, _ => if (s.seqEnt q).st = .importing then s.endSeq q reIMPORT else s
    | _, some k =>
      if bit (s.reg ⟨.liLandCfg, 0, 0⟩) 48 ∧ s.det = 0 then
        match s.giveUpExpert k x with
        | none => s.failNode k { cause := 0x95 } (sourceUnit 1)
        | some u => u.report { typ := 0x79, source := sourceUnit 6, ctx := some (nkCtx k),
                               body := [l + x.expert % 2 ^ 12 * 2 ^ 16, u.nodeArg k] }
      else if (s.node k).st = .active then s.failNode k { cause := cause, detail := l } (sourceUnit 6)
      else s
    | _, none => s

/-- LANDING_TIMEOUT (R126). -/
def State.landingTimeout (s : State) (l : Nat) : State :=
  let t := s.fld ⟨.liLandCfg, 0, 0⟩ 0 20
  match (s.landing l).callAt with
  | none => s
  | some a => if (s.landing l).st = .isOpen ∧ t ≠ 0 ∧ a + t ≤ s.now ∧ s.runs 6 then s.landFail l 0x27 else s

def execLandingTimeout (l : Nat) (s : State) : Host.Outcome State Fault Refusal := .next (s.landingTimeout l)

/-- The opener of an entry has finished with it: the activation of its FANOUT node that opened it is over, here or in a saved
context's image, or its sequence is no longer IMPORTING (R119). -/
def State.openerDone (s : State) (x : Landing) : Bool :=
  match x.owner, x.node with
  | .sequence _ q e, _ => decide ((s.seqEnt q).st ≠ .importing) || decide ((s.seqEnt q).epoch.toNat ≠ e)
  | _, some k =>
    let live (n : Node) : Bool := decide (n.st = .active) && decide (n.order = x.opener)
    !live (s.node k) && !(s.away (nkCtx k) && (s.ctx (nkCtx k)).keptNodes.any fun y => decide (nk (nkCtx k) y.1 = k) && live y.2)
  | _, none => true

/-- Imports that found no free landing entry, in slot order. -/
def State.importsWaiting (s : State) : List Nat :=
  (s.rs.seqs.filter fun e => decide (e.2.st = .importing) && (s.importLanding e.1).isNone).map Prod.fst

/-- LANDING_FREE (R119): HOLD µs after it left OPEN, an entry whose opener is done becomes FREE. GEN stays, and the context and
whether a drop was told, for a stale return that comes yet (R124). -/
def State.landingFree (s : State) (l : Nat) : State :=
  let x := s.landing l
  if (x.st = .filled ∨ x.st = .revoked ∨ x.st = .broken) ∧ s.openerDone x ∧ x.leftAt + s.fld ⟨.liLandCfg, 0, 0⟩ 32 16 ≤ s.now ∧ s.runs 6 then
    let s := s.updLanding l fun x => { gen := x.gen, ctx := x.ctx, dropTold := x.dropTold }
    match s.importsWaiting with
    | q :: _ => s.startImport q
    | [] => s
  else s

def execLandingFree (l : Nat) (s : State) : Host.Outcome State Fault Refusal := .next (s.landingFree l)

end Sys2Proof.Machine
end

