-- ==== Sys2Proof/Machine/Stops.lean ====
section
/-! DEFINITION. Freeze, Quiesce, Snap and resume, and the cut's markers (R316 to R319, R414 to R416, R421). -/
namespace Sys2Proof.Machine

/-- OB_ERR: bit 0 TRC, 1 STOP, 2 INSP. -/
def State.obErr (s : State) (b : Nat) : State := s.orReg ⟨.obErr, 0, 0⟩ (BitVec.ofNat 64 (2 ^ b))

/-- A stop is taken: counted, and disclosed in LOCKSTEP (R416). -/
def State.stopTaken (s : State) (st : StopState) : State :=
  (({ s with ob := { s.ob with stop := st } }).bump (gcnt 15) 1).disturb 4

/-- FREEZE. -/
def State.freezeCmd (s : State) : State :=
  match s.ob.stop with
  | .running => (s.cutMade .frozen).stopTaken .frozen
  | _ => s.obErr 1

/-- QUIESCE. -/
def State.quiesceCmd (s : State) : State :=
  match s.ob.stop with
  | .running => s.stopTaken .quiescing
  | _ => s.obErr 1

/-- No engine runs a task, and every report has reached the hub. -/
def State.enginesIdle (s : State) : Bool :=
  !(s.dl.engines.any fun e => e.2.job.isSome) && decide (s.dl.reports = []) && decide (s.dl.starts = [])

/-- QUIESCE_REACHED (R415 step 6). -/
def State.quiesceReached (s : State) : State :=
  if s.ob.stop = .quiescing ∧ s.enginesIdle then
    (s.cutMade .quiesced).report { typ := 0x82, source := sourceUnit 7, body := [s.beat] }
  else s

def execQuiesceReached (s : State) : Host.Outcome State Fault Refusal := .next s.quiesceReached

/-! ### Snap -/

/-- Revision 0x05 has markers (R309). -/
def State.marks (s : State) (k : Nat) : Bool := s.portUp k && decide (5 ≤ (s.port k).rev)

/-- The marker block of port `k` (R316). -/
def State.sendMarker (s : State) (k id : Nat) : State :=
  let x := s.port k
  let p : Parcel := { hops := 0, src := s.chipId, incarn := s.fld ⟨.liIncarn, 0, 0⟩ 0 16, body := .cutMarker id }
  let b : Block := { seq := x.nextSeq, ack := (x.rxNext + 65535) % 65536, queue := 10, parcels := [p] }
  ((s.updPort k fun x =>
    { x with nextSeq := (x.nextSeq + 1) % 65536, replay := x.replay ++ [{ blk := b, sentAt := (s.reg (gcnt 0)).toNat }],
             credits := tput 0 x.credits 10 (tget 0 x.credits 10 - 1), ackOwed := false }).emit (.block k b)).bump (gcnt 6) 1

/-- The port records of R319 are final once none is open; vector 273 is signalled then (R415). -/
def State.cutCheck (s : State) : State :=
  if s.ob.stop = .snapped ∧ ¬ s.ob.cutFinal ∧ ¬ (s.li.ports.any fun p => decide (p.2.cut = 4)) then
    let s := { s with ob := { s.ob with cutFinal := true } }
    if bit (s.reg ⟨.rqCfg, 0, 0⟩) 18 then s.vector 273 else s
  else s

/-- R306. -/
def PortState.code : PortState → Nat
  | .disabled => 0 | .training => 1 | .hello => 2 | .up => 3 | .mismatched => 4 | .fenced => 5 | .retrain => 6

/-- LI_PORT_STATUS[k]. -/
def State.portStatus (s : State) (k : Nat) : BitVec 64 :=
  let x := s.port k
  fields [(x.st.code, 0, 4), (x.rev, 8, 8), (x.reason, 16, 8)]

/-- The registers as they stand at the edge, with the ports' states, which links go on changing after it (R306, R416). -/
def State.edgeNow (s : State) : Tab (BitVec 64) :=
  (List.range 64).foldl (fun t k => tput 0 t (Reg.off ⟨.portStatus, k, 0⟩) (s.portStatus k)) s.regs

/-- A Snap with identifier `id` is taken at its edge; `by` is the port whose marker asked for it. SNAPPED stands first in the
Report Queue writer's FIFO. -/
def State.takeSnap (s : State) (id : Nat) (mk : Option Nat) : State :=
  let was := s.ob.stop
  let s := s.stopTaken .snapped
  let s := { s with ob := { s.ob with before := was, cutFinal := false, snapAt := s.now, edge := (s.beat, s.ts) } }
  let s := s.setReg ⟨.snapLast, 0, 0⟩ (BitVec.ofNat 64 id)
  let p : Packet := { typ := 0x83, source := sourceUnit 7, beat := s.beat, tick := s.beatTick, body := [id] }
  let s := { s with fe := { s.fe with fifo := p :: s.fe.fifo } }
  let s := s.each (List.range 64) fun s k =>
    if s.marks k then (s.sendMarker k id).updPort k fun x => { x with cut := if mk = some k then 1 else 4, inCut := decide (mk ≠ some k) }
    else s.updPort k fun x => { x with cut := if s.portUp k then 2 else 0, inCut := false }
  ({ s with ob := { s.ob with edgeRegs := s.edgeNow } }).cutCheck

/-- SNAP: its identifier must be higher than the last one taken. -/
def State.snapCmd (s : State) : State :=
  let id := s.fld ⟨.snapId, 0, 0⟩ 0 32
  if s.ob.stop ≠ .snapped ∧ higher32 id (s.fld ⟨.snapLast, 0, 0⟩ 0 32) then s.takeSnap id none else s.obErr 1

/-- RESUME, but for the writes held while SNAPPED. It is ignored in FATAL (R361, R414). -/
def State.resumeCmd (s : State) : State :=
  if s.fatal then s
  else match s.ob.stop with
    | .running => s.obErr 1
    | .snapped =>
      { s with
        ob := { s.ob with stop := s.ob.before }
        li := { s.li with ports := s.li.ports.map fun p =>
          (p.1, { p.2 with inCut := false, rx := p.2.rx.map fun q => (q.1, q.2.map fun (b : RxBlock) => { b with inCut := false }) }) } }
    | _ => { s with ob := { s.ob with stop := .running } }

/-- CUT_MARKER_TIMEOUT (R319): no marker 100 µs after the local edge. -/
def State.markerTimeout (s : State) (k : Nat) : State :=
  if s.ob.stop = .snapped ∧ (s.port k).cut = 4 ∧ s.ob.snapAt + 100 ≤ s.now then
    (s.updPort k fun x => { x with cut := 3, inCut := false }).cutCheck
  else s

def execCutMarkerTimeout (k : Nat) (s : State) : Host.Outcome State Fault Refusal := .next (s.markerTimeout k)

end Sys2Proof.Machine
end

