-- ==== Sys2Proof/Machine/Link.lean ====
section
/-! DEFINITION. The Link Interface's commands: port states, blocks and parcels, end-to-end delivery, calls and returns (R70, R120
to R125, R220, R289 to R320). -/
namespace Sys2Proof.Machine

/-! ### Port states and discovery (R306 to R310) -/

/-- The Link Interface's port logic works: its clock is not stopped. -/
def State.liOn (s : State) : Bool := !s.gated 6

/-- LINK_UP, LINK_MISMATCHED or LINK_FENCED. -/
def State.portEvent (s : State) (k typ reason : Nat) : State :=
  s.report { typ := typ, source := sourceUnit 6, body := [s.linkArg k + reason * 2 ^ 40] }

/-- A port comes UP: sequence numbers restart, and credits take the advertised counts. -/
def State.comeUp (s : State) (k : Nat) : State :=
  let s := s.toPortState k .up 0
  let s := s.updPort k fun x =>
    { x with nextSeq := 0, rxNext := 0, reason := 0, nakOwed := false, ackOwed := false, replay := [],
             credits := (List.range 11).foldl (fun t q => tput 0 t q (x.farCredits.getD q 0)) [] }
  s.portEvent k 0x70 0

/-- The reason code of a far end (R310; DEDUCED, log entry 36): 0 for the expected one. -/
def State.farReason (s : State) (k : Nat) : Nat :=
  let f : Reg := ⟨.portFound, k, 0⟩
  let e : Reg := ⟨.portExpect, k, 0⟩
  if s.fld f 0 13 = s.chipId then 3
  else if s.fld f 32 32 ≠ s.fld ⟨.liSystem, 0, 0⟩ 0 32 then 4
  else if ¬ bit (s.reg e) 31 then 2
  else if s.fld f 0 13 ≠ s.fld e 0 13 ∨ s.fld f 16 6 ≠ s.fld e 16 6 then 1
  else 0

/-- Both sides have seen each other: the far end is judged. -/
def State.judgePort (s : State) (k : Nat) : State :=
  let x := s.port k
  if x.st ≠ .hello ∨ ¬ x.sentSeen ∨ ¬ x.gotSeen then s
  else
    let r := s.farReason k
    if r = 0 then s.comeUp k
    else ((s.toPortState k .mismatched 0).updPort k fun x => { x with reason := r }).portEvent k 0x72 r

/-- A HELLO is taken (R308, R309): the far end and the revision are fixed, or there is no common revision. -/
def State.takeHello (s : State) (k : Nat) (p : Parcel) (far : Nat) (seen : Bool) (lo hi system : Nat) (credits : List Nat) : State :=
  if (s.port k).st ≠ .hello then s
  else
    let rev := min hi (s.fld ⟨.liRev, 0, 0⟩ 8 8)
    let s := s.setReg ⟨.portFound, k, 0⟩ (BitVec.ofNat 64 (p.src + far * 2 ^ 16 + system * 2 ^ 32))
    let s := s.updPort k fun x => { x with gotAny := true, gotSeen := x.gotSeen || seen, farCredits := credits, farRev := (lo, hi) }
    if rev < lo ∨ rev < s.fld ⟨.liRev, 0, 0⟩ 0 8 then
      ((s.toPortState k .fenced 0).updPort k fun x => { x with reason := 5 }).portEvent k 0x73 5
    else (s.updPort k fun x => { x with rev := rev }).judgePort k

/-- HELLO_SEND (R308): every 10 µs in HELLO, and in MISMATCHED and FENCED, which carry HELLO only (R306). HELLO blocks carry no sequence number (DEDUCED, log entry 27). -/
def State.helloSend (s : State) (k : Nat) : State :=
  let x := s.port k
  if (x.st = .hello ∨ x.st = .mismatched ∨ x.st = .fenced) ∧ x.helloAt ≤ s.now ∧ s.liOn ∧ s.ob.stop ≠ .snapped then
    let rev : Reg := ⟨.liRev, 0, 0⟩
    let body : PBody := .hello k x.gotAny (s.fld rev 0 8) (s.fld rev 8 8) (s.fld ⟨.liSystem, 0, 0⟩ 0 32) (List.replicate 10 24 ++ [16])
    let p : Parcel := { hops := 0, src := s.chipId, incarn := s.fld ⟨.liIncarn, 0, 0⟩ 0 16, body := body }
    let s := s.updPort k fun x => { x with helloAt := s.now + 10, sentSeen := x.sentSeen || x.gotAny }
    ((s.emit (.block k { queue := 10, parcels := [p] })).bump (gcnt 6) 1).judgePort k
  else s

def execHelloSend (k : Nat) (s : State) : Host.Outcome State Fault Refusal := .next (s.helloSend k)

/-- LINK_SILENT (R308). -/
def State.linkSilent (s : State) (k : Nat) : State :=
  let x := s.port k
  if x.st = .hello ∧ ¬ x.gotAny ∧ ¬ x.silentTold ∧ x.since + 1000 ≤ s.now ∧ s.liOn then
    (s.updPort k fun x => { x with silentTold := true }).report { typ := 0x74, source := sourceUnit 6, body := [k] }
  else s

def execLinkSilent (k : Nat) (s : State) : Host.Outcome State Fault Refusal := .next (s.linkSilent k)

/-- PHY_READY (R307). -/
def State.phyReady (s : State) (k : Nat) : State :=
  if (s.port k).st = .training then s.toPortState k .hello 0 else s

def execPhyReady (k : Nat) (s : State) : Host.Outcome State Fault Refusal := .next (s.reach 6 (.phyReady k) fun s => s.phyReady k)

/-- A port's record of the cut when it leaves UP before its marker (R320). -/
def State.cutBroken (s : State) (k : Nat) : State :=
  if (s.port k).cut = 4 then (s.updPort k fun x => { x with cut := 3 }).cutCheck else s

/-- A port that trains again (R307). -/
def State.toRetrain (s : State) (k cause : Nat) : State :=
  match (s.port k).st with
  | .up | .mismatched | .fenced | .hello => (s.toPortState k .retrain cause).cutBroken k
  | _ => s

/-- PHY_LOST. -/
def execPhyLost (k : Nat) (s : State) : Host.Outcome State Fault Refusal := .next (s.reach 6 (.phyLost k) fun s => s.toRetrain k 0)

/-- RETRAIN_EXPIRY: 1 ms has passed. -/
def State.retrainExpiry (s : State) (k : Nat) : State :=
  if (s.port k).st = .retrain ∧ (s.port k).since + 1000 ≤ s.now ∧ s.liOn then s.toPortState k .training 0 else s

def execRetrainExpiry (k : Nat) (s : State) : Host.Outcome State Fault Refusal := .next (s.retrainExpiry k)

/-- ENABLE written 1 or 0 (R307). -/
def State.enablePort (s : State) (k : Nat) : State :=
  if (s.port k).st = .disabled then s.toPortState k .training 0 else s
def State.disablePort (s : State) (k : Nat) : State :=
  if (s.port k).st = .disabled then s else (s.toPortState k .disabled 2).cutBroken k

/-- LI_ERR: bit 0 CONFIG, 1 ACCEPT. -/
def State.liErr (s : State) (b : Nat) : State := s.orReg ⟨.liErr, 0, 0⟩ (BitVec.ofNat 64 (2 ^ b))

/-- ACCEPT written 1 (R310). -/
def State.acceptPort (s : State) (k : Nat) : State :=
  let x := s.port k
  if x.st = .mismatched ∧ (x.reason = 1 ∨ x.reason = 2) then
    let f : Reg := ⟨.portFound, k, 0⟩
    (s.setReg ⟨.portExpect, k, 0⟩ (BitVec.ofNat 64 (s.fld f 0 13 + s.fld f 16 6 * 2 ^ 16 + 2 ^ 31))).comeUp k
  else s.liErr 1

/-- EXPECT of port `k`, or LI_REV, was written: ports judged before go back to HELLO (R307). -/
def State.judgeAgain (s : State) (k : Nat) : State :=
  match (s.port k).st with
  | .mismatched | .fenced => s.toPortState k .hello 0
  | _ => s

/-! ### Taking parcels out of the receive queues (R291, R299) -/

/-- Blocks of queue `q` that nothing holds any more leave it, and their credits are owed to the far end. -/
def State.settleRx (s : State) (k q : Nat) : State :=
  let bs := tget [] (s.port k).rx q
  let gone := bs.filter fun (b : RxBlock) => decide (b.parcels = []) && decide (b.held = 0)
  let owed := (gone.filter fun (b : RxBlock) => !b.old).map fun _ => q
  s.updPort k fun x =>
    { x with rx := tput [] x.rx q (bs.filter fun (b : RxBlock) => !(decide (b.parcels = []) && decide (b.held = 0)))
             owed := if x.st = .up then x.owed ++ owed else x.owed }

/-- The parcel at the head of a receive queue, and its block's number. -/
def State.headParcel (s : State) (k q : Nat) : Option (Parcel × Nat) :=
  match (tget [] (s.port k).rx q).find? fun (b : RxBlock) => decide (b.parcels ≠ []) with
  | none => none
  | some b => b.parcels.head?.map fun p => (p, b.seq)

/-- Take the head parcel; while `hold`, its block's credit stays held. -/
def State.popParcel (s : State) (k q : Nat) (hold : Bool) : State :=
  let bs := updFirst (fun (b : RxBlock) => decide (b.parcels ≠ []))
    (fun (b : RxBlock) => { b with parcels := b.parcels.drop 1, held := b.held + hold.toNat }) (tget [] (s.port k).rx q)
  (s.updPort k fun x => { x with rx := tput [] x.rx q bs }).settleRx k q

/-- A credit that a waiting call held is let go. -/
def State.unholdRx (s : State) (k q blk : Nat) : State :=
  let bs := updFirst (fun (b : RxBlock) => decide (b.seq = blk) && decide (0 < b.held)) (fun (b : RxBlock) => { b with held := b.held - 1 })
    (tget [] (s.port k).rx q)
  (s.updPort k fun x => { x with rx := tput [] x.rx q bs }).settleRx k q

/-! ### Forwarding (R313) -/

/-- A parcel dropped for want of hops; one ROUTE_LOOP packet per ms at most. -/
def State.ttlDrop (s : State) (p : Parcel) : State :=
  let s := s.bump (liCnt 8) 1
  let n := s.li.loopDrops + 1
  let s := { s with li := { s.li with loopDrops := n } }
  if (match s.li.loopTold with | some t => decide (t + 1000 ≤ s.now) | none => true) then
    { s with li := { s.li with loopDrops := 0, loopTold := some s.now } }.report
      { typ := 0x76, source := sourceUnit 6, body := [p.dst + p.src * 2 ^ 16, n] }
  else s

/-- A parcel for another chip goes on its way, or is dropped. One with no hop left after this chip is dropped here (DEDUCED,
log entry 30). -/
def State.forward (s : State) (p : Parcel) : State :=
  if p.hops ≤ 1 then s.ttlDrop p
  else match s.route p.rset p.dst with
    | none => s.bump (liCnt 9) 1
    | some k =>
      if ¬ s.sliceOk k p.slice then s.sliceReject k p.slice
      else
        let p := { p with hops := p.hops - 1 }
        s.updPort k fun x => { x with tx := tput [] x.tx p.queue (tget [] x.tx p.queue ++ [p]) }

/-! ### End-to-end judgement (R297) -/

/-- How far sequence number `a` lies above `b`, modulo 2^32. -/
def above32 (a b : Nat) : Nat := (a + 2 ^ 32 - b % 2 ^ 32) % 2 ^ 32

/-- NEXT moves past every taken number below the first gap. -/
def nextGap (taken : Tab (Nat × Nat)) : Nat → Nat → Nat
  | 0, n => n
  | m + 1, n => if (tfind taken n).isSome then nextGap taken m ((n + 1) % 2 ^ 32) else n

/-- A number is recorded as taken, and records more than 256 below NEXT are let go. -/
def SrcChip.take (x : SrcChip) (q : Nat) : SrcChip :=
  let t := tinsert x.taken q (notAnswered, 0)
  let n := nextGap t 512 x.next
  { x with next := n, taken := t.filter fun e => decide (above32 e.1 n < 2 ^ 31) || decide (above32 n e.1 ≤ 256) }

/-- The judgement of a request parcel: the state after it, and whether the parcel is taken. -/
def State.judgeE2e (s : State) (p : Parcel) : State × Bool :=
  let x := s.src p.src
  let d := (p.incarn + 2 ^ 16 - x.incarn % 2 ^ 16) % 2 ^ 16
  if d ≠ 0 ∧ d < 32768 then
    (s.updSrc p.src fun _ => ({ incarn := p.incarn, next := p.e2e } : SrcChip).take p.e2e, true)
  else if 32768 ≤ d then (s.bump (liCnt 6) 1, false)
  else match tfind x.taken p.e2e with
    | some a =>
      let s := s.bump (liCnt 7) 1
      (if a.1 = notAnswered then s else s.ackTo p.e2eOf a.1 a.2, false)
    | none =>
      if p.e2e ≠ x.next ∧ 2 ^ 31 ≤ above32 p.e2e x.next then (s.bump (liCnt 7) 1, false)
      else (s.updSrc p.src fun x => x.take p.e2e, true)

/-! ### DECREMENT (R49, R299 to R301, R70) -/

/-- Who waits for the outcome of a DECREMENT: a parcel's sender, or a local REMOTE node. -/
structure DecFrom where
  parcel : Option Parcel := none
  node : Option Nat := none
  slice : Nat
  ctx : Nat
  dest : Nat
  count : Nat

def State.decOk (s : State) (f : DecFrom) : State :=
  let s := match f.parcel with | some p => s.answerReq p.e2eOf 0 0 | none => s
  match f.node with | some k => s.remoteOk k | none => s

def State.decNo (s : State) (f : DecFrom) (reason : Nat) : State :=
  let s := match f.parcel with | some p => s.answerReq p.e2eOf 1 reason | none => s
  match f.node with | some k => s.decRefused k reason | none => s

/-- The tests of R299 for a DECREMENT, from that of a context SAVING or RESTORING on. -/
def State.decJudge (s : State) (f : DecFrom) : State :=
  match (s.ctx f.ctx).st with
  | .saving | .restoring =>
    if s.li.pend.length < 256 then
      { s with li := { s.li with pend := s.li.pend ++
        [{ parcel := f.parcel, localNode := f.node, ctx := f.ctx, node := f.dest, count := f.count }] } }
    else s.decNo f 7
  | .faulted => s.decNo f 8
  | .resident =>
    if f.slice ≠ s.ctxTag f.ctx then s.decNo f 3
    else if ¬ s.nodesValid f.ctx ∨ s.nodeWin f.ctx ≤ f.dest then s.decNo f 2
    else
      let s := { s with gs := { s.gs with resIn := s.gs.resIn ++ [Update.mk false (nk f.ctx f.dest) f.count none] } }
      s.settle.decOk f
  | _ => s.decNo f 1

/-- The held decrements of a context are settled, in arrival order (R301). -/
def State.settlePend (s : State) (c : Nat) : State :=
  let mine := s.li.pend.filter fun h => decide (h.ctx = c)
  ({ s with li := { s.li with pend := s.li.pend.filter fun h => decide (h.ctx ≠ c) } }).each mine fun s h =>
    let slice := match h.parcel, h.localNode with
      | some p, _ => p.slice
      | none, some k => s.ctxTag (nkCtx k)
      | none, none => 0
    s.decJudge { parcel := h.parcel, node := h.localNode, slice := slice, ctx := h.ctx, dest := h.node, count := h.count }

/-- REMOTE_SEND (R70): a node aimed at its own chip is judged here; any other leaves as a DECREMENT parcel. -/
def State.remoteSend (s : State) (k : Nat) : State :=
  let n := s.node k
  if n.st = .ready ∧ n.d.kind = .remote ∧ s.runs 6 ∧ s.open ∧ ¬ s.saveHolds k then
    let c := nkCtx k
    let s := s.updNode k fun n => { n with st := .active, startedAt := s.now, place := .unit, sent := true }
    if n.d.destChip = s.chipId then
      s.decJudge { node := some k, slice := s.ctxTag c, ctx := n.d.destCtx, dest := n.d.destNode, count := n.d.count }
    else s.sendReq c n.d.destChip (.decrement n.d.destNode n.d.destCtx n.d.count) (.node k)
  else s

def execRemoteSend (c i : Nat) (s : State) : Host.Outcome State Fault Refusal := .next (s.remoteSend (nk c i))

/-! ### SIGNAL (R220) -/

/-- The operation of a SIGNAL parcel. -/
def sigOp (op amt : Nat) : Option SyncOp :=
  match op with
  | 0 => some .set
  | 1 => some .clear
  | 2 => some (.advance amt)
  | _ => none

/-- A SIGNAL is judged and applied; a reserved OP cannot be translated (DEDUCED, log entry 39). -/
def State.takeSignal (s : State) (p : Parcel) (vid op c amt : Nat) : State :=
  if p.slice ≠ s.ctxTag c then s.answerReq p.e2eOf 2 3
  else match sigOp op amt with
    | none => s.answerReq p.e2eOf 2 4
    | some o => s.syncOp { src := .remote p.src p.ctx c, vid := vid, scope := 3, op := o, e2e := some p.e2eOf }

/-! ### EXPERT_CALL (R121, R122, R299) -/

/-- Words of a serving-table entry (R458). -/
def serveValid (w : List (BitVec 32)) : Bool := bit (wordAt w 0) 31
def serveExpert (w : List (BitVec 32)) : Nat := bits (wordAt w 0) 0 20
def serveCtx (w : List (BitVec 32)) : Nat := bits (wordAt w 0) 20 9
def serveBase (w : List (BitVec 32)) : Nat := bits (wordAt w 1) 0 20
def serveCount (w : List (BitVec 32)) : Nat := bits (wordAt w 2) 0 16
def serveAddr (w : List (BitVec 32)) : Nat := (wordAt w 3).toNat + (wordAt w 4).toNat * 2 ^ 32

def State.serveEnt (s : State) (e : Nat) : List (BitVec 32) := tget [] s.li.serve e

/-- The serving entry of a system expert. -/
def State.serving (s : State) (x : Nat) : Option Nat :=
  (s.li.serve.find? fun e => serveValid e.2 && decide (serveExpert e.2 = x)).map Prod.fst

/-- The call slot that the next call of an entry takes. -/
def State.nextCall (s : State) (e : Nat) : Nat := e * 256 + tget 0 s.li.callCount e % 256

/-- Nodes of the instance of call slot `x`. -/
def State.callNodes (s : State) (x : Nat) : List Nat :=
  (s.gs.nodes.filter fun n => decide (n.2.call = some x) && decide (n.2.st ≠ .free)).map Prod.fst

/-- Every node of the instance is DONE, FOLDED or FAILED. -/
def State.callOver (s : State) (x : Nat) : Bool :=
  (s.callNodes x).all fun k => decide ((s.node k).st = .done) || decide ((s.node k).st = .folded) || decide ((s.node k).st = .failed)

/-- The slot frees: its instance's last nodes and its dynamic blocks go back. -/
def State.freeCall (s : State) (x : Nat) : State :=
  let c := (s.callSlot x).ctx
  let s := s.each ((s.callNodes x).filter fun k => decide ((s.node k).st = .folded) || decide ((s.node k).st = .done)) fun s k => s.setNode k {}
  (s.freeBlocks c fun o => decide (o = .call x)).updCall x fun _ => {}

/-- The 64 bytes of a call record. -/
def callRecord (p : Parcel) (expert rows rowBytes landing gen epoch : Nat) : List Byte :=
  leBytes 2 p.src ++ leBytes 2 landing ++ leBytes 2 epoch ++ leBytes 1 gen ++ zeros 1 ++ leBytes 4 rows ++ leBytes 4 expert ++
  leBytes 4 rowBytes ++ leBytes 2 p.ctx ++ zeros 42

/-- Serve a call: its record is written, and the serving range instantiated. Answers none where the dynamic pool has no room. -/
def State.serve (s : State) (e : Nat) (p : Parcel) : Option State :=
  let w := s.serveEnt e
  let x := s.nextCall e
  let c := serveCtx w
  match p.body with
  | .call expert rows rowBytes landing gen epoch =>
    match s.instantiate c (serveBase w) (serveCount w) { call := some x, epoch := epoch, owner := .call x } id with
    | .noRoom => none
    | .bad => some (s.answerReq p.e2eOf 3 6)
    | .ok t =>
      match t.writeBytes (ctxSpace c) (serveAddr w + 64 * (x % 256)) (callRecord p expert rows rowBytes landing gen epoch) with
      | none => some ((t.answerReq p.e2eOf 3 8).ctxFault c { cause := 0x95 } (sourceUnit 6))
      | some u =>
        let u := u.updCall x fun _ =>
          { busy := true, ctx := c, srcChip := p.src, landing := landing, epoch := epoch, gen := gen, rset := p.rset, slice := p.slice,
            srcCtx := p.ctx }
        let u := { u with li := { u.li with callCount := tput 0 u.li.callCount e ((tget 0 u.li.callCount e + 1) % 256) } }
        let u := u.each (u.callNodes x) fun s k => s.updNode k fun n => { n with rows := rows }
        some ((u.answerReq p.e2eOf 0 0).settle)
  | _ => some s

/-- The refusal reason of a call, if it is refused. -/
def State.callRefusal (s : State) (p : Parcel) (expert : Nat) : Option Nat :=
  match s.serving expert with
  | none => some 6
  | some e =>
    let c := serveCtx (s.serveEnt e)
    if p.slice ≠ s.ctxTag c then some 3
    else match (s.ctx c).st with
      | .resident => none
      | .faulted => some 8
      | .saving | .saved | .restoring => some 1
      | .unused => some 6

/-- A call is served, or waits with its credit held; answers whether it waits. -/
def State.tryCall (s : State) (p : Parcel) (expert : Nat) : State × Bool :=
  match s.callRefusal p expert, s.serving expert with
  | some r, _ => (s.answerReq p.e2eOf 3 r, false)
  | none, none => (s, false)
  | none, some e =>
    let x := s.nextCall e
    let s := if (s.callSlot x).busy ∧ s.callOver x then s.freeCall x else s
    if (s.callSlot x).busy ∨ (s.li.callWait.any fun w => decide (w.entry = e)) then (s, true)
    else match s.serve e p with
      | none => (s, true)
      | some t => (t, false)

/-- The oldest waiting call of a serving entry is tried again. -/
def State.retryCall (s : State) (e : Nat) : State :=
  match s.li.callWait.find? fun w => decide (w.entry = e) with
  | none => s
  | some w =>
    match w.parcel.body with
    | .call expert .. =>
      let rest := eraseFirst (fun v => decide (v = w)) s.li.callWait
      let t := { s with li := { s.li with callWait := rest.filter fun v => decide (v.entry ≠ e) } }
      let r := t.tryCall w.parcel expert
      if r.2 then s
      else ({ r.1 with li := { r.1.li with callWait := rest } }).unholdRx w.port w.queue w.blk
    | _ => s

/-- CALL_SLOT_FREE (R121). -/
def State.callSlotFree (s : State) (x : Nat) : State :=
  if (s.callSlot x).busy ∧ s.callOver x ∧ s.runs 6 ∧ ¬ s.away (s.callSlot x).ctx then (s.freeCall x).retryCall (x / 256) else s

def execCallSlotFree (x : Nat) (s : State) : Host.Outcome State Fault Refusal := .next (s.callSlotFree x)

/-- Calls that wait for call slots of context `c` are refused (R270, R343), with the reason its state gives. -/
def State.refuseCalls (s : State) (c : Nat) : State :=
  let mine := s.li.callWait.filter fun w => decide (serveCtx (s.serveEnt w.entry) = c)
  ({ s with li := { s.li with callWait := s.li.callWait.filter fun w => decide (serveCtx (s.serveEnt w.entry) ≠ c) } }).each mine fun s w =>
    (s.answerReq w.parcel.e2eOf 3 (if (s.ctx c).st = CtxState.faulted then 8 else 1)).unholdRx w.port w.queue w.blk

/-! ### RETURN (R124) -/

/-- A return dropped as stale; the first of each entry is reported. -/
def State.staleReturn (s : State) (l epoch : Nat) (tell : Bool) : State :=
  let s := s.bump (liCnt 0) 1
  if tell ∧ ¬ (s.landing l).dropTold then
    (s.updLanding l fun x => { x with dropTold := true }).report
      { typ := 0x78, status := stSTALE, source := sourceUnit 6, ctx := some (s.landing l).ctx, body := [l + epoch * 2 ^ 16] }
  else s

/-- A RETURN is tested against its landing entry and written. -/
def State.takeReturn (s : State) (l gen epoch off : Nat) (payload : List Byte) : State :=
  let x := s.landing l
  let n := payload.length
  let genBad := decide (x.gen.toNat ≠ gen)
  if x.st = .free ∨ x.st = .revoked ∨ genBad then s.staleReturn l epoch (decide (x.st = .revoked) || genBad)
  else if x.st = .isOpen ∧ x.epoch ≠ epoch then s.staleReturn l epoch true
  else if x.st = .filled ∨ x.st = .broken ∨ off + n ≤ x.received then s.bump (liCnt 1) 1
  else if x.received < off ∨ x.expect < off + n then
    (s.updLanding l fun x => { x with st := .broken, leftAt := s.now }).ctxFault x.ctx
      { cause := 0x29, node := x.node.map nkIdx, detail := l } (sourceUnit 6)
  else match s.writeBytes (ctxSpace x.ctx) (x.base + x.received) (payload.drop (x.received - off)) with
    | none => s.ctxFault x.ctx { cause := 0x95, node := x.node.map nkIdx, detail := l } (sourceUnit 6)
    | some t =>
      let full := decide (x.expect ≤ off + n)
      let t := t.updLanding l fun x => { x with received := off + n, st := if full then .filled else x.st, leftAt := if full then t.now else x.leftAt }
      match x.owner with
      | .sequence r _ _ => if full then t.wakeRoster r else t
      | _ => t

/-! ### ACK (R296, R300) and giving up (R298) -/

/-- DETAIL of a lost SIGNAL: the VID of the far object where it was refused (R205, R341), else the destination chip. -/
def Unanswered.lostDetail (u : Unanswered) (cause : Nat) : Nat :=
  match u.parcel.body with
  | .signal vid .. => if cause = 0x54 then vid else u.dst
  | _ => u.dst

/-- A SIGNAL is refused or given up: its node fails, or its context faults and the task's completion becomes an ERROR. -/
def State.signalLost (s : State) (u : Unanswered) (cause : Nat) : State :=
  match u.asker with
  | .node k =>
    if (s.node k).st ≠ .active then s
    else if (s.node k).ending then (s.updNode k fun n => { n with sent := false }).setFolded k
    else s.failNode k { cause := cause, detail := u.lostDetail cause } (sourceUnit 6)
  | .engine e =>
    (s.updEng e fun x => { x with posted := x.posted - 1, postedLost := true }).ctxFault u.parcel.ctx
      { cause := cause, engine := some e, node := (s.eng e).job.map Launch.node, detail := u.lostDetail cause } (sourceUnit 6)
  | _ => s

/-- A call is refused or given up: its landing entry fails, if it still is the one the call was sent for (R126). -/
def State.callLost (s : State) (u : Unanswered) (l : Nat) : State :=
  match u.parcel.body with
  | .call _ _ _ _ gen _ => if (s.landing l).gen.toNat = gen then s.landFail l 0x28 else s
  | _ => s

/-- What an answer does to the one that asked. -/
def State.answered (s : State) (u : Unanswered) (status reason : Nat) : State :=
  match u.parcel.body, u.asker with
  | .decrement .., .node k => if status = 0 then s.remoteOk k else s.decRefused k reason
  | .signal .., .node k => if status = 0 then s.remoteOk k else s.signalLost u 0x54
  | .signal .., .engine e => if status = 0 then s.updEng e fun x => { x with posted := x.posted - 1 } else s.signalLost u 0x54
  | .call .., .landing l => if status = 0 then s else s.callLost u l
  | _, _ => s

/-- The unanswered parcel of a destination and number. -/
def State.unanswered (s : State) (dst seq : Nat) : Option Unanswered :=
  s.li.unanswered.find? fun u => decide (u.dst = dst) && decide (u.seq = seq)

/-- An unanswered parcel is done with, and a waiting one gets a number. -/
def State.dropUnanswered (s : State) (u : Unanswered) : State :=
  ({ s with li := { s.li with unanswered := eraseFirst (fun v => decide (v = u)) s.li.unanswered } }).numberNext

/-- An ACK is matched to its request. -/
def State.takeAck (s : State) (p : Parcel) (seq status reason : Nat) : State :=
  match s.unanswered p.src seq with
  | none => s
  | some u => (s.dropUnanswered u).answered u status reason

/-- A request parcel is given up (R298). -/
def State.giveUp (s : State) (u : Unanswered) : State :=
  let s := s.dropUnanswered u
  match u.parcel.body, u.asker with
  | .decrement .., .node k =>
    if (s.node k).st ≠ .active then s
    else if (s.node k).ending then (s.updNode k fun n => { n with sent := false }).setFolded k
    else s.failNode k { cause := 0x71, detail := u.dst } (sourceUnit 6)
  | .signal .., _ => s.signalLost u 0x71
  | .call .., .landing l => s.callLost u l
  | _, _ => s

/-- E2E_RESEND (R298). A parcel that still waits to be sent by a usable port is not resent; one that has no usable port counts as sent. -/
def State.e2eResend (s : State) (dst seq : Nat) : State :=
  match s.unanswered dst seq with
  | none => s
  | some u =>
    if s.now < u.sentAt + s.fld ⟨.liE2eCfg, 0, 0⟩ 0 14 ∨ ¬ s.runs 6 ∨ (u.queued ∧ (s.route u.parcel.rset u.dst).isSome) then s
    else if u.resends < s.fld ⟨.liE2eCfg, 0, 0⟩ 16 4 then
      let again := updFirst (fun v => decide (v = u)) (fun v => { v with resends := v.resends + 1, sentAt := s.now, queued := true }) s.li.unanswered
      ({ s with li := { s.li with unanswered := again } }).bump (liCnt 5) 1
    else s.giveUp u

def execE2eResend (dest seq : Nat) (s : State) : Host.Outcome State Fault Refusal := .next (s.e2eResend dest seq)

/-! ### BEAT (R315) and CUT_MARKER (R316 to R319, R421) -/

/-- The port whose BEAT parcels count: the lowest-numbered UP port with BEAT_IN 1. -/
def State.beatPort (s : State) : Option Nat := (List.range 64).find? fun k => s.portUp k && bit (s.reg ⟨.portCfg, k, 0⟩) 2

/-- A BEAT parcel is accepted for application after REMOTE_DELAY, ignored as early, or discarded (R274, R275, R315). One too late for
the window leaves the tick to the flywheel; none is accepted before READY (R396). -/
def State.takeBeat (s : State) (k v : Nat) : State :=
  if s.beatSource = 2 ∧ s.beatPort = some k ∧ s.ready then
    if s.beatTick + s.beatWindow < s.beatPeriod then s.glitch
    else if s.beatTick ≤ s.beatPeriod + s.beatWindow then { s with tb := { s.tb with remote := some v, remoteAt := s.now } }
    else s
  else s.bump (liCnt 10) 1

/-- A CUT_MARKER that is not awaited: it triggers a Snap, or is discarded. -/
def State.takeMarker (s : State) (k id : Nat) : State :=
  if higher32 id (s.fld ⟨.snapLast, 0, 0⟩ 0 32) then s.takeSnap id (some k) else s

/-! ### What a parcel does -/

/-- The effect of a parcel for this chip that has passed the port, forwarding and end-to-end tests. A call may have to wait; then
the answer is true. -/
def State.parcelHere (s : State) (k : Nat) (p : Parcel) : State × Bool :=
  match p.body with
  | .decrement n c cnt => (s.decJudge { parcel := some p, slice := p.slice, ctx := c, dest := n, count := cnt }, false)
  | .signal v op c amt => (s.takeSignal p v op c amt, false)
  | .call e .. => s.tryCall p e
  | .ret l g ep off d => (s.takeReturn l g ep off d, false)
  | .ack q st r => (s.takeAck p q st r, false)
  | .hello far seen lo hi sys cr => (s.takeHello k p far seen lo hi sys cr, false)
  | .beat v => (s.takeBeat k v, false)
  | .cutMarker id => (s.takeMarker k id, false)
  | .unknown .. => (s, false)

/-- The tests of R299 on a parcel taken out of a block at port `k`. -/
def State.parcelTests (s : State) (k : Nat) (p : Parcel) : State × Bool :=
  if ¬ p.isCtl ∧ ¬ s.sliceOk k p.slice then (s.sliceReject k p.slice, false)
  else if ¬ p.isCtl ∧ p.dst ≠ s.chipId then (s.forward p, false)
  else
    let s := s.bump (gcnt 7) 1
    if p.isReq then
      let j := s.judgeE2e p
      if j.2 then j.1.parcelHere k p else (j.1, false)
    else s.parcelHere k p

/-- The parcel at the head of queue `q` of port `k` is taken. A call that waits keeps its block's credit. -/
def State.takeHead (s : State) (k q : Nat) : State :=
  match s.headParcel k q with
  | none => s
  | some (p, blk) =>
    let r := s.parcelTests k p
    let t := r.1.popParcel k q r.2
    match r.2, p.body with
    | true, .call e .. =>
      match t.serving e with
      | some ent => { t with li := { t.li with callWait := t.li.callWait ++ [CallWait.mk ent p k q blk] } }
      | none => t
    | _, _ => t

/-- Take the head parcel if it is of type `typ`; in LOCKSTEP parcels are taken at the tick instead (R328). -/
def State.takeType (s : State) (k q typ : Nat) : State :=
  match s.headParcel k q with
  | some (p, _) => if p.body.typ = typ ∧ s.runs 6 ∧ ¬ s.lockstep then s.takeHead k q else s
  | none => s

def execDecrementReceive (k q : Nat) (s : State) : Host.Outcome State Fault Refusal := .next (s.takeType k q 1)
def execSignalReceive (k q : Nat) (s : State) : Host.Outcome State Fault Refusal := .next (s.takeType k q 2)
def execExpertCallReceive (k q : Nat) (s : State) : Host.Outcome State Fault Refusal := .next (s.takeType k q 3)
def execReturnReceive (k q : Nat) (s : State) : Host.Outcome State Fault Refusal := .next (s.takeType k q 4)
def execAckReceive (k q : Nat) (s : State) : Host.Outcome State Fault Refusal := .next (s.takeType k q 5)
def execHelloReceive (k q : Nat) (s : State) : Host.Outcome State Fault Refusal := .next (s.takeType k q 0x10)
def execBeatParcelReceive (k q : Nat) (s : State) : Host.Outcome State Fault Refusal := .next (s.takeType k q 0x11)

/-- Take the first marker out of a queue, whatever stands before it. -/
def dropMarker : List Parcel → Option (Nat × List Parcel)
  | [] => none
  | p :: ps =>
    match p.body with
    | .cutMarker id => some (id, ps)
    | _ => (dropMarker ps).map fun r => (r.1, p :: r.2)

def dropMarkers : List RxBlock → Option (Nat × List RxBlock)
  | [] => none
  | b :: bs =>
    match dropMarker b.parcels with
    | some (id, ps) => some (id, { b with parcels := ps } :: bs)
    | none => (dropMarkers bs).map fun r => (r.1, b :: r.2)

/-- CUT_MARKER_RECEIVE: while SNAPPED the marker of the taken Snap closes its port's cut; a newer one is discarded and counted. -/
def State.markerReceive (s : State) (k q : Nat) : State :=
  if s.ob.stop = .snapped then
    match dropMarkers (tget [] (s.port k).rx q) with
    | none => s
    | some (id, bs) =>
      let s := s.updPort k fun x => { x with rx := tput [] x.rx q bs }
      if id = s.fld ⟨.snapLast, 0, 0⟩ 0 32 ∧ (s.port k).cut = 4 then (s.updPort k fun x => { x with cut := 1, inCut := false }).cutCheck
      else if higher32 id (s.fld ⟨.snapLast, 0, 0⟩ 0 32) then s.bump ⟨.markersIgnored, 0, 0⟩ 1
      else s
  else s.takeType k q 0x12

def execCutMarkerReceive (k q : Nat) (s : State) : Host.Outcome State Fault Refusal := .next (s.markerReceive k q)

/-! ### Blocks (R23, R290 to R292) -/

/-- A hop fault: LINK_PATH_FAULT, and the port trains again. -/
def State.hopFault (s : State) (k seq : Nat) : State :=
  (s.report { typ := 0x75, source := sourceUnit 6, body := [k + seq * 2 ^ 16] }).toRetrain k 1

/-- Resend every kept block from number `seq` on; a block already resent 8 times is a hop fault. -/
def State.resendFrom (s : State) (k seq : Nat) : State :=
  let x := s.port k
  match x.replay.find? fun b => decide (b.blk.seq = seq) with
  | none => s
  | some b =>
    if 8 ≤ b.tries then s.hopFault k seq
    else
      let keep := x.replay.takeWhile fun c => decide (c.blk.seq ≠ seq)
      let again := (x.replay.drop keep.length).map fun c => { c with tries := c.tries + 1, sentAt := (s.reg (gcnt 0)).toNat }
      (s.updPort k fun x => { x with replay := keep ++ again }).each again fun s c => s.emit (.block k c.blk)

/-- NAK_RECEIVE (R23, R290). A SNAPPED chip sends nothing but blocks of LENGTH 0 (R316). -/
def State.nakReceive (s : State) (k seq : Nat) : State :=
  if s.portUp k ∧ s.ob.stop ≠ .snapped then s.resendFrom k (seq % 65536) else s

def execNakReceive (k seq : Nat) (s : State) : Host.Outcome State Fault Refusal :=
  .next (s.reach 6 (.nakReceive k seq) fun s => s.nakReceive k seq)

/-- HOP_ACK_TIMEOUT (R290): 4,096 hub cycles, or 8,192 after the eighth resend. -/
def State.hopTimeout (s : State) (k : Nat) : State :=
  match (s.port k).replay with
  | [] => s
  | b :: _ =>
    let age := (s.reg (gcnt 0)).toNat - b.sentAt
    if ¬ s.portUp k ∨ ¬ s.liOn ∨ s.ob.stop = .snapped then s
    else if b.tries < 8 then if 4096 ≤ age then s.resendFrom k b.blk.seq else s
    else if 8192 ≤ age then s.hopFault k b.blk.seq
    else s

def execHopAckTimeout (k : Nat) (s : State) : Host.Outcome State Fault Refusal := .next (s.hopTimeout k)

/-- The credits that a block returns. They count once: a block of LENGTH 0 is sent once, and of a resent one only the copy that is
taken counts (R23, R291). -/
def Port.credit (x : Port) (b : Block) : Port :=
  if b.credN = 0 then x else { x with credits := tput 0 x.credits b.credQ (tget 0 x.credits b.credQ + b.credN) }

/-- The block's acknowledgement and NAK. -/
def State.blockBack (s : State) (k : Nat) (b : Block) : State :=
  let s := s.updPort k fun x =>
    { x with replay := x.replay.filter fun c => decide (2 ^ 15 ≤ (b.ack + 65536 - c.blk.seq % 65536) % 65536) }
  if b.nak ∧ s.ob.stop ≠ .snapped then s.resendFrom k ((b.ack + 1) % 65536) else s

/-- Parcels of a block by the types known at the port's revision, CUT_MARKER only from 0x05 on; the others are dropped and counted
(R294, R309). -/
def State.dropUnknown (s : State) (k : Nat) (ps : List Parcel) : State × List Parcel :=
  let known := ps.filter fun p => match p.body with | .unknown .. => false | .cutMarker _ => decide (5 ≤ (s.port k).rev) | _ => true
  (s.bump (liCnt 3) (ps.length - known.length), known)

/-- A block goes into its receive queue. -/
def State.queueBlock (s : State) (k : Nat) (b : Block) (raw : List Byte) : State :=
  let r := s.dropUnknown k b.parcels
  ((r.1.updPort k fun x => { x with rx := tput [] x.rx b.queue (tget [] x.rx b.queue ++ [{ seq := b.seq, parcels := r.2, raw := raw, inCut := x.inCut }]) }).settleRx
    k b.queue).checkHold

/-- A block carries a HELLO. -/
def Block.hello (b : Block) : Bool := b.parcels.any fun p => decide (p.body.typ = 0x10)

/-- A block's bytes arrive at port `k`. A HELLO that arrives in UP is ignored (R308); a port in HELLO, MISMATCHED or FENCED takes
nothing else (R306). -/
def State.blockIn (s : State) (k : Nat) (bytes : List Byte) : State :=
  match (s.port k).st with
  | .up =>
    match Block.ofBytes bytes with
    | none => s.updPort k fun x => { x with nakOwed := true }
    | some b =>
      if b.hello then s
      else
      let s := s.blockBack k b
      if ¬ s.portUp k then s
      else if b.parcels = [] then s.updPort k fun x => x.credit b
      else
        let d := (b.seq + 65536 - (s.port k).rxNext) % 65536
        if d = 0 then
          (s.updPort k fun x => { x.credit b with rxNext := (b.seq + 1) % 65536, ackOwed := true, nakOwed := false }).queueBlock k b bytes
        else if 2 ^ 15 ≤ d then s.updPort k fun x => { x with ackOwed := true }
        else s.updPort k fun x => { x with nakOwed := true }
  | .hello | .mismatched | .fenced =>
    match Block.ofBytes bytes with
    | none => s
    | some b =>
      let ps := b.parcels.filter fun p => decide (p.body.typ = 0x10)
      s.updPort k fun x => { x with rx := tput [] x.rx 10 (tget [] x.rx 10 ++ (if ps = [] then [] else [{ seq := b.seq, parcels := ps, old := true, raw := bytes }])) }
  | _ => s

/-- BLOCK_RECEIVE: receive logic goes on in every stop (R316, R317, R415). -/
def State.blockReceive (s : State) (k : Nat) (bytes : List Byte) : State :=
  s.reach 6 (.blockReceive k bytes) fun s => s.blockIn k bytes

def execBlockReceive (k : Nat) (bytes : List Byte) (s : State) : Host.Outcome State Fault Refusal := .next (s.blockReceive k bytes)

/-! ### Transmit (R304) -/

/-- The parcels that fill one block: whole parcels up to 236 bytes. -/
def fillBlock : Nat → List Parcel → List Parcel
  | _, [] => []
  | room, p :: ps => if p.bytes.length ≤ room then p :: fillBlock (room - p.bytes.length) ps else []

/-- What a block of port `k` carries: acknowledgement, NAK and one queue's credits. -/
def Port.header (x : Port) (snapped : Bool) : Block :=
  let q := if snapped then none else x.owed.head?
  { seq := x.nextSeq, ack := (x.rxNext + 65535) % 65536, nak := x.nakOwed, credQ := q.getD 0,
    credN := match q with | some q => min 255 (x.owed.filter (· = q)).length | none => 0 }

/-- The credits in a block's header are returned. -/
def Port.sent (x : Port) (b : Block) : Port :=
  { x with ackOwed := false, nakOwed := false, owed := if b.credN = 0 then x.owed else x.owed.filter fun q => decide (q ≠ b.credQ) }

/-- Send a block of parcels of queue `q`: it takes a credit and is kept for replay. -/
def State.sendBlock (s : State) (k q : Nat) (ps : List Parcel) : State :=
  let x := s.port k
  let b := { x.header false with queue := q, parcels := ps }
  let s := s.updPort k fun x =>
    { x.sent b with nextSeq := (x.nextSeq + 1) % 65536, replay := x.replay ++ [{ blk := b, sentAt := (s.reg (gcnt 0)).toNat }],
                    credits := tput 0 x.credits q (tget 0 x.credits q - 1) }
  (s.emit (.block k b)).bump (gcnt 6) (ps.filter fun p => decide (p.src = s.chipId)).length

/-- A queue of the transmit stage that can be served: CTL, then RSP4 to RSP0, then REQ4 to REQ0. -/
def Port.serves (x : Port) : Option (Nat × List Parcel) :=
  if x.ctl ≠ [] ∧ tget 0 x.credits 10 ≠ 0 then some (10, x.ctl)
  else ([9, 8, 7, 6, 5, 4, 3, 2, 1, 0].find? fun q => decide (tget [] x.tx q ≠ []) && decide (tget 0 x.credits q ≠ 0)).map
    fun q => (q, tget [] x.tx q)

/-- A pod's link regulator is empty (R283). -/
def State.linkHeld (s : State) (p : Nat) : Bool :=
  decide (s.fld ⟨.podRegLink, p, 0⟩ 0 20 ≠ 0) && decide (tget 0 s.dl.linkBucket p ≤ 0)

/-- Bytes that a pod puts on the links, charged in granules to its regulator (R283; DEDUCED, log entry 38). -/
def State.chargeLink (s : State) (p bytes : Nat) : State :=
  let c : SlowCount := tget {} s.dl.slow p
  let s := { s with dl := { s.dl with slow := tput {} s.dl.slow p { c with linkBytes := c.linkBytes + bytes } } }
  if s.fld ⟨.podRegLink, p, 0⟩ 0 20 = 0 then s
  else { s with dl := { s.dl with linkBucket := tput 0 s.dl.linkBucket p (tget 0 s.dl.linkBucket p - (ceilDiv bytes 64 : Nat)) } }

/-- The pod's parcels as they leave: their bytes are charged, and counted for their contexts (R283, R400). -/
def State.countLink (s : State) (p : Nat) (ps : List Parcel) : State :=
  (s.each ps fun s (q : Parcel) => s.bump (ctxCnt q.ctx 11) q.bytes.length).chargeLink p (ps.flatMap Parcel.bytes).length

/-- RETURN parcels whose route leaves by port `k`, in order. -/
def State.returns (s : State) (k : Nat) : List Parcel :=
  (s.li.retWait.filter fun (x : Nat × Parcel) => decide (s.route x.2.rset x.2.dst = some k)).map Prod.snd

/-- Queued request parcels whose route leaves by port `k`, in order. -/
def State.starting (s : State) (k : Nat) : List Unanswered :=
  s.li.unanswered.filter fun u => u.queued && decide (s.route u.parcel.rset u.dst = some k)

/-- Queued requests count as sent now. -/
def State.markSent (s : State) (us : List Unanswered) : State :=
  { s with li := { s.li with unanswered := s.li.unanswered.map fun v => if v ∈ us then { v with queued := false, sentAt := s.now } else v } }

/-- What an isolated port refuses is counted: a request then counts as sent, and a RETURN is gone (R314; DEDUCED, log entry 40). -/
def State.refuseStart (s : State) (k : Nat) : State :=
  let bad := (s.starting k).filter fun u => !s.sliceOk k u.parcel.slice
  let gone := (s.returns k).filter fun p => !s.sliceOk k p.slice
  let t := (s.markSent bad).each bad fun s u => s.sliceReject k u.parcel.slice
  ({ t with li := { t.li with retWait := t.li.retWait.filter fun (x : Nat × Parcel) => decide (x.2 ∉ gone) } }).each gone fun s p => s.sliceReject k p.slice

/-- Parcels of another tag that stand in the transmit stage of a port made isolated are refused (R314). -/
def State.refuseTx (s : State) (k : Nat) : State :=
  let bad := ((s.port k).tx.flatMap fun (x : Nat × List Parcel) => x.2).filter fun p => !s.sliceOk k p.slice
  let keep (s : State) (x : Nat × List Parcel) : Nat × List Parcel := (x.1, x.2.filter fun p => s.sliceOk k p.slice)
  if bad = [] then s
  else (s.updPort k fun x => { x with tx := (x.tx.map (keep s)).filter fun (y : Nat × List Parcel) => decide (y.2 ≠ []) }).each bad
    fun s p => s.sliceReject k p.slice

/-- RETURN parcels of pod `p` that can leave by port `k` now. -/
def State.podReturns (s : State) (k p : Nat) : List Parcel :=
  if tget 0 (s.port k).credits 5 = 0 then [] else (s.returns k).filter fun q => decide (s.podOf q.ctx = p)

/-- Requests of pod `p` that can leave by port `k` now. -/
def State.podRequests (s : State) (k p : Nat) : List Unanswered :=
  if tget 0 (s.port k).credits 0 = 0 then [] else (s.starting k).filter fun u => decide (u.pod = p)

/-- Parcels of contexts that start their route here: the pods in rotation, those whose regulator is empty held back; of one pod the
RETURNs go first, since responses never wait behind requests (R283, R291, R304; DEDUCED, log entry 38). -/
def State.sendStarting (s : State) (k : Nat) : State :=
  let last := (s.port k).rotor
  let pods := ((List.range 16).map fun j => (last + 1 + j) % 16).filter fun p => decide (s.podReturns k p ≠ []) || decide (s.podRequests k p ≠ [])
  match pods.find? fun p => !s.linkHeld p with
  | none => s
  | some p =>
    let rs := s.podReturns k p
    let mine := s.podRequests k p
    let t := s.updPort k fun x => { x with rotor := p }
    if rs = [] then
      let go := mine.take (fillBlock 236 (mine.map Unanswered.parcel)).length
      ((t.markSent go).sendBlock k 0 (go.map Unanswered.parcel)).countLink p (go.map Unanswered.parcel)
    else
      let go := fillBlock 236 rs
      (({ t with li := { t.li with retWait := go.foldl (fun l p => eraseFirst (fun (q : Nat × Parcel) => decide (q.2 = p)) l) t.li.retWait } }).sendBlock k 5 go).countLink p go

/-- TRANSMIT_SLOT: one block slot of port `k`. -/
def State.transmitSlot (s : State) (k : Nat) : State :=
  let x := s.port k
  let bare (s : State) : State :=
    let x := s.port k
    let snapped := decide (s.ob.stop = .snapped)
    if x.ackOwed ∨ x.nakOwed ∨ (x.owed ≠ [] ∧ ¬ snapped ∧ s.ob.stop ≠ .frozen) then
      let b := x.header (snapped || decide (s.ob.stop = .frozen))
      (s.updPort k fun x => x.sent b).emit (.block k b)
    else s
  if x.st ≠ .up ∨ ¬ s.liOn then s
  else if ¬ s.hubOn ∨ 2048 ≤ x.replay.length then bare s
  else
  let s := s.refuseTx k
  match (s.port k).serves with
    | some (q, l) =>
      let ps := fillBlock 236 l
      (s.updPort k fun x =>
        if q = 10 then { x with ctl := l.drop ps.length } else { x with tx := tput [] x.tx q (l.drop ps.length) }).sendBlock k q ps
    | none =>
      let s := s.refuseStart k
      let t := s.sendStarting k
      if t = s then bare s else t

def execTransmitSlot (k : Nat) (s : State) : Host.Outcome State Fault Refusal := .next (s.transmitSlot k)

/-! ### RETURN parcels of serving tasks (R123) -/

/-- RETURN_PARCEL_SEND: the LE task's instance gives the call slot, from which the parcel is filled in. A RETURN that names another
call slot, of which R123 says nothing, is ignored: serving programs cannot redirect a return (DESIGN CHOICE, log entry 84). -/
def State.returnSend (s : State) (e x off : Nat) (payload : List Byte) : State :=
  match (s.eng e).job with
  | none => s
  | some l =>
    match (s.node l.key).call with
    | none => s
    | some y =>
      let n := payload.length
      if ¬ isLE e ∨ y % 256 ≠ x % 256 ∨ off % 64 ≠ 0 ∨ ¬ (n = 64 ∨ n = 128 ∨ n = 192) ∨ ¬ s.takes 6 then s
      else
        let c := s.callSlot y
        let p : Parcel := { rset := c.rset, dst := c.srcChip, src := s.chipId, slice := c.slice, ctx := l.ctx,
                            incarn := s.fld ⟨.liIncarn, 0, 0⟩ 0 16, body := .ret c.landing c.gen c.epoch off payload }
        { s with li := { s.li with retWait := s.li.retWait ++ [(e, p)] } }

def execReturnParcelSend (e x off : Nat) (payload : List Byte) (s : State) : Host.Outcome State Fault Refusal :=
  .next (s.reach 6 (.returnParcelSend e x off payload) fun s => s.returnSend e x off payload)

/-! ### Waiting for dynamic blocks (R61) -/

/-- One waiting instantiation is tried again. -/
def State.dynTry (s : State) (k : Nat) : State :=
  if k ∉ (s.ctx (nkCtx k)).dynWait then s
  else if (s.node k).d.kind = .anchor then
    match s.trickOf k with
    | some r => s.instantiateTrick r
    | none => s.dynServed k
  else match s.gs.fanHeld.find? fun w => decide (w.node = k) with
    | some w => s.fanInstances w
    | none => s.dynServed k

/-- Serving entries with calls that wait for context `c`, in order. -/
def State.callsFor (s : State) (c : Nat) : List Nat :=
  ((s.li.callWait.map CallWait.entry).filter fun e => decide (serveCtx (s.serveEnt e) = c)).eraseDups

/-- DYN_RETRY: the waiting instantiations of context `c` are tried again in the order in which they began to wait, each taking blocks
only if it fits whole, and then the calls of its serving entries. -/
def State.dynRetry (s : State) (c : Nat) : State :=
  if ¬ s.runs 1 ∨ s.away c then s
  else
    let t := s.each (s.ctx c).dynWait State.dynTry
    t.each (t.callsFor c) State.retryCall

def execDynRetry (c : Nat) (s : State) : Host.Outcome State Fault Refusal := .next (s.dynRetry c)

end Sys2Proof.Machine
end

