-- ==== Sys2Proof/Machine/Pods.lean ====
section
/-! DEFINITION. The registers of pods, tiles, tile sets and context windows, by what a write of them does (R36, R72, R78,
R249 to R252, R428 to R433, R447 to R449). -/
namespace Sys2Proof.Machine

/-! ### Error bits -/

/-- TSU_POD_ERR[p]: bit 0 CONFIG, 1 SLOTS, 2 TILES, 3 TSET, 4 QUOTA, 5 PAGES, 6 SYNC, 7 SWAPQ. -/
def State.podErr (s : State) (p b : Nat) : State := s.orReg ⟨.podErr, p, 0⟩ (BitVec.ofNat 64 (2 ^ b))

/-- GS_ERR: bit 0 WINDOW, 1 CTX, 2 CFG. -/
def State.gsErr (s : State) (b : Nat) : State := s.orReg ⟨.gsErr, 0, 0⟩ (BitVec.ofNat 64 (2 ^ b))

/-! ### Pods (R249, R431) -/

def State.podOn (s : State) (p : Nat) : Bool := bit (s.reg ⟨.podCfg, p, 0⟩) 0

/-- Enabled slots of pod `p`. -/
def State.podSlotsOn (s : State) (p : Nat) : List Nat :=
  (s.fe.slots.filter fun e => decide (e.2.st ≠ .disabled) && decide (s.slotPod e.1 = p)).map Prod.fst

/-- The pod owns a tile, an enabled slot or a context that is not UNUSED. -/
def State.podInUse (s : State) (p : Nat) : Bool :=
  (List.range 384).any (s.ownsTile p) || decide (s.podSlotsOn p ≠ []) ||
  s.gs.ctxs.any fun c => decide (c.2.st ≠ .unused) && decide (s.podOf c.1 = p)

/-- TSU_POD_CFG[p]. -/
def State.writePodCfg (s : State) (p : Nat) (v : BitVec 64) : State :=
  if ¬ bit v 0 ∧ s.podOn p ∧ s.podInUse p then s.podErr p 0 else s.plainWrite ⟨.podCfg, p, 0⟩ v

/-- TSU_POD_SLOTS[p]: BASE [7:0], COUNT [24:16]. -/
def State.writePodSlots (s : State) (p : Nat) (v : BitVec 64) : State :=
  let b := bits v 0 8
  let n := bits v 16 9
  let meets (q : Nat) : Bool :=
    let x := s.reg ⟨.podSlots, q, 0⟩
    decide (q ≠ p) && decide (b < bits x 0 8 + bits x 16 9) && decide (bits x 0 8 < b + n) && decide (n ≠ 0) && decide (bits x 16 9 ≠ 0)
  if 256 < b + n ∨ (List.range 16).any meets ∨ ¬ (s.podSlotsOn p).all (fun k => decide (b ≤ k) && decide (k < b + n)) then s.podErr p 1
  else s.plainWrite ⟨.podSlots, p, 0⟩ v

/-- TSU_POD_SLICE[p]. -/
def State.writePodSlice (s : State) (p : Nat) (v : BitVec 64) : State :=
  if bits v 0 17 < 10 ∨ 100000 < bits v 0 17 then s.podErr p 0 else s.plainWrite ⟨.podSlice, p, 0⟩ v

/-- TSU_POD_PREEMPT[p]. -/
def State.writePodPreempt (s : State) (p : Nat) (v : BitVec 64) : State :=
  if bits v 16 10 = 0 ∨ 1000 < bits v 16 10 then s.podErr p 0 else s.plainWrite ⟨.podPreempt, p, 0⟩ v

/-- TSU_POD_DEAL[p] (R78). -/
def State.writePodDeal (s : State) (p : Nat) (v : BitVec 64) : State :=
  let sum (lo w : Nat) : Nat := ((List.range 16).map fun q => if q = p then bits v lo w else s.fld ⟨.podDeal, q, 0⟩ lo w).sum
  if bits v 32 13 = 0 ∨ 4096 < bits v 32 13 then s.podErr p 0
  else if 4096 < sum 0 13 ∨ 256 < sum 16 9 then s.podErr p 4
  else s.plainWrite ⟨.podDeal, p, 0⟩ v

/-- TSU_POD_SWAPQ[p]: POP first, then PUSH (R432). -/
def State.writeSwapq (s : State) (p : Nat) (v : BitVec 64) : State :=
  let s := if bit v 31 then s.updPod p fun x => { x with swapq := x.swapq.drop 1 } else s
  if bit v 12 then
    if 8 ≤ (s.pod p).swapq.length then s.podErr p 7
    else s.updPod p fun x => { x with swapq := x.swapq ++ [bits v 0 9] }
  else s

/-! ### Tiles (R250, R428) -/

/-- TSU_TILE_OWNER[i]. -/
def State.writeTileOwner (s : State) (i : Nat) (v : BitVec 64) : State :=
  let r : Reg := ⟨.tileOwner, i, 0⟩
  let cur := s.reg r
  let q := bits v 0 4
  if bit v 4 then
    if bit cur 4 then (if bits cur 0 4 = q then s else s.podErr q 2)
    else if bit cur 5 ∨ ¬ s.podOn q then s.podErr q 2
    else s.setReg r (BitVec.ofNat 64 (q + 16))
  else if bit cur 4 then (s.setReg r (BitVec.ofNat 64 (bits cur 0 4 + 32))).rehomeAnd true fun _ => false
  else if bit cur 5 then s
  else s.setReg r (BitVec.ofNat 64 q)

/-- No cell of tile `i` runs a task. -/
def State.tileIdle (s : State) (i : Nat) : Bool :=
  !(s.dl.engines.any fun e => e.2.job.isSome && !isLE e.1 && decide (engTileIdx e.1 = i))

/-- TILE_DEPARTED: BUSY returns to 0. -/
def State.tileDeparted (s : State) (i : Nat) : State :=
  let r : Reg := ⟨.tileOwner, i, 0⟩
  if bit (s.reg r) 5 ∧ s.tileIdle i then s.setReg r (setBit (s.reg r) 5 false) else s

def execTileDeparted (i : Nat) (s : State) : Host.Outcome State Fault Refusal := .next (s.tileDeparted i)

/-! ### Staged tables (R433) -/

/-- The staging words 0 to n - 1 of a DATA register array. -/
def State.staged (s : State) (d : RegName) (i n : Nat) (sub : Bool) : List (BitVec 32) :=
  (List.range n).map fun j => (s.reg (if sub then ⟨d, i, j⟩ else ⟨d, j, 0⟩)).setWidth 32

def State.loadStaging (s : State) (d : RegName) (i n : Nat) (sub : Bool) (ws : List (BitVec 32)) : State :=
  s.each (List.range n) fun s j => s.setReg (if sub then ⟨d, i, j⟩ else ⟨d, j, 0⟩) ((ws.getD j 0).setWidth 64)

/-- An entry, all of whose words are zero, is not listed. -/
def normWords (ws : List (BitVec 32)) : List (BitVec 32) := if ws.all (· = 0) then [] else ws

/-! ### Tile sets (R71, R72) -/

/-- The tiles a TILE_MASK names. -/
def tsetTiles (ws : List (BitVec 32)) : List Nat := (List.range 384).filter (tsetTile ws)

/-- The staged entry is good for pod `p`. -/
def State.tsetOk (s : State) (p : Nat) (ws : List (BitVec 32)) : Bool :=
  (tsetTiles ws).all (s.ownsTile p) && !(tsetValid ws && decide (tsetTiles ws = []) && decide (tsetLe ws = 0)) &&
  decide (bits (wordAt ws 13) 1 31 = 0) && decide (wordAt ws 14 = 0) && decide (wordAt ws 15 = 0)

/-- A commit into entry `i`, judged at its write: it is in progress until the end of the next hub cycle, and one written meanwhile
is ignored (R72). -/
def State.commitTset (s : State) (p i : Nat) : State :=
  let ws := s.staged .podTsetData p 16 true
  if (s.pod p).commit.isNone ∧ s.tsetOk p ws then s.updPod p fun x => { x with commit := some (i, ws) } else s.podErr p 3

/-- A commit completes: the entry takes effect in the hub and every dealer, and entries that it moves are dispatched again (R72,
R74, R75). -/
def State.endCommit (s : State) (p : Nat) : State :=
  match (s.pod p).commit with
  | none => s
  | some (i, ws) =>
    (s.updPod p fun x => { x with tset := tput [] x.tset i (normWords ws), commit := none }).rehomeAnd true fun k =>
      decide (s.nodePod k = p) && decide ((s.node k).d.tileset = i)

/-- The commits in progress complete (R72; DESIGN CHOICE, log entry 60: with the next hub cycle or tick). -/
def State.endCommits (s : State) : State :=
  s.each ((s.dl.pods.filter fun p => p.2.commit.isSome).map Prod.fst) State.endCommit

/-- TSU_POD_TSET_SEL[p]. -/
def State.writeTsetSel (s : State) (p : Nat) (v : BitVec 64) : State :=
  let old := s.fld ⟨.podTsetSel, p, 0⟩ 0 8
  let s := s.plainWrite ⟨.podTsetSel, p, 0⟩ v
  if bit v 16 then s.commitTset p (bits v 0 8)
  else if old = bits v 0 8 then s
  else s.loadStaging .podTsetData p 16 true (s.tset p (bits v 0 8))

/-! ### Contexts (R36, R252, R259, R447 to R449) -/

/-- Contexts that count towards the 64 (R259). -/
def State.residents (s : State) : Nat :=
  (s.gs.ctxs.filter fun c => decide (c.2.st = .resident) || decide (c.2.st = .saving) || decide (c.2.st = .restoring)).length

def winReg (edges : Bool) : RegName := if edges then .ctxEdges else .ctxNodes

/-- A valid window of the same kind of another context overlaps units [b, b + n). -/
def State.winMeets (s : State) (edges : Bool) (c b n : Nat) : Bool :=
  (List.range 512).any fun x =>
    let v := s.reg ⟨winReg edges, x, 0⟩
    decide (x ≠ c) && bit v 31 && decide (b < bits v 0 10 + bits v 16 11) && decide (bits v 0 10 < b + n)

/-- The conditions of a VALID 1 write. -/
def State.winOk (s : State) (edges : Bool) (c b n : Nat) : Bool :=
  decide (1 ≤ n) && decide (b + n ≤ 1024) && !s.winMeets edges c b n &&
  decide (s.fld ⟨.ctxDyn, c, 0⟩ (if edges then 16 else 0) 11 ≤ n) &&
  (edges || decide ((s.ctx c).st ≠ .unused) || decide (s.residents < 64))

/-- A context goes back to UNUSED. -/
def State.toUnused (s : State) (c : Nat) : State :=
  s.updCtx c fun x => { x with st := .unused, fault := none, torn := false, keptNodes := [], keptSusp := [], savedCrc := none, suspUsed := [] }

/-- GS_CTX_NODES[c] and GS_CTX_EDGES[c]. -/
def State.writeWindow (s : State) (edges : Bool) (c : Nat) (v : BitVec 64) : State :=
  let r : Reg := ⟨winReg edges, c, 0⟩
  let cur := s.reg r
  let same := decide (bits cur 0 10 = bits v 0 10) && decide (bits cur 16 11 = bits v 16 11)
  let empty := decide (s.ctxNodes c = [])
  let ok :=
    if bit v 31 then (if bit cur 31 then same else s.winOk edges c (bits v 0 10) (bits v 16 11))
    else if bit cur 31 then same && (if edges then !s.nodesValid c || empty else empty)
    else true
  if ¬ ok then s.gsErr 0
  else
    let s := s.plainWrite r v
    let x := s.ctx c
    if ¬ edges ∧ bit v 31 ∧ x.st = .unused then s.updCtx c fun x => { x with st := .resident }
    else if ¬ s.nodesValid c ∧ ¬ s.edgesValid c ∧ (x.st = .resident ∨ (x.st = .faulted ∧ x.torn)) then s.toUnused c
    else s

/-- GS_CTX_DYN[c] (R448). -/
def State.writeDyn (s : State) (c : Nat) (v : BitVec 64) : State :=
  if s.nodesValid c ∨ s.edgesValid c then s.gsErr 0 else s.plainWrite ⟨.ctxDyn, c, 0⟩ v

/-- GS_CTX_CFG[c].POD (R252). -/
def State.writeCtxCfg (s : State) (c : Nat) (v : BitVec 64) : State :=
  if bits v 0 4 = s.podOf c then s
  else if s.slotsOf c = [] ∧ ((s.ctx c).st = .unused ∨ (s.ctx c).st = .saved) then s.plainWrite ⟨.ctxCfg, c, 0⟩ v
  else s.gsErr 1

/-- GS_CTX_SUSP[c] and GS_CTX_SAVE[c] (R449). -/
def State.writeSaveReg (s : State) (r : Reg) (v : BitVec 64) : State :=
  let x := s.ctx r.i
  if x.suspUsed = [] ∧ x.st ≠ .saving ∧ x.st ≠ .restoring then s.plainWrite r v else s.gsErr 2

end Sys2Proof.Machine
end

