-- ==== Sys2Proof/Machine/Sync.lean ====
section
/-! DEFINITION. The Sync Unit's commands: SIGNAL and WAIT nodes, engine requests, translations, side-cache invalidations,
initialising and freeing objects, the view and the post-mortem dump (R200 to R228, R241, R451 to R453). -/
namespace Sys2Proof.Machine

/-! ### Nodes -/

/-- SIGNAL_NODE (R212): the READY node performs its operation, while its context is being saved too (R229). -/
def State.signalNode (s : State) (k : Nat) : State :=
  let n := s.node k
  if n.st = .ready ∧ n.d.kind = .signal ∧ s.runs 3 then
    let op : SyncOp := match n.d.op with | 0 => .set | 1 => .clear | 2 => .advance n.d.amount | _ => .release
    (s.updNode k fun n => { n with st := .active, startedAt := s.now, place := .unit }).syncOp { src := .node k, vid := n.d.syncId, scope := n.d.scope, op := op }
  else s

def execSignalNode (c i : Nat) (s : State) : Host.Outcome State Fault Refusal := .next (s.signalNode (nk c i))

/-- The request of a WAIT node: its condition, or CLAIM (R43, R212). -/
def State.waitReq (s : State) (k : Nat) : SyncReq :=
  let d := (s.node k).d
  { src := .node k, vid := d.syncId, scope := d.scope, op := if d.op = 3 then .claim else .wait d.op d.amount }

/-- WAIT_NODE_REGISTER (R212). -/
def State.waitRegister (s : State) (k : Nat) : State :=
  let n := s.node k
  if n.st = .ready ∧ n.d.kind = .wait ∧ s.runs 3 ∧ ¬ s.saveHolds k then
    (s.updNode k fun n => { n with st := .active, startedAt := s.now, place := .unit }).syncOp (s.waitReq k)
  else s

def execWaitNodeRegister (c i : Nat) (s : State) : Host.Outcome State Fault Refusal := .next (s.waitRegister (nk c i))

/-- WAITER_RECORD_GRANT (R216): the WAIT node that has waited longest finds a record, and its operation, counted when it arrived,
goes on with the translation entry it found then; the object is judged again. -/
def State.recordGrant (s : State) : State :=
  match s.sy.recWait with
  | [] => s
  | (k, w) :: _ =>
    if s.nodeRecords < nodeRecordLimit ∧ s.runs 3 then
      let q := s.waitReq k
      let t := match s.entryCause q w with
        | some cause => s.syncFail q cause
        | none => s.applyOp (entryKey w) q w
      { t with sy := { t.sy with recWait := t.sy.recWait.filter fun x => decide (x.1 ≠ k) } }
    else s

def execWaiterRecordGrant (s : State) : Host.Outcome State Fault Refusal := .next s.recordGrant

/-! ### Engine requests (R213) -/

/-- The SCOPE codes of R230 and the condition codes of R43. -/
def scopeCode : Sys2Proof.Scope → Nat
  | .tile => 0 | .region => 1 | .chip => 2 | .system => 3

def condCode : Sys2Proof.Cond → Nat
  | .flagSet => 0 | .flagClear => 1 | .tallyAtLeast => 2 | .claim => 3

/-- Engine `e` has a WAIT, CLAIM, TRY_CLAIM or READ open (R213). -/
def State.engWaits (s : State) (e : Nat) : Bool :=
  (s.eng e).watch.isSome || (s.sy.xlatWait ++ s.sy.portWait).any fun q => q.src.isEngine e && q.op.waits

/-- A sync request of engine `e`, in the context of its running task. One that waits is not made while another is open or
while the engine drains or is reset. -/
def State.engineReq (s : State) (e vid : Nat) (sc : Scope) (op : SyncOp) : State :=
  match (s.eng e).job with
  | none => s
  | some l =>
    if s.takes 3 ∧ s.pathUp e ∧ (s.eng e).reset.isNone ∧ ¬ (op.waits ∧ (s.engWaits e ∨ (s.eng e).drain.isSome)) then
      s.portReq { src := .engine e l.ctx, vid := vid, scope := scopeCode sc, op := op }
    else s

def execSyncSet (e vid : Nat) (sc : Sys2Proof.Scope) (s : State) : Host.Outcome State Fault Refusal := .next (s.engineReq e vid sc .set)
def execSyncClear (e vid : Nat) (sc : Sys2Proof.Scope) (s : State) : Host.Outcome State Fault Refusal := .next (s.engineReq e vid sc .clear)
def execSyncAdvance (e vid : Nat) (sc : Sys2Proof.Scope) (amt : BitVec 48) (s : State) : Host.Outcome State Fault Refusal :=
  .next (s.engineReq e vid sc (.advance amt.toNat))
def execSyncRelease (e vid : Nat) (sc : Sys2Proof.Scope) (s : State) : Host.Outcome State Fault Refusal := .next (s.engineReq e vid sc .release)
/-- An engine's WAIT; COND CLAIM is not one of its conditions (R43, R213), and such a request makes a CLAIM. -/
def execSyncWait (e vid : Nat) (sc : Sys2Proof.Scope) (cond : Sys2Proof.Cond) (thr : BitVec 48) (s : State) : Host.Outcome State Fault Refusal :=
  .next (s.engineReq e vid sc (match cond with | .claim => .claim | c => .wait (condCode c) thr.toNat))
def execSyncClaim (e vid : Nat) (sc : Sys2Proof.Scope) (s : State) : Host.Outcome State Fault Refusal := .next (s.engineReq e vid sc .claim)
def execSyncTryClaim (e vid : Nat) (sc : Sys2Proof.Scope) (s : State) : Host.Outcome State Fault Refusal := .next (s.engineReq e vid sc .tryClaim)
def execSyncRead (e vid : Nat) (sc : Sys2Proof.Scope) (s : State) : Host.Outcome State Fault Refusal := .next (s.engineReq e vid sc .read)

/-! ### Translations (R204) -/

/-- The order of R214: nodes by context and index, engines by ID, parcels as they arrived. WAIT nodes that are registered again
after a save stand first, in their former order (R221). -/
def State.reqRank (s : State) (q : SyncReq) : Nat :=
  match q.src with
  | .node k => if (s.node k).ord ≠ 0 then (s.node k).ord else 2 ^ 64 + k
  | .engine e _ => 2 ^ 96 + e
  | .remote .. => 2 ^ 100

/-- XLAT_FILL: the entry is read at the point of coherence, and the operations waiting on it proceed. -/
def State.xlatFill (s : State) (c v : Nat) : State :=
  let mine (q : SyncReq) : Bool := decide (q.src.ctx = c) && decide (q.vid = v)
  let qs := sortBy (fun a b => decide (s.reqRank a ≤ s.reqRank b)) (s.sy.xlatWait.filter mine)
  if qs = [] ∨ ¬ s.runs 3 then s
  else if s.fld ⟨.xlatLimit, c, 0⟩ 0 25 ≤ v then
    ({ s with sy := { s.sy with xlatWait := s.sy.xlatWait.filter fun q => !mine q } }).each qs fun s q => s.syncFail q 0x50
  else
  let a := (s.reg ⟨.xlatBase, c, 0⟩).toNat + 8 * v
  let s := { s with sy := { s.sy with xlatWait := s.sy.xlatWait.filter fun q => !mine q } }
  let s := s.noteHost (ctxSpace c) a
  match s.readWord (ctxSpace c) a 8 with
  | none => s.each qs fun s q => s.syncFail q 0x50
  | some w =>
    let w := BitVec.ofNat 64 w
    let s := if bit w 63 then
        { s with sy := { s.sy with cache := ((c, v, w) :: s.sy.cache.filter fun x => !(decide (x.1 = c) && decide (x.2.1 = v))).take 8192 } }
      else s
    s.each qs fun s q => s.withEntry q w

def execXlatFill (c vid : Nat) (s : State) : Host.Outcome State Fault Refusal :=
  .next (s.viaHost (ctxSpace c) ((s.reg ⟨.xlatBase, c, 0⟩).toNat + 8 * vid) (.xlatFill c vid) fun s => s.xlatFill c vid)

/-- A write of SY_XLAT_INV (R204, R453). -/
def State.startXlatInv (s : State) (v : BitVec 64) : State :=
  if s.sy.inv.isSome then s.orReg ⟨.syErr, 0, 0⟩ 2
  else { s with sy := { s.sy with inv := some (bits v 32 9, if bit v 48 then none else some (bits v 0 24)) } }

/-- XLAT_INV_DONE (R204): every cached copy concerned is gone. -/
def State.xlatInvEnd (s : State) : State :=
  match s.sy.inv with
  | none => s
  | some (c, v) =>
    if s.runs 3 then
      { s with sy := { s.sy with
        inv := none
        cache := s.sy.cache.filter fun x => !(decide (x.1 = c) && (match v with | none => true | some i => decide (x.2.1 = i))) } }
    else s

def execXlatInvDone (s : State) : Host.Outcome State Fault Refusal := .next s.xlatInvEnd

/-! ### Side-cache invalidation (R241) -/

/-- INVAL_REQUEST: the request goes to every memory-side die; DL_INVALS counts those of a region's cells. -/
def State.invalRequest (s : State) (e addr len : Nat) : State :=
  if (s.eng e).job.isSome ∧ ¬ (s.eng e).inval ∧ addr % 64 = 0 ∧ 1 ≤ len ∧ len ≤ 2 ^ 24 ∧ s.runs 2 then
    let s := (s.updEng e fun x => { x with inval := true }).emit (.inval e addr len)
    if isLE e then s else s.bump ⟨.dlInvals, engRegion e, 0⟩ 1
  else s

def execInvalRequest (e addr len : Nat) (s : State) : Host.Outcome State Fault Refusal := .next (s.invalRequest e addr len)

/-- INVAL_DONE: every die has answered, and the engine proceeds. -/
def State.invalEnd (s : State) (e : Nat) : State :=
  if (s.eng e).inval ∧ s.runs 2 then (s.updEng e fun x => { x with inval := false }).emit (.invalAnswer e) else s

def execInvalDone (e : Nat) (s : State) : Host.Outcome State Fault Refusal := .next (s.invalEnd e)

/-! ### Object and waiter records (R227), the view (R226, R453) -/

/-- The 32-byte object record. -/
def objRecord (key : Nat) (o : SyncObj) : List Byte :=
  leBytes 4 (objIdx key + o.kind % 4 * 2 ^ 18 + o.alloc.toNat * 2 ^ 20 + o.orphaned.toNat * 2 ^ 21) ++
  leBytes 2 o.owner.toNat ++ leBytes 2 o.status.toNat ++ leBytes 8 (o.value.toNat + o.overset.toNat * 2 ^ 48) ++
  leBytes 4 o.lastId.toNat ++ leBytes 1 (o.lastSrc.toNat + o.lastScope.toNat * 4) ++ leBytes 3 (o.waiters.length % 2 ^ 18) ++
  leBytes 8 (o.partner.toNat + o.role.toNat * 2 ^ 16 + o.depth.toNat * 2 ^ 18)

/-- A 16-byte waiter record. -/
def waiterRecord (w : Waiter) : List Byte :=
  leBytes 1 (w.engine.toNat + 2 * w.claimer.toNat) ++ leBytes 1 (w.cond % 16) ++ leBytes 2 (w.ctx % 512) ++
  leBytes 4 (if w.engine then w.who % 2 ^ 14 else nkIdx w.who) ++ leBytes 8 (w.thr % 2 ^ 48)

/-- The kind and index of SY_OBJ_SEL, as a key. -/
def State.selKey (s : State) : Nat := objKey (s.fld ⟨.objSel, 0, 0⟩ 24 2) (s.fld ⟨.objSel, 0, 0⟩ 0 18)

/-- The view of R226 of an object. -/
def State.viewBytes (s : State) (key : Nat) : List Byte :=
  let o := s.obj key
  let ws := (o.waiters.take 8).flatMap waiterRecord
  objRecord key o ++ leBytes 4 (o.waiters.length % 2 ^ 18) ++ zeros 28 ++ ws ++ zeros (128 - ws.length)

/-- Capture the view of the selected object. -/
def State.captureView (s : State) : State := { s with sy := { s.sy with view := s.viewBytes s.selKey } }

def State.syErr (s : State) (b : Nat) : State := s.orReg ⟨.syErr, 0, 0⟩ (BitVec.ofNat 64 (2 ^ b))

/-- A write of SY_OBJ_SEL (R451, R453). -/
def State.selectObj (s : State) (v : BitVec 64) : State :=
  if bits v 24 2 = 3 ∨ (bits v 24 2 = 2 ∧ 65536 ≤ bits v 0 18) then s.syErr 1
  else (s.plainWrite ⟨.objSel, 0, 0⟩ v).captureView

/-! ### Initialising and freeing (R201, R452) -/

/-- The object has waiters, or is a held claim. An orphaned claim may be initialised again (R222; DEDUCED, log entry 31). -/
def SyncObj.pinned (o : SyncObj) : Bool :=
  decide (o.waiters ≠ []) || (o.alloc && decide (o.kind = 1) && decide (o.value = 1) && !o.orphaned)

/-- SY_OBJ_INIT.COMMIT written 1. -/
def State.initObj (s : State) : State :=
  let key := s.selKey
  let kind := s.fld ⟨.objSel, 0, 0⟩ 24 2
  let r : Reg := ⟨.objInitCtrl, 0, 0⟩
  let c := s.fld r 0 9
  let p := s.podOf c
  let role := s.fld r 12 2
  let partner := s.fld r 32 16
  let o := s.obj key
  let v := s.reg ⟨.objInitValue, 0, 0⟩
  if o.pinned ∨ ¬ s.inPodRange p kind (objIdx key) ∨ role = 3 ∨
      (kind = 2 ∧ (role = 1 ∨ role = 2) ∧ (¬ s.inPodRange p 2 partner ∨ partner = objIdx key)) ∨
      (kind = 2 ∧ role = 1 ∧ s.fld r 16 16 = 0) then (s.syErr 0).captureView
  else
    let t := decide (kind = 2)
    let o : SyncObj := { o with
      alloc := true, kind := kind, overset := 0, status := 0, orphaned := false, lastSrc := 0,
      value := if t then v.setWidth 48 else if kind = 0 then BitVec.ofNat 48 (v.toNat % 2) else 0,
      owner := if kind = 1 then 0 else BitVec.ofNat 9 c,
      partner := if t then BitVec.ofNat 16 partner else 0,
      role := if t then BitVec.ofNat 2 role else 0,
      depth := if t then BitVec.ofNat 16 (s.fld r 16 16) else 0 }
    (s.setObj key o).captureView.loadDone

/-- SY_OBJ_FREE.COMMIT written 1. -/
def State.freeObj (s : State) : State :=
  if (s.obj s.selKey).pinned then (s.syErr 0).captureView
  else (s.updObj s.selKey fun o => { o with alloc := false }).captureView

/-! ### The post-mortem dump (R227, R228) -/

/-- The records of a dump over a list of objects: bytes, objects, waiters; it stops at a whole record when `size` runs out. -/
def State.dumpObjs (s : State) : List Nat → Nat → List Byte × Nat × Nat × Bool
  | [], _ => ([], 0, 0, false)
  | k :: ks, size =>
    let o := s.obj k
    if size < 32 then ([], 0, 0, true)
    else
      let n := min o.waiters.length ((size - 32) / 16)
      let bytes := objRecord k o ++ (o.waiters.take n).flatMap waiterRecord
      if n < o.waiters.length then (bytes, 1, n, true)
      else
        let r := s.dumpObjs ks (size - bytes.length)
        (bytes ++ r.1, r.2.1 + 1, r.2.2.1 + n, r.2.2.2)

/-- Allocated objects that satisfy a test, flags and claims in the order of R227: ascending kind, then index. -/
def State.objKeys (s : State) (p : Nat → SyncObj → Bool) : List Nat :=
  let l := s.sy.objs.filter fun o => o.2.alloc && p o.1 o.2
  ((l.filter fun o => decide (o.2.kind = 0)) ++ (l.filter fun o => decide (o.2.kind = 1)) ++
   (l.filter fun o => decide (o.2.kind = 2))).map Prod.fst

/-- The header and the records of a dump of at most `size` bytes. -/
def State.dumpBytes (s : State) (ks : List Nat) (size : Nat) : List Byte × List Byte :=
  let r := s.dumpObjs ks (size - 64)
  (leBytes 4 r.2.1 ++ leBytes 4 r.2.2.1 ++ leBytes 8 s.beat ++ leBytes 1 (1 + 2 * r.2.2.2.toNat) ++ zeros 47, r.1)

/-- SY_DUMP.START written 1: the records are written, and the header is kept for last. -/
def State.startSyDump (s : State) : State :=
  if s.sy.dumpBusy then s.syErr 1
  else
    let r : Reg := ⟨.dumpCtrl, 0, 0⟩
    let ks := s.objKeys fun k o => match s.fld r 4 2 with
      | 1 => s.inPodRange (s.fld r 16 4) o.kind (objIdx k)
      | 2 => decide (o.owner.toNat = s.fld r 16 9) && (decide (o.kind ≠ 1) || decide (o.value = 1))
      | _ => true
    let size := s.fld ⟨.dumpSize, 0, 0⟩ 0 32
    let d := s.dumpBytes ks size
    let a := (s.reg ⟨.dumpAddr, 0, 0⟩).toNat
    let s := { s with sy := { s.sy with dumpBusy := true, dumpAt := a, dumpHeader := if size < 64 then [] else d.1 } }
    if size < 64 then s else (s.writeBytes devSpace (a + 64) d.2).getD s

/-- SYNC_DUMP_DONE: the header is written and BUSY returns to 0. -/
def State.syDumpEnd (s : State) : State :=
  if s.sy.dumpBusy then
    let t := (s.writeBytes devSpace s.sy.dumpAt s.sy.dumpHeader).getD s
    { t with sy := { t.sy with dumpBusy := false, dumpAt := 0, dumpHeader := [] } }
  else s

def execSyncDumpDone (s : State) : Host.Outcome State Fault Refusal := .next s.syDumpEnd

end Sys2Proof.Machine
end

