-- ==== Sys2Proof/Machine/Saves.lean ====
section
/-! DEFINITION. Saving and restoring contexts, suspension, donation limits and auto-swap (R221, R255 to R272, R345, R346). -/
namespace Sys2Proof.Machine

/-! ### What a context still has in flight -/

/-- Engines that run a task or panel of context `c`. -/
def State.ctxEngines (s : State) (c : Nat) : List Nat :=
  (s.dl.engines.filter fun e => match e.2.job with | some l => decide (l.ctx = c) | none => false).map Prod.fst

/-- The lowest suspend record of context `c` that is free (R257). -/
def State.freeSuspRec (s : State) (c : Nat) : Option Nat :=
  let r : Reg := ⟨.ctxSusp, c, 0⟩
  let used := (s.ctx c).suspUsed
  ((List.range (min (s.fld r 0 16) (used.length + 1))).map fun j => s.fld r 18 46 * 2 ^ 18 + j * 2 ^ 18).find? fun a => !decide (a ∈ used)

/-- SUSPEND is sent on an engine's cell port, with a record; the engine is held for a trump entry, if there is one (R256, R257). -/
def State.orderSuspend (s : State) (e addr : Nat) (trump : Option Nat) : State :=
  match (s.eng e).job with
  | none => s
  | some l =>
    ((s.updCtx l.ctx fun x => { x with suspUsed := insertNat addr x.suspUsed }).updEng e fun x =>
      { x with susp := some (s.now, addr, trump) }).emit (.suspendOrder e addr)

/-- The task of engine `e` may be suspended: not an LE task, not being ended or suspended already, without a granted combine
turn, and not of a trick that its context's save lets run to its end (R159, R256, R260). -/
def State.suspendable (s : State) (e : Nat) : Bool :=
  let x := s.eng e
  match x.job with
  | none => false
  | some l => !isLE e && x.drain.isNone && x.reset.isNone && x.susp.isNone && !x.turnHeld && !(s.saveOn l.ctx && s.trickNode 16 l.key)

/-! ### Steps 1 to 5 of a save (R260) -/

/-- A slot bound to the context stops at a descriptor boundary (R164). -/
def Slot.stopForSave (x : Slot) : Slot :=
  match x.st with
  | .idle | .fetching => { x with st := .saved, wasIdle := decide (x.st = .idle), idleCheck := false }
  | _ => x

/-- Undrawn panels of node `k` that stand in shares. -/
def State.sharePanels (s : State) (k : Nat) : List Nat :=
  s.dl.dealers.flatMap fun d => (d.2.shares.filter fun (h : Share) => decide (h.key = k)).flatMap fun (h : Share) => runsPanels h.undrawn

/-- A node's hand, backlog and offer entries go back to the hub, and its undrawn panels to the node (step 3). -/
def State.withdrawNode (s : State) (k : Nat) : State :=
  let back := s.sharePanels k
  let held := (s.dl.dealers.flatMap fun d => d.2.confirmed).filterMap fun h => if h.1 = k then some h.2 else none
  let s := s.each held fun s e => s.updEng e fun x => { x with held := none }
  let keep (h : HandEnt) : Bool := decide (h.key ≠ k) || h.susp.isSome
  let give (h : Share) : Share := if h.key = k then { h with undrawn := [], size := h.size - runsCount h.undrawn } else h
  let dl : Dealing := s.dl.mapDealers fun d =>
    { d with
      hands := d.hands.filter keep, confirmed := d.confirmed.filter (fun h => decide (h.1 ≠ k)),
      shares := (d.shares.map give).filter fun h => decide (h.key ≠ k) || decide (h.running ≠ []) || h.reported }
  let s := { s with dl := { dl with
    leHand := dl.leHand.filter (fun h => decide (h.key ≠ k)),
    backlog := (dl.backlog.map fun (x : Nat × List Nat) => (x.1, x.2.filter (· ≠ k))).filter (fun x => decide (x.2 ≠ [])),
    offerWait := dl.offerWait.filter (· ≠ k),
    offers := dl.offers.map fun (o : Offer) => if o.key = k then o.cancel else o } }
  s.updNode k fun (n : Node) =>
    { n with runs := if back = [] then n.runs else some (back.foldl (fun a p => runsAdd p a) (n.runs.getD []))
             place := if n.place = .engine ∨ n.place = .unit then n.place else .hub }

/-- A WAIT node of a context being saved is unregistered (R221). -/
def State.unregister (s : State) (k : Nat) : State :=
  if (s.node k).d.kind = .wait then
    { s with sy := { s.sy with
      recWait := s.sy.recWait.filter (fun (x : Nat × BitVec 64) => decide (x.1 ≠ k)),
      xlatWait := s.sy.xlatWait.filter (fun q => decide (q.src ≠ .node k)),
      objs := s.sy.objs.map fun o => (o.1, { o.2 with waiters := o.2.waiters.filter fun w => w.engine || decide (w.who ≠ k) }) } }
  else s

/-- Every node of `c` that the save holds goes back to the hub, and its waits are unregistered. -/
def State.withdrawAll (s : State) (c : Nat) : State :=
  (s.each ((s.ctxNodes c).filter s.saveHolds) fun s k => (s.withdrawNode k).unregister k).pruneOffers

/-- A save of context `c` starts. -/
def State.startSave (s : State) (c : Nat) (suspend auto : Bool) : State :=
  let s := s.updCtx c fun x => { x with st := .saving, saveSuspend := suspend, saveAuto := auto }
  let s := (s.bump (ctxCnt c 3) 1).disturb 5
  let s := s.each (s.slotsOf c) fun s n => s.updSlot n Slot.stopForSave
  let s := s.withdrawAll c
  let s := if suspend then
      s.each ((s.ctxEngines c).filter s.suspendable) fun s e =>
        match s.freeSuspRec c with
        | none => s
        | some a => s.orderSuspend e a none
    else s
  (s.refuseCalls c).checkDonations

/-! ### A write of GS_CTX_CTRL (R259, R260, R261, R345) -/

/-- REARM: the context becomes RESIDENT with empty windows. -/
def State.rearmCtx (s : State) (c : Nat) : State :=
  let s := s.updCtx c fun x => { x with st := .resident, fault := none, torn := false, keptNodes := [], keptSusp := [], savedCrc := none }
  s.setReg ⟨.ctxStatus, c, 0⟩ (s.reg ⟨.ctxStatus, c, 0⟩ &&& ~~~(1 : BitVec 64))

/-- RESTORE: the image is read next. -/
def State.startRestore (s : State) (c : Nat) : State := (s.updCtx c fun x => { x with st := .restoring }).disturb 5

/-- A write that asks for an action its state does not allow is ignored whole. -/
def State.writeCtxCtrl (s : State) (c : Nat) (v : BitVec 64) : State :=
  let x := s.ctx c
  let r : Reg := ⟨.ctxCtrl, c, 0⟩
  match bit v 8, bit v 9, bit v 10 with
  | false, false, false => s.plainWrite r v
  | true, false, false =>
    if x.st = .resident then (s.plainWrite r v).startSave c (bit v 16) false else s.gsErr 1
  | false, true, false => if x.st = .saved then (s.plainWrite r v).startRestore c else s.gsErr 1
  | false, false, true =>
    if x.st = .faulted ∧ x.torn ∧ s.residents < 64 then (s.plainWrite r v).rearmCtx c else s.gsErr 1
  | _, _, _ => s.gsErr 1

/-! ### When a save may write its image -/

/-- Nothing of context `c` is at work any more but what the image holds (steps 2, 4 and 5), and no SIGNAL of it stands READY
(R229). -/
def State.saveSettled (s : State) (c : Nat) : Bool :=
  let mine (k : Nat) : Bool := decide (nkCtx k = c)
  decide (s.ctxEngines c = []) && !(s.dl.engines.any fun e => match e.2.held with | some k => mine k | none => false) &&
  !(s.dl.starts.any fun x => decide (x.2.ctx = c)) && !(s.dl.reports.any fun r => decide (r.job.ctx = c)) &&
  !(s.dl.dealers.any fun d => d.2.shares.any fun (h : Share) => mine h.key && h.reported) &&
  !(s.rs.ros.any fun x => match x.2.trick with | some t => mine t.anchor | none => false) &&
  !(match s.gs.fan with | some w => mine w.node | none => false) &&
  !(s.sy.xlatWait.any fun q => match q.src with | .node k => mine k | _ => false) &&
  !(s.gs.resIn.any fun u => mine u.node || (match u.src with | some k => mine k | none => false)) &&
  !(s.gs.armed.any mine) && !(s.gs.hubReady.any mine) &&
  !((s.ctxNodes c).any fun k =>
    let n := s.node k
    n.sent || n.ending || (decide (n.st = .ready) && decide (n.d.kind = .signal)) || (decide (n.st = .active) && decide (n.d.kind = .sprout) && decide (n.place = .unit)))

/-! ### The save image (R262 to R264) -/

def GateState.code : GateState → Nat
  | .unarmed => 0 | .armed => 1 | .primaryWon => 2 | .fallbackTaken => 3

def GateState.ofCode : Nat → GateState
  | 1 => .armed | 2 => .primaryWon | 3 => .fallbackTaken | _ => .unarmed

def CtxState.code : CtxState → Nat
  | .unused => 0 | .resident => 1 | .saving => 2 | .saved => 3 | .restoring => 4 | .faulted => 5

/-- A byte string made up to a multiple of 64 bytes. -/
def pad64 (bs : List Byte) : List Byte := bs ++ zeros ((64 - bs.length % 64) % 64)

/-- The undrawn panels that a node's record carries. -/
def Node.savedRuns (n : Node) : Runs :=
  if n.d.isKitty then
    match n.st with
    | .ready | .parked | .active => n.undealt
    | _ => []
  else []

/-- The index of a command in its slot's table of open commands. -/
def State.openIdx (s : State) (q : Nat × Nat) : Nat := ((s.openCmds q.1).takeWhile (· ≠ q.2)).length

/-- A 64-byte node record; `off` is the byte offset of its runs in the run section. -/
def State.nodeRecord (s : State) (k off : Nat) : List Byte :=
  let n := s.node k
  let rs := n.savedRuns
  let rel := n.release.getD (0, 0)
  let res := n.res.getD (0, 0)
  let aux : Nat × Nat := match n.d.kind with
    | .loop => (n.trip.getD 0, 0)
    | .gate => (n.relTick % 2 ^ 20 + n.gst.code * 2 ^ 28, rel.1 % 2 ^ 48)
    | .sprout => (0, res.1 % 2 ^ 20 + res.2 % 2 ^ 22 * 2 ^ 22)
    | .wait => (0, n.ord)
    | _ => if n.d.isKitty then (rs.length, off) else (0, 0)
  n.d.encode ++
  leBytes 4 (nkIdx k + n.st.code * 2 ^ 20 + n.dealt.toNat * 2 ^ 24 + (decide (s.suspsOf k ≠ [])).toNat * 2 ^ 25) ++
  leBytes 2 n.pri.v.toNat ++ leBytes 2 n.epoch ++ leBytes 4 n.iter ++ leBytes 4 aux.1 ++ leBytes 8 aux.2 ++
  leBytes 4 (match n.cmd with | some q => q.1 % 256 + s.openIdx q % 1024 * 2 ^ 8 | none => 0) ++ zeros 4

def State.nodeSection (s : State) : List Nat → Nat → List Byte
  | [], _ => []
  | k :: ks, off => s.nodeRecord k off ++ s.nodeSection ks (off + 4 * (s.node k).savedRuns.length)

/-- One past the highest edge slot that a node of `c` uses. -/
def State.edgeUsed (s : State) (c : Nat) : Nat :=
  ((s.ctxNodes c).map fun k =>
    let d := (s.node k).d
    if d.succ.toNat = 0 then 0 else d.edgeBase.toNat + d.succ.toNat).foldl max 0

/-- Bits as bytes, the first in bit 0. -/
def packBits : Nat → List Bool → List Byte
  | 0, _ => []
  | n + 1, bs => BitVec.ofNat 8 ((bs.take 8).foldr (fun b a => b.toNat + 2 * a) 0) :: packBits n (bs.drop 8)

/-- One bit for each dynamic block, nodes first. -/
def State.blockMap (s : State) (c : Nat) : List Byte :=
  let x := s.ctx c
  let bs := ((List.range (s.nodeBlocks c)).map fun b => (tfind x.dynN b).isSome) ++ (List.range (s.edgeBlocks c)).map fun b => (tfind x.dynE b).isSome
  packBits (ceilDiv bs.length 8) bs

def SeqState.code : SeqState → Nat
  | .free => 0 | .importing => 1 | .pending => 2 | .ready => 3 | .inTrick => 4 | .held => 5 | .ended => 6 | .folded => 7

/-- The 128 bytes of a roster entry (R133). -/
def SeqEnt.bytes (e : SeqEnt) (q : Nat) : List Byte :=
  leBytes 1 e.st.code ++ leBytes 1 (e.urgent.toNat + 2 * e.isImport.toNat + 4 * e.starved.toNat + 8 * e.imported.toNat) ++
  leBytes 2 e.epoch.toNat ++ leBytes 1 e.roster ++ zeros 1 ++ leBytes 2 q ++ leBytes 8 e.tag.toNat ++ leBytes 4 e.admitSeq.toNat ++
  leBytes 4 e.kvLen ++ leBytes 4 e.prefillLeft ++ leBytes 4 e.prefillOff ++ leBytes 4 e.decoded.toNat ++ leBytes 4 e.maxLen ++
  leBytes 8 e.pageList ++ leBytes 4 e.pages.length ++ leBytes 4 e.pageCap ++ leBytes 8 e.prompt.toNat ++
  leBytes 4 e.lastTrick.toNat ++ leBytes 4 e.tricks.toNat ++ leBytes 8 e.admitBeat ++ leBytes 4 e.impExpert ++ leBytes 2 e.impChip ++
  leBytes 2 e.landing ++ leBytes 8 e.impAddr ++ leBytes 4 e.impRows ++ leBytes 4 e.impRowBytes ++ leBytes 4 e.impTokens ++
  leBytes 4 e.resultLast.toNat ++ zeros 16

/-- The roster's 64-byte record, with its number at 0x02 and the count of its entries at 0x04, its entries and its lists (log
entry 42). -/
def State.rosterSection (s : State) (k : Nat) : List Byte :=
  let ls := (List.range 4).map (s.roList k)
  let qs := s.rosterSeqs k
  let head := leBytes 2 (s.reg ⟨.roEpoch, k, 0⟩).toNat ++ leBytes 2 k ++ leBytes 4 qs.length ++ leBytes 8 (s.reg ⟨.roTrick, k, 0⟩).toNat ++
    leBytes 4 (s.reg ⟨.roAdmitSeq, k, 0⟩).toNat ++ (ls.flatMap fun l => leBytes 2 l.length) ++ ls.flatMap fun l => leBytes 2 (l.headD 0)
  pad64 head ++ (qs.flatMap fun q => (s.seqEnt q).bytes q) ++ pad64 (ls.flatMap fun l => l.flatMap (leBytes 2))

/-- Suspended tasks of context `c`, in the order of dealers and of their arrival. -/
def State.suspList (s : State) (c : Nat) : List (Nat × Susp) :=
  (s.dl.dealers.flatMap fun d => d.2.hands).filterMap fun h => if nkCtx h.key = c then h.susp.map fun u => (h.key, u) else none

/-- A 64-byte record of a suspended task (field places: log entry 42). -/
def suspRecord (x : Nat × Susp) (cls : Nat) : List Byte :=
  leBytes 4 (nkIdx x.1) ++ leBytes 2 x.2.launch.panel ++ leBytes 2 cls ++ leBytes 4 x.2.launch.iter ++ leBytes 4 x.2.engine ++
  leBytes 8 x.2.addr ++ leBytes 8 x.2.since ++ zeros 32

/-- The header of an image, with a CRC. -/
def State.imageHeader (s : State) (c : Nat) (counts offs : List Nat) (total crc : Nat) : List Byte :=
  leBytes 4 (s.fld ⟨.tsuIdent, 0, 0⟩ 0 12) ++ leBytes 4 total ++ leBytes 2 c ++ leBytes 1 (s.podOf c) ++ leBytes 1 s.det ++
  leBytes 2 (s.fld ⟨.ctxNodes, c, 0⟩ 16 11) ++ leBytes 2 (s.fld ⟨.ctxEdges, c, 0⟩ 16 11) ++ leBytes 2 (s.fld ⟨.ctxDyn, c, 0⟩ 0 11) ++
  leBytes 2 (s.fld ⟨.ctxDyn, c, 0⟩ 16 11) ++ (counts.flatMap (leBytes 4)) ++ zeros 4 ++ (offs.flatMap (leBytes 4)) ++ zeros 4 ++
  leBytes 8 s.beat ++ leBytes 4 s.beatTick ++ leBytes 4 crc ++ zeros 160

/-- The offsets of sections of the given lengths, the first at `o`, and the end. -/
def sectionOffs (o : Nat) : List Nat → List Nat
  | [] => [o]
  | n :: ns => o :: sectionOffs (o + n) ns

/-- The whole save image of context `c`. -/
def State.saveImage (s : State) (c : Nat) : List Byte :=
  let ks := s.ctxNodes c
  let rs := ks.flatMap fun k => (s.node k).savedRuns
  let ros := s.rostersOf c
  let susp := s.suspList c
  let eu := s.edgeUsed c
  let secs : List (List Byte) := [
    s.nodeSection ks 0,
    pad64 ((List.range eu).flatMap fun j => leBytes 4 (s.edge (ek c j)).toNat),
    pad64 (s.blockMap c),
    pad64 (rs.flatMap fun r => leBytes 2 r.1 ++ leBytes 2 r.2),
    ros.flatMap s.rosterSection,
    susp.flatMap fun x => suspRecord x (s.node x.1).d.cls]
  let offs := sectionOffs 256 (secs.map List.length)
  let counts := [ks.length, eu, rs.length, ros.length, (ros.map fun k => (s.rosterSeqs k).length).sum, susp.length]
  let total := offs.getLastD 256
  let body := secs.flatten
  s.imageHeader c counts offs total (crc32c (s.imageHeader c counts offs total 0 ++ body)).toNat ++ body

/-! ### Leaving SAVING -/

/-- WAIT nodes are registered again in their former order; those that had no record come after (R221). -/
def State.reRegister (s : State) (c : Nat) : State :=
  let ks := (s.ctxNodes c).filter fun k => decide ((s.node k).d.kind = .wait) && decide ((s.node k).st = .active)
  let first := sortBy (fun a b => decide ((s.node a).ord ≤ (s.node b).ord)) (ks.filter fun k => decide ((s.node k).ord ≠ 0))
  s.each (first ++ ks.filter fun k => decide ((s.node k).ord = 0)) fun s k =>
    if (s.node k).st = .active then s.syncOp (s.waitReq k) else s

/-- The slots of a context that is RESIDENT again resume (R164): IDLE ones as they were, the others with the idle protocol where
nothing is left to fetch. -/
def State.resumeSlots (s : State) (c : Nat) : State :=
  let ns := (s.slotsOf c).filter fun n => decide ((s.slot n).st = .saved)
  s.each ns fun s n =>
    let s := s.updSlot n fun x =>
      { x with st := if x.wasIdle ∧ x.whost = x.wdev ∧ x.buf = [] then .idle else .fetching, wasIdle := false, polledAt := s.now }
    (s.idleStep n).settleHead n

/-- The READY nodes of a context are dispatched in ascending index, subject to parking (R261, R267). -/
def State.dispatchReady (s : State) (c : Nat) : State :=
  s.each (s.ctxNodes c) fun s k =>
    let n := s.node k
    if n.st = .ready ∧ (n.d.kind = .task ∨ n.d.kind = .sprout) ∧ s.weightsAbsent c then
      let s := s.updNode k fun n => { n with st := .parked }
      ({ s with gs := { s.gs with parkList := s.gs.parkList ++ [k] } }).traceNode 7 8 k none 0
    else if s.dispatchable k ∧ s.open then s.dispatch k
    else s

/-- The image does not fit: the context is RESIDENT again. -/
def State.saveRefused (s : State) (c : Nat) : State :=
  let s := s.updCtx c fun x => { x with st := .resident, saveSuspend := false, saveAuto := false }
  let s := s.report { typ := 0x42, source := sourceUnit 1, ctx := some c, body := [0x67] }
  ((s.reRegister c).dispatchReady c |>.resumeSlots c).settlePend c

/-- Step 8: the windows go, and what the image holds leaves the hub. -/
def State.leaveSaved (s : State) (c len crc : Nat) : State :=
  let susp := s.suspList c
  let nodes := (s.ctxNodes c).map fun k => (nkIdx k, s.node k)
  let mine (k : Nat) : Bool := decide (nkCtx k = c)
  let dl := s.dl.mapDealers fun d => { d with hands := d.hands.filter (fun h => !mine h.key), shares := d.shares.filter fun h => !mine h.key }
  let s := { s with
    dl := dl,
    gs := { s.gs with nodes := s.gs.nodes.filter (fun x => !mine x.1), edges := s.gs.edges.filter (fun x => decide (x.1 / 2 ^ 22 ≠ c)),
                      parkList := s.gs.parkList.filter fun k => !mine k } }
  let s := s.updCtx c fun x =>
    { x with st := .saved, keptNodes := nodes, keptSusp := susp, savedCrc := some crc, savedAt := some s.now, saveSuspend := false, saveAuto := false }
  let s := (s.setFld ⟨.ctxNodes, c, 0⟩ 31 1 0).setFld ⟨.ctxEdges, c, 0⟩ 31 1 0
  s.report { typ := 0x40, source := sourceUnit 1, ctx := some c, body := [len] }

/-- Donations of a holder that is now SAVED are told to the driver (R268). -/
def State.tellDonations (s : State) (c : Nat) : State :=
  let ds := s.sy.donations.filter fun (d : Donation) => decide (d.holder = c) && !d.told
  let s := { s with sy := { s.sy with donations := s.sy.donations.map fun (d : Donation) => if d.holder = c then { d with told := true } else d } }
  s.each ds fun s d =>
    match (s.obj d.flag).waiters.find? fun w => w.claimer && decide (s.waiterPrio w = 3) with
    | none => s
    | some w => s.report { typ := 0x33, source := sourceUnit 3, ctx := some c,
                           body := [c + d.flag * 2 ^ 18, if w.engine then w.who + 2 ^ 63 else s.nodeArg w.who] }

/-! ### All contexts blocked, and auto-swap (R271, R272) -/

/-- Context `c` is blocked. -/
def State.blocked (s : State) (c : Nat) : Bool :=
  decide ((s.ctx c).st = .resident) && decide (s.cmdsOfCtx c ≠ []) &&
  (s.ctxEngines c).all (fun e => (s.eng e).watch.isSome) &&
  (s.ctxNodes c).all fun k =>
    match (s.node k).st with
    | .ready => false
    | .active => decide (s.enginesOf k ≠ []) || decide ((s.node k).d.kind = .wait)
    | _ => true

/-- Resident contexts of pod `p` with an open command. -/
def State.podBusy (s : State) (p : Nat) : List Nat :=
  (s.gs.ctxs.filter fun x => decide (x.2.st = .resident) && decide (s.podOf x.1 = p) && decide (s.cmdsOfCtx x.1 ≠ [])).map Prod.fst

def State.allBlockedNow (s : State) (p : Nat) : Bool := decide (s.podBusy p ≠ []) && (s.podBusy p).all s.blocked

/-- A save of a context of pod `p` is in progress; one in which its context faulted runs on to its end (R346). -/
def State.podSaving (s : State) (p : Nat) : Bool :=
  s.gs.ctxs.any fun x => (decide (x.2.st = .saving) || x.2.faultedInSave) && decide (s.podOf x.1 = p)

/-- The context that has been blocked longest is saved; a save of the pod in progress ends first, with what an auto-swap whose save
it is then restores (R272, R288). -/
def State.autoSwap (s : State) (p : Nat) : State :=
  if s.podSaving p ∨ (s.pod p).swapOut ≠ none then s.updPod p fun x => { x with swapDue := true }
  else
    match minBy (fun c => ((s.ctx c).blockedSince).getD s.now) ((s.podBusy p).filter s.blocked) with
    | none => s
    | some c => (s.startSave c true true).updPod p fun x => { x with swapOut := some c }

/-- ALL_BLOCKED. -/
def State.raiseAllBlocked (s : State) (p : Nat) : State :=
  match (s.pod p).allSince with
  | none => s
  | some t =>
    if s.allBlockedNow p ∧ ¬ (s.pod p).allRaised ∧ t + s.fld ⟨.stallWindow, 0, 0⟩ 0 16 ≤ s.now ∧ s.timersOn ∧ s.runs 1 then
      let s := s.updPod p fun x => { x with allRaised := true }
      let s := s.report { typ := 0x44, source := sourceUnit 1, pod := some p, body := [(s.podBusy p).length] }
      if bit (s.reg ⟨.podSwap, p, 0⟩) 0 then s.autoSwap p else s
    else s

def execAllBlocked (p : Nat) (s : State) : Host.Outcome State Fault Refusal := .next (s.raiseAllBlocked p)

/-- An auto-swap that waited for a save of its pod starts when that save ends. -/
def State.swapNext (s : State) (p : Nat) : State :=
  if (s.pod p).swapDue ∧ ¬ s.podSaving p ∧ (s.pod p).swapOut = none then (s.updPod p fun x => { x with swapDue := false }).autoSwap p else s

def State.swapDone (s : State) (p out : Nat) (inc : Option Nat) : State :=
  s.report { typ := 0x45, source := sourceUnit 1, pod := some p,
             body := [out + (match inc with | some i => i * 2 ^ 16 + 2 ^ 31 | none => 0)] }

/-- AUTO_SWAP_RESTORE: the save has ended, and the queue's head is restored or skipped. -/
def State.swapRestore (s : State) (p : Nat) : State :=
  match (s.pod p).swapOut with
  | none => s
  | some o =>
    if (s.ctx o).st = .saving ∨ (s.ctx o).faultedInSave ∨ ¬ s.runs 1 then s else
    let t := s.updPod p fun x => { x with swapOut := none }
    if (s.ctx o).st ≠ .saved then t.swapNext p
    else match (s.pod p).swapq with
      | [] => (t.swapDone p o none).swapNext p
      | h :: q =>
        let t := t.updPod p fun x => { x with swapq := q }
        let skip (why : Nat) : State :=
          (t.report { typ := 0x46, source := sourceUnit 1, pod := some p, body := [h + why * 2 ^ 12] }).swapNext p
        if (s.ctx h).st ≠ .saved then skip 0
        else if s.podOf h ≠ p then skip 1
        else ((t.startRestore h).updPod p fun x => { x with swapIn := some (o, h) }).swapNext p

def execAutoSwapRestore (p : Nat) (s : State) : Host.Outcome State Fault Refusal := .next (s.swapRestore p)

/-! ### SAVE_IMAGE_WRITE -/

/-- The image is written and acknowledged, or the save is refused, or its write fails. -/
def State.finishSave (s : State) (c : Nat) : State :=
  let s := (s.withdrawAll c).flushXlat c
  let img := s.saveImage c
  if (s.reg ⟨.ctxSaveSize, c, 0⟩).toNat < img.length then s.saveRefused c
  else match s.writeBytes devSpace (s.reg ⟨.ctxSaveAddr, c, 0⟩).toNat img with
    | none =>
      let s := s.ctxFault c { cause := 0x68 } (sourceUnit 1)
      (s.updCtx c fun x => { x with faultedInSave := false }).teardownStart c stFAULTED 0x68
    | some t => ((t.leaveSaved c img.length (leAt img 0x5C 4)).settlePend c).tellDonations c

/-- SAVE_IMAGE_WRITE (R260, R346). -/
def State.saveImageWrite (s : State) (c : Nat) : State :=
  let x := s.ctx c
  let p := s.podOf c
  if ¬ s.saveSettled c ∨ ¬ s.runs 1 then s
  else if x.faultedInSave then
    let f := x.fault.getD {}
    (((s.flushXlat c).updCtx c fun x => { x with faultedInSave := false }).teardownStart c f.status f.cause).swapNext p
  else if x.st = .saving then (s.finishSave c).swapNext p
  else s

def execSaveImageWrite (c : Nat) (s : State) : Host.Outcome State Fault Refusal := .next (s.saveImageWrite c)

/-! ### RESTORE_COMPLETE (R261) -/

/-- The runs of a node record. -/
def parseRuns (bs : List Byte) (off n : Nat) : Runs :=
  (List.range n).map fun j => (leAt bs (off + 4 * j) 2, leAt bs (off + 4 * j + 2) 2)

/-- The image is the one that this chip wrote last for the context: what the chip kept beside it still holds (log entry 41). -/
def State.imageHere (s : State) (c : Nat) (img : List Byte) : Bool := decide ((s.ctx c).savedCrc = some (leAt img 0x5C 4))

/-- The command that a node record of another chip's image names: the slot, and the index among its open commands (R263). -/
def State.recordCmd (s : State) (r : List Byte) : Option (Nat × Nat) :=
  let w := leAt r 0x38 4
  ((s.openCmds (w % 256))[w / 2 ^ 8 % 1024]?).map fun q => (w % 256, q)

/-- A node from its record, over what the context kept of it, or else with command `cmd` (log entry 41). -/
def restoreNode (kept : Option Node) (cmd : Option (Nat × Nat)) (r runs : List Byte) (now : Nat) : Node :=
  let w := leAt r 0x20 4
  let base := kept.getD { place := .hub, cmd := if nbits w 20 4 = NodeState.template.code then none else cmd }
  let st := (NodeState.ofCode (nbits w 20 4)).getD base.st
  let d := (Desc.decode (r.take 32)).getD base.d
  let aux0 := leAt r 0x2C 4
  let aux1 := leAt r 0x30 8
  let n := { base.setCount (leAt r 0x24 2) with
    st := st, d := d, dealt := w.testBit 24, epoch := leAt r 0x26 2, iter := leAt r 0x28 4,
    place := if kept.isNone ∧ st = .active then .unit else base.place }
  match d.kind with
  | .loop => { n with trip := if aux0 = 0 then none else some aux0 }
  | .gate =>
    let g := GateState.ofCode (nbits aux0 28 3)
    { n with relTick := aux0 % 2 ^ 20, gst := g
             release := match base.release with
               | some x => some (aux1 % 2 ^ 48, x.2)
               | none => if g = .unarmed then none else some (aux1 % 2 ^ 48, now) }
  | .sprout => { n with res := some (aux1 % 2 ^ 20, nbits aux1 22 22) }
  | .wait => { n with ord := aux1 }
  | .task =>
    if d.isKitty then
      { n with runs := match st with
          | .ready | .parked | .active => some (parseRuns runs aux1 aux0)
          | _ => none }
    else n
  | _ => n

/-- A 64-byte node record of an image. -/
def nodeRec (img : List Byte) (j : Nat) : List Byte := (img.drop (leAt img 0x30 4 + 64 * j)).take 64

/-- One record of an image's node section: index and node. -/
def State.readNode (s : State) (c : Nat) (img : List Byte) (j : Nat) : Nat × Node :=
  let r := nodeRec img j
  let i := leAt r 0x20 4 % 2 ^ 20
  let kept := if s.imageHere c img then ((s.ctx c).keptNodes.find? fun x => decide (x.1 = i)).map Prod.snd else none
  (i, restoreNode kept (s.recordCmd r) r (img.drop (leAt img 0x3C 4)) s.now)

/-- The first condition of R261 that an image read whole meets. -/
def State.restoreCause (s : State) (c : Nat) (img : List Byte) : Option Nat :=
  let zeroed := img.take 0x5C ++ zeros 4 ++ img.drop 0x60
  let slotBad (j : Nat) : Bool :=
    let x := s.readNode c img j
    let n := leAt (nodeRec img j) 0x38 1
    (if s.imageHere c img then x.2.cmd.isSome else decide (x.2.st ≠ .template)) && (decide ((s.slot n).st = .disabled) || decide (s.slotCtx n ≠ c))
  if (crc32c zeroed).toNat ≠ leAt img 0x5C 4 then some 0x61
  else if leAt img 8 2 % 512 ≠ c then some 0x62
  else if ¬ s.nodesValid c ∨ ¬ s.edgesValid c ∨ leAt img 0xC 2 ≠ s.fld ⟨.ctxNodes, c, 0⟩ 16 11 ∨ leAt img 0xE 2 ≠ s.fld ⟨.ctxEdges, c, 0⟩ 16 11 ∨
      leAt img 0x10 2 ≠ s.fld ⟨.ctxDyn, c, 0⟩ 0 11 ∨ leAt img 0x12 2 ≠ s.fld ⟨.ctxDyn, c, 0⟩ 16 11 then some 0x63
  else if leAt img 0xB 1 % 4 ≠ s.det then some 0x64
  else if (List.range (leAt img 0x14 4)).any slotBad then some 0x65
  else none

/-- The image is read: its header, whose FORMAT is checked first, then the whole. -/
def State.readImage (s : State) (c : Nat) : Except Nat (List Byte) :=
  let a := (s.reg ⟨.ctxSaveAddr, c, 0⟩).toNat
  match s.readBytes devSpace a 256 with
  | none => .error 0x66
  | some h =>
    let f := leAt h 0 4
    if nbits f 8 4 ≠ s.fld ⟨.tsuIdent, 0, 0⟩ 8 4 ∨ s.fld ⟨.tsuIdent, 0, 0⟩ 0 8 < nbits f 0 8 then .error 0x60
    else match s.readBytes devSpace a (max 256 (leAt h 4 4)) with
      | none => .error 0x66
      | some img => .ok img

def State.restoreRefused (s : State) (c cause : Nat) : State :=
  let p := s.podOf c
  let s := s.updCtx c fun x => { x with st := .saved }
  let s := (s.report { typ := 0x43, source := sourceUnit 1, ctx := some c, body := [cause] }).settlePend c
  s.updPod p fun x => { x with swapIn := x.swapIn.filter fun w => decide (w.2 ≠ c) }

/-- A gate that was armed is armed again; with 4,096 armed it runs unmonitored (R279, R282). -/
def State.rearmGate (s : State) (k : Nat) : State :=
  let n := s.node k
  if n.d.kind ≠ .gate ∨ n.gst ≠ .armed then s else
  let left := if n.left = [] then
      (s.rangeNodes (nkCtx k) n.d.primBase n.d.primCount).filter fun x => decide ((s.node x).st ≠ .done)
    else n.left
  let full := decide (4096 ≤ (s.armedGates.filter fun x => decide (x ≠ k)).length) && !n.unmon
  let s := s.updNode k fun n => { n with left := left, unmon := n.unmon || full, evaluatedAt := s.now,
                                         tails := if n.tails = [] then s.tailsOf (nkCtx k) n.d.primBase n.d.primCount [] else n.tails }
  if full then
    (s.report { typ := 0x63, source := sourceUnit 5, ctx := some (nkCtx k), body := [s.nodeArg k] }).bump ⟨.tbGateFull, 0, 0⟩ 1
  else s

/-- A record of the suspended section, over what the context kept. -/
def State.readSusp (s : State) (c : Nat) (img : List Byte) (j : Nat) : Nat × Susp :=
  let o := leAt img 0x44 4 + 64 * j
  let k := nk c (leAt img o 4 % 2 ^ 20)
  let panel := leAt img (o + 4) 2
  let u := match (if s.imageHere c img then (s.ctx c).keptSusp else []).find? fun x => decide (x.1 = k) && decide (x.2.launch.panel = panel) with
    | some x => x.2
    | none => { launch := s.launchRec k panel, engine := 0, addr := 0, since := 0 }
  (k, { u with engine := leAt img (o + 12) 4, addr := leAt img (o + 16) 8, since := leAt img (o + 24) 8 })

/-- Who holds dynamic node block `b` in another chip's image, whose map does not say: the ACTIVE SPROUT whose reservation starts there,
or the first node that stands there (log entry 41). -/
def State.imageOwner (s : State) (c : Nat) (ns : List (Nat × Node)) (b : Nat) : DynOwner :=
  let lo := s.nodePool c + 64 * b
  let inBlock (i : Nat) : Bool := decide (lo ≤ i) && decide (i < lo + 64)
  let sprout (x : Nat × Node) : Bool := decide (x.2.st = .active) && (match x.2.res with | some r => inBlock r.1 | none => false)
  match ns.find? sprout <|> ns.find? fun (x : Nat × Node) => inBlock x.1 with
  | some x => .node x.1
  | none => .node lo

/-- The same of edge block `b`: the first node whose edges start there. -/
def State.imageEdgeOwner (s : State) (c : Nat) (ns : List (Nat × Node)) (b : Nat) : DynOwner :=
  let lo := s.edgePool c + 256 * b
  let starts (x : Nat × Node) : Bool :=
    (match x.2.res with | some r => decide (lo ≤ r.2) && decide (r.2 < lo + 256) | none => false) ||
    (decide (x.2.d.succ ≠ 0) && decide (lo ≤ x.2.d.edgeBase.toNat) && decide (x.2.d.edgeBase.toNat < lo + 256))
  match ns.find? starts with
  | some x => .node x.1
  | none => .node (s.nodePool c)

/-- Nodes, edges and the block map are written back (step 2). -/
def State.putNodes (s : State) (c : Nat) (img : List Byte) : State :=
  let ns := ((List.range (leAt img 0x14 4)).map (s.readNode c img)).filter fun x => decide (x.1 < s.nodeWin c)
  let eo := leAt img 0x34 4
  let bo := leAt img 0x38 4
  let mapBit (b : Nat) : Bool := (leAt img (bo + b / 8) 1).testBit (b % 8)
  let s := s.each ns fun s x => s.setNode (nk c x.1) x.2
  let s := s.each (List.range (min (leAt img 0x18 4) (s.edgeWin c))) fun s j => s.setEdge (ek c j) (BitVec.ofNat 32 (leAt img (eo + 4 * j) 4))
  let nb := s.nodeBlocks c
  if s.imageHere c img then
    s.updCtx c fun x => { x with dynN := x.dynN.filter (fun b => mapBit b.1), dynE := x.dynE.filter fun b => mapBit (nb + b.1) }
  else
    s.updCtx c fun x =>
      { x with dynN := ((List.range nb).filter mapBit).map fun b => (b, s.imageOwner c ns b)
               dynE := ((List.range (s.edgeBlocks c)).filter fun b => mapBit (nb + b)).map fun b => (b, s.imageEdgeOwner c ns b) }

/-! ### Roster state from an image (R133, R261, R264) -/

def SeqState.ofCode : Nat → SeqState
  | 1 => .importing | 2 => .pending | 3 => .ready | 4 => .inTrick | 5 => .held | 6 => .ended | 7 => .folded | _ => .free

/-- A roster entry from its 128 bytes; its pages stand in its page list (R145). -/
def SeqEnt.ofBytes (b : List Byte) (pages : List Nat) : SeqEnt :=
  { st := SeqState.ofCode (leAt b 0 1), urgent := (leAt b 1 1).testBit 0, isImport := (leAt b 1 1).testBit 1,
    starved := (leAt b 1 1).testBit 2, imported := (leAt b 1 1).testBit 3, epoch := BitVec.ofNat 16 (leAt b 2 2), roster := leAt b 4 1,
    tag := BitVec.ofNat 64 (leAt b 8 8), admitSeq := BitVec.ofNat 32 (leAt b 0x10 4), kvLen := leAt b 0x14 4,
    prefillLeft := leAt b 0x18 4, prefillOff := leAt b 0x1C 4, decoded := BitVec.ofNat 32 (leAt b 0x20 4), maxLen := leAt b 0x24 4,
    pageList := leAt b 0x28 8, pages := pages, pageCap := leAt b 0x34 4, prompt := BitVec.ofNat 64 (leAt b 0x38 8),
    lastTrick := BitVec.ofNat 32 (leAt b 0x40 4), tricks := BitVec.ofNat 32 (leAt b 0x44 4), admitBeat := leAt b 0x48 8,
    impExpert := leAt b 0x50 4, impChip := leAt b 0x54 2, landing := leAt b 0x56 2, impAddr := leAt b 0x58 8, impRows := leAt b 0x60 4,
    impRowBytes := leAt b 0x64 4, impTokens := leAt b 0x68 4, resultLast := BitVec.ofNat 32 (leAt b 0x6C 4) }

/-- The pages that a sequence's list in memory names. -/
def State.listPages (s : State) (k a n : Nat) : List Nat := (List.range n).map fun j => (s.readWord (ctxSpace (s.roCtx k)) (a + 4 * j) 4).getD 0

/-- One roster from the section of an image that starts at byte `o`. -/
def State.putRoster (s : State) (img : List Byte) (o : Nat) : State :=
  let k := leAt img (o + 2) 2 % 16
  let lens := (List.range 4).map fun j => leAt img (o + 0x14 + 2 * j) 2
  let seqs := (List.range (leAt img (o + 4) 4)).map fun j => (img.drop (o + 64 + 128 * j)).take 128
  let at0 := o + 64 + 128 * seqs.length
  let first (j : Nat) : Nat := at0 + 2 * (lens.take j).sum
  let s := ((s.setReg ⟨.roEpoch, k, 0⟩ (BitVec.ofNat 64 (leAt img o 2))).setReg ⟨.roTrick, k, 0⟩ (BitVec.ofNat 64 (leAt img (o + 8) 8))).setReg
    ⟨.roAdmitSeq, k, 0⟩ (BitVec.ofNat 64 (leAt img (o + 0x10) 4))
  let s := s.each (s.rosterSeqs k) fun s q => s.updSeq q fun _ => {}
  let s := s.each seqs fun s b => s.updSeq (leAt b 6 2) fun _ => { SeqEnt.ofBytes b (s.listPages k (leAt b 0x28 8) (leAt b 0x30 4)) with roster := k }
  s.each (List.range 4) fun s j => s.setRoList k j ((List.range (lens.getD j 0)).map fun i => leAt img (first j + 2 * i) 2)

/-- The `n` rosters of the section that starts at byte `o`. -/
def State.putRosters (s : State) (img : List Byte) : Nat → Nat → State
  | _, 0 => s
  | o, n + 1 =>
    let lens := (List.range 4).map fun j => leAt img (o + 0x14 + 2 * j) 2
    (s.putRoster img o).putRosters img (o + 64 + 128 * leAt img (o + 4) 4 + ceilDiv (2 * lens.sum) 64 * 64) n

/-- The roster state and sequence entries of a restore. On the chip that wrote the image they have stayed in place (R260); from
another chip's image they are written, and its ACTIVE ANCHORs wait to compose. -/
def State.restoreRosters (s : State) (c : Nat) (img : List Byte) : State :=
  if s.imageHere c img then s
  else
    let s := s.putRosters img (leAt img 0x40 4) (leAt img 0x20 4)
    s.each ((s.ctxNodes c).filter fun k => decide ((s.node k).st = .active) && decide ((s.node k).d.kind = .anchor)) fun s k =>
      s.updRos (bits (s.node k).d.w0 0 4) fun x => { x with anchors := if k ∈ x.anchors then x.anchors else x.anchors ++ [k], wake := true }

/-- Panels of a kitty node of another chip's image that are neither undrawn nor suspended have passed the combine turn (R87). -/
def State.passDone (s : State) (k : Nat) (susp : List (Nat × Susp)) : State :=
  let n := s.node k
  let left (p : Nat) : Bool := runsMem p n.undealt || susp.any fun x => decide (x.1 = k) && decide (x.2.launch.panel = p)
  if n.d.isKitty ∧ n.st = .active then
    (s.updNode k fun n => { n with panelsOk := ((List.range n.d.panels).filter fun p => !left p).length }).passPanels k
      ((List.range n.d.panels).filter fun p => !left p)
  else s

/-- Everything after the image has passed its checks (R261 steps 2 to 5). -/
def State.restoreFrom (s : State) (c : Nat) (img : List Byte) : State :=
  let susp := (List.range (leAt img 0x28 4)).map fun j => (s.putNodes c img).readSusp c img j
  let t : State := (s.putNodes c img).restoreRosters c img
  let t : State := if s.imageHere c img then t else t.each (t.ctxNodes c) fun t k => t.passDone k susp
  let t : State := (t.bump (ctxCnt c 4) (s.now - (s.ctx c).savedAt.getD s.now)).updCtx c fun x =>
    { x with st := .resident, keptNodes := [], keptSusp := [], savedAt := none, savedCrc := none }
  let ks : List Nat := t.ctxNodes c
  let t : State := { t with gs := { t.gs with
    parkList := t.gs.parkList ++ ks.filter (fun k => decide ((t.node k).st = .parked)),
    hubReady := t.gs.hubReady ++ ks.filter fun k =>
      decide ((t.node k).st = .ready) && (decide ((t.node k).d.kind = .join) || decide ((t.node k).d.kind = .gate)) } }
  let t := (t.each ks State.rearmGate).reRegister c
  if (t.ctx c).st ≠ .resident then t else
  let t := t.each susp fun t x => t.placeResume x.1 x.2
  let t := (t.dispatchReady c).unpark.resumeSlots c
  let t := if t.blocked c then t else t.unblock c
  t.report { typ := 0x41, source := sourceUnit 1, ctx := some c, body := [ks.length] }

/-- RESTORE_COMPLETE. -/
def State.restoreComplete (s : State) (c : Nat) : State :=
  let p := s.podOf c
  if (s.ctx c).st ≠ .restoring ∨ ¬ s.runs 1 then s
  else
    let s := s.noteHost devSpace (s.reg ⟨.ctxSaveAddr, c, 0⟩).toNat
    match s.readImage c with
    | .error x => s.restoreRefused c x
    | .ok img =>
      match s.restoreCause c img with
      | some x => s.restoreRefused c x
      | none =>
        let t := (s.restoreFrom c img).settlePend c
        match (t.pod p).swapIn with
        | some w =>
          if w.2 = c then (t.updPod p fun x => { x with swapIn := none }).swapDone p w.1 (some c) else t
        | none => t

def execRestoreComplete (c : Nat) (s : State) : Host.Outcome State Fault Refusal :=
  .next (s.viaHost devSpace (s.reg ⟨.ctxSaveAddr, c, 0⟩).toNat (.restoreComplete c) fun s => s.restoreComplete c)

/-! ### Suspension (R256 to R258) -/

/-- The entry of node `t` that a victim in region `r` is dealt: one of that region, or else of the lowest region. -/
def State.trumpEntry (s : State) (t r : Nat) : Option (Nat × HandEnt) :=
  let es := (r :: List.range 8).flatMap fun q => ((s.dealer q).hands.filter fun h => decide (h.key = t) && h.want.isNone).map fun h => (q, h)
  es.head?

/-- A trump entry of dealer `q` comes to dealer `r` for the engine `e` held there: a task or a resume entry moves, and of a share the
lowest panel (R256). -/
def State.bringEntry (s : State) (q r e : Nat) (h : HandEnt) : State :=
  let k := h.key
  let mark (x : HandEnt) : HandEnt := if x = h then { x with want := some e } else x
  if q = r then s.updDealer r fun d => { d with hands := d.hands.map mark }
  else if h.kitty then
    match runsMin (s.shareOf q h) with
    | none => s
    | some p =>
      let s := s.updDealer q fun d =>
        { d with shares := d.shares.map fun (x : Share) => if x.key = k ∧ x.id = h.share then
            let u := runsDel p x.undrawn
            { x with undrawn := u, size := x.size - 1, reported := x.reported || (decide (u = []) && decide (x.running = [])) } else x }
      let s := s.updDealer q fun d => { d with hands := if s.shareOf q h = [] then eraseFirst (fun x => decide (x = h)) d.hands else d.hands }
      let id := (s.dealer r).arrivals
      ((s.updDealer r fun d =>
        { d with shares := d.shares ++ [{ key := k, id := id, undrawn := runsAdd p [], size := 1 }]
                 hands := d.hands ++ [{ h with share := id, want := some e, arrive := id + 1 }], arrivals := id + 2 })).placeTurn k (s.eligibleOf k)
  else
    let s := match h.susp with
      | some u => if (s.node k).d.isKitty then s.moveRunning k u.launch.panel r else s
      | none => s
    let s := s.updDealer q fun d => { d with hands := eraseFirst (fun x => decide (x = h)) d.hands }
    s.updDealer r fun d => { d with hands := d.hands ++ [{ h with want := some e, arrive := d.arrivals }], arrivals := d.arrivals + 1 }

/-- A victim's engine is held for the trump entry, which the next issue slot deals it, ahead of every hand (R256). -/
def State.holdFor (s : State) (e t : Nat) : State :=
  let r := engRegion e
  match s.trumpEntry t r with
  | some (q, h) =>
    if s.freeEngine e ∧ e ∈ s.eligibleOf t then
      ((s.bringEntry q r e h).updEng e fun x => { x with held := some t }).updDealer r fun d => { d with confirmed := d.confirmed ++ [(t, e)] }
    else s
  | none => s

/-- SUSPEND_REPORT: the task becomes a resume entry, and its engine is dealt the trump entry it is held for. -/
def State.suspendReport (s : State) (e : Nat) : State :=
  let x := s.eng e
  match x.job, x.susp with
  | some l, some (_, addr, trump) =>
    if s.portHolds e ∨ x.reset.isSome ∨ ¬ s.runs 2 then s else
    let k := l.key
    let r := engRegion e
    let claims := x.claims
    let s := (s.closeWatch e).updEng e fun x => { x with susp := none }
    let s : State := s.freeUp e
    let s : State := s.addEnt r k (some { launch := l, engine := e, addr := addr, since := s.now, claims := claims })
    let s : State := (s.bump (ctxCnt l.ctx 3) 1).traceNode 5 r k (some e) l.panel
    let s := match trump with
      | some t => s.holdFor e t
      | none => s
    (s.rehomeAnd false fun _ => false).checkDonations
  | _, _ => s

def execSuspendReport (e : Nat) (s : State) : Host.Outcome State Fault Refusal := .next (s.suspendReport e)

/-- SUSPEND_TIMEOUT: no report within SUSPEND_LIMIT µs; the task runs on to its end. -/
def State.suspendTimeout (s : State) (e : Nat) : State :=
  let x := s.eng e
  match x.job, x.susp with
  | some l, some (t, _, _) =>
    let p := s.podOf l.ctx
    if t + s.fld ⟨.podPreempt, p, 0⟩ 16 10 ≤ s.now ∧ s.runs 2 then (s.dropSusp e).bump ⟨.podSuspLate, p, 0⟩ 1 else s
  | _, _ => s

def execSuspendTimeout (e : Nat) (s : State) : Host.Outcome State Fault Refusal := .next (s.suspendTimeout e)

/-! ### Donations (R269) -/

/-- DONATE_TIMEOUT: the holder faults, and the donation is over. -/
def State.donateTimeout (s : State) (f : Nat) : State :=
  match s.sy.donations.find? fun (d : Donation) => decide (d.flag = f) with
  | none => s
  | some d =>
    if d.since + s.fld ⟨.donateLimit, 0, 0⟩ 0 20 ≤ s.now ∧ s.timersOn ∧ s.runs 3 then
      (s.endDonation f).ctxFault d.holder { status := stCLAIM_TIMEOUT, detail := f } (sourceUnit 3)
    else s

def execDonateTimeout (f : Nat) (s : State) : Host.Outcome State Fault Refusal := .next (s.donateTimeout f)

end Sys2Proof.Machine
end

