-- ==== Sys2Proof/Machine/Fault.lean ====
section
/-! DEFINITION. Faults as commands: the scrubber, teardown, benching, region paths, dealers, service cores, supply dips and the return of
units to service (R343 to R365, R377, R439, R440). -/
namespace Sys2Proof.Machine

/-- FC_ERR: bit 0 UNBENCH, 1 CFG. -/
def State.fcErr (s : State) (b : Nat) : State := s.orReg ⟨.fcErr, 0, 0⟩ (BitVec.ofNat 64 (2 ^ b))

/-! ### The scrubber (R51, R52, R360) -/

/-- A word of edge slot `j` of context `c` is uncorrectable: the node whose edges hold it is QUARANTINED and the context faults; in a
FREE slot the word is rewritten as zero. -/
def State.edgeLost (s : State) (c j : Nat) : State :=
  match (s.ctxNodes c).find? fun k => decide (ek c j ∈ s.edgeSlots k) with
  | some k => s.quarantine k { cause := 0x93, level := 3, detail := j + 2 ^ 31 } (sourceUnit 1)
  | none => (s.setEdge (ek c j) 0).bump ⟨.gsCorrected, 0, 0⟩ 1

/-- An uncorrectable error in an object's state orphans it as if its owner were torn down (R222); no context faults. -/
def State.objectLost (s : State) (key : Nat) : State :=
  let o := s.obj key
  if o.alloc ∧ ¬ o.orphaned then
    (s.orphan key).report { typ := 0x31, status := stORPHANED, source := sourceUnit 3, ctx := some o.owner.toNat, body := [1] }
  else s

/-- What the access meets: a bad copy or a node slot's word stands for the check that follows, the rest acts at once. -/
def State.upset (s : State) (c i : Nat) : Upset → State
  | .none => s
  | .primary => s.updNode (nk c i) fun n => { n with pri := { n.pri with ok := false } }
  | .shadow => s.updNode (nk c i) fun n => { n with shd := { n.shd with ok := false } }
  | .nodeWord true => { s with gs := { s.gs with nodeFix := insertNat (nk c i) s.gs.nodeFix } }
  | .nodeWord false => { s with gs := { s.gs with nodeBad := insertNat (nk c i) s.gs.nodeBad } }
  | .edgeWord _ true => s.bump ⟨.gsCorrected, 0, 0⟩ 1
  | .edgeWord j false => s.edgeLost c j
  | .object kind idx => s.objectLost (objKey kind idx)

/-- SCRUB: the check of R51 on an armed slot, and of the words of any slot. -/
def State.scrub (s : State) (c i : Nat) (e : Upset) : State :=
  if ¬ s.runs 1 then s
  else
    let s := s.upset c i e
    let k := nk c i
    if (s.node k).armed ∨ k ∈ s.gs.nodeBad ∨ k ∈ s.gs.nodeFix then (s.checkNode k).1 else s

/-- SCRUB. The table has no row of its own for an error in an SRAM; the scrubber's row has as operand what the access meets (DESIGN
CHOICE, log entry 85). -/
def execScrub (c : Nat) (r : ScrubRead) (s : State) : Host.Outcome State Fault Refusal := .next (s.scrub c r.i r.met)

/-! ### Teardown (R343 to R347) -/

/-- A write of FC_TEARDOWN (R347). -/
def State.driverTeardown (s : State) (v : BitVec 64) : State :=
  let c := bits v 0 9
  if bit v 31 ∧ (s.ctx c).st ≠ .unused ∧ (s.ctx c).st ≠ .faulted then s.ctxFault c { cause := 0x94 } (sourceUnit 9) else s

/-- Step 2 has ended: no engine runs a task of the context, and no report of one is on its way. -/
def State.tearDrained (s : State) (c : Nat) : Bool :=
  decide (s.ctxEngines c = []) && !(s.dl.reports.any fun r => decide (r.job.ctx = c))

/-- Rosters bound to context `c`, enabled or not. -/
def State.rostersBound (s : State) (c : Nat) : List Nat := (List.range 16).filter fun k => decide (s.roCtx k = c)

/-- The trick of a roster that is torn down ends with its fold: its log record is written, or waits for room (R156). -/
def State.tearTrick (s : State) (k : Nat) : State :=
  match (s.ros k).trick with
  | none => s
  | some t =>
    if ¬ s.roLogEn k then s.updRos k fun x => { x with trick := none }
    else
      let s := s.updRos k fun x => { x with trick := some { t with resulted := true } }
      if s.logFull k t ∨ ¬ s.runs 4 then s else (s.logWrite k).updRos k fun x => { x with trick := none }

/-- Step 3 for one roster: its trick is folded and logged, its sequences end, and it is disabled. -/
def State.tearRoster (s : State) (k : Nat) : State × Nat :=
  let s := ((s.dropTrick k).tearTrick k).updRos k fun x => { x with anchors := [] }
  let r := s.tearSeqs k
  (r.1.setFld ⟨.roCtrl, k, 0⟩ 0 1 0, r.2)

/-- Step 4: landing entries are revoked, held requests refused, and unanswered ones given up. -/
def State.tearLinks (s : State) (c : Nat) : State :=
  let s := s.each (s.landingsWhere fun l => decide (l.ctx = c)) State.revoke
  let s := { s with li := { s.li with pend := s.li.pend.filter fun h => match h.localNode with | some k => decide (nkCtx k ≠ c) | none => true } }
  let s := (s.settlePend c).refuseCalls c
  let keep (u : Unanswered) : Bool := decide (u.parcel.ctx ≠ c)
  ({ s with li := { s.li with unanswered := s.li.unanswered.filter keep, numberWait := s.li.numberWait.filter keep } }).numberNext

/-- The teardown dump (R344): as many node records and object records as fit. -/
def State.tearDump (s : State) (c size : Nat) : List Byte :=
  let bad := (s.ctxNodes c).filter fun k => decide ((s.node k).st = .failed) || decide ((s.node k).st = .quarantined)
  let n := min bad.length ((size - 64) / 64)
  let room := size - 64 - 64 * n
  let d := s.dumpBytes (s.objKeys fun _ o => decide (o.owner.toNat = c) && (decide (o.kind ≠ 1) || decide (o.value = 1))) room
  let fits := decide (n = bad.length) && decide (64 ≤ room)
  let objs := if fits then d.1 ++ d.2 else []
  let cut := !fits || (d.1.getD 16 0).getLsbD 1
  leBytes 4 c ++ leBytes 4 n ++ leBytes 4 (64 + 64 * n) ++ leBytes 4 cut.toNat ++ leBytes 8 s.beat ++ zeros 40 ++
  (bad.take n).flatMap (fun k => s.nodeRecord k 0) ++ objs

/-- Step 5. A dump that cannot be written is lost. -/
def State.writeTearDump (s : State) (c : Nat) : State :=
  let a := (s.reg ⟨.tearDumpAddr, 0, 0⟩).toNat
  let size := s.fld ⟨.tearDumpSize, 0, 0⟩ 0 32
  if a = 0 ∨ size < 64 then s else (s.writeBytes devSpace a (s.tearDump c size)).getD s

/-- Step 6: the context's objects are orphaned. -/
def State.tearObjects (s : State) (c : Nat) : State :=
  let ks := s.objectsOf c
  let s := s.each ks State.orphan
  let s := { s with sy := { s.sy with donations := s.sy.donations.filter fun (d : Donation) => decide (d.holder ≠ c) } }
  let s := s.flushXlat c
  if ks = [] then s
  else s.report { typ := 0x31, status := stORPHANED, source := sourceUnit 3, ctx := some c, body := [ks.length] }

/-- Open commands of the context, but for those of a slot that is being destroyed (R197). -/
def State.tearCmds (s : State) (c : Nat) : List (Nat × Nat) :=
  (s.cmdsOfCtx c).filter fun q => decide ((s.slot q.1).st ≠ .destroying)

/-- Step 7: every command retires with the fault status and a record. -/
def State.tearRetire (s : State) (c status cause : Nat) : State :=
  s.each (s.tearCmds c) fun s q => (s.updCmd q.1 q.2 fun x => { x with ending := some (status, cause) }).retire q.1 q.2

/-- Step 8: every slot of the windows is FREE, and nothing is left of the context's work. -/
def State.tearFree (s : State) (c : Nat) : State :=
  let mine (k : Nat) : Bool := decide (nkCtx k = c)
  let edge (j : Nat) : Bool := decide (j / 2 ^ 22 = c)
  let dl : Dealing := s.dl.mapDealers fun d =>
    { d with
      hands := d.hands.filter (fun h => !mine h.key), shares := d.shares.filter (fun (h : Share) => !mine h.key),
      confirmed := d.confirmed.filter fun x => !mine x.1 }
  let dl : Dealing := { dl with starts := dl.starts.filter fun x => decide (x.2.ctx ≠ c) }
  let gs : GraphStore := { s.gs with
    nodes := s.gs.nodes.filter (fun x => !mine x.1), edges := s.gs.edges.filter (fun x => !edge x.1),
    nodeBad := s.gs.nodeBad.filter (fun k => !mine k), edgeBad := s.gs.edgeBad.filter (fun j => !edge j),
    nodeFix := s.gs.nodeFix.filter (fun k => !mine k), edgeFix := s.gs.edgeFix.filter (fun j => !edge j),
    parkList := s.gs.parkList.filter fun k => !mine k }
  ({ s with dl := dl, gs := gs }).updCtx c fun x =>
    { x with torn := true, dynN := [], dynE := [], dynWait := [], suspUsed := [], keptNodes := [], keptSusp := [], savedCrc := none, blockedSince := none }

/-- Steps 3 to 8. -/
def State.tearOn (s : State) (c : Nat) : State :=
  let f := (s.ctx c).fault.getD {}
  let r := (s.rostersBound c).foldl (fun (a : State × Nat) k => let t := a.1.tearRoster k; (t.1, a.2 + t.2)) (s, 0)
  let s := (r.1.tearLinks c).writeTearDump c
  let orphans := (s.objectsOf c).length
  let s := s.tearObjects c
  let cmds := s.tearCmds c
  let total (g : Cmd → Nat) : Nat := (cmds.map fun q => ((s.cmd q.1 q.2).map g).getD 0).sum
  let drained := min (total Cmd.drained) 65535
  let killed := min (total Cmd.killed) 65535
  let freed := (s.ctxNodes c).length
  let s := (s.tearRetire c f.status f.cause).tearFree c
  let s := s.updPod (s.podOf c) fun x => { x with swapIn := match x.swapIn with | some y => if y.2 = c then none else some y | none => none }
  s.report { typ := 0x22, status := f.status, source := sourceUnit 1, ctx := some c,
             body := [cmds.length % 2 ^ 16 + freed * 2 ^ 16, drained + killed * 2 ^ 16 + r.2 % 2 ^ 16 * 2 ^ 32, orphans] }

/-- TEARDOWN_CONTINUE. -/
def State.teardownContinue (s : State) (c : Nat) : State :=
  let x := s.ctx c
  if x.st = .faulted ∧ ¬ x.torn ∧ ¬ x.faultedInSave ∧ s.tearDrained c ∧ s.hubOn then s.tearOn c else s

def execTeardownContinue (c : Nat) (s : State) : Host.Outcome State Fault Refusal := .next (s.teardownContinue c)

/-! ### Benching (R350 to R354) -/

/-- A cell of the chip. -/
def isCell (e : Nat) : Bool := decide (e < 8192) && decide (engTile e < 48) && decide (engCell e < 11)

/-- A cell hangs that takes no order, a launch or resume in the tick after it, a drain or SUSPEND while it is pending; or that, but for
one in a WAIT or CLAIM, retires no instruction for FC_HANG.LIMIT µs, which is no longer than its task has run (R350). -/
def State.canHang (s : State) (e : Nat) : Bool :=
  let x := s.eng e
  isCell e && x.job.isSome && s.timersOn &&
  (x.susp.isSome || x.drain.isSome ||
   (x.watch.isNone && (decide (s.now ≤ x.startTick + 1) || decide (x.startTick + s.fld ⟨.fcHang, 0, 0⟩ 0 20 ≤ s.now))))

/-- A cell is benched, and its unacknowledged lines are poisoned. -/
def State.benchFault (s : State) (e reason : Nat) (lines : List Nat) : State :=
  if isCell e ∧ ¬ s.benched e ∧ s.hubOn then (s.poisonLines lines).benchCell e reason else s

/-- CELL_HANG. -/
def State.cellHang (s : State) (e : Nat) (lines : List Nat) : State := if s.canHang e then s.benchFault e 0 lines else s

def execCellHang (e : Nat) (lines : List Nat) (s : State) : Host.Outcome State Fault Refusal := .next (s.cellHang e lines)
def execCellUncorrectable (e : Nat) (lines : List Nat) (s : State) : Host.Outcome State Fault Refusal := .next (s.benchFault e 1 lines)

/-- CELL_PORT_PARITY. -/
def State.cellPortParity (s : State) (e : Nat) (lines : List Nat) : State := s.benchFault e 2 lines

def execCellPortParity (e : Nat) (lines : List Nat) (s : State) : Host.Outcome State Fault Refusal := .next (s.cellPortParity e lines)

/-- MIRROR_PARITY (R352). -/
def State.mirrorParity (s : State) (tile : Nat) (lines : List Nat) : State :=
  if tile < 384 ∧ ¬ bit (s.reg ⟨.benchCells, tile, 0⟩) 15 ∧ ¬ bit (s.reg ⟨.benchRegions, 0, 0⟩) (tile / 48) ∧ s.hubOn then
    (s.poisonLines lines).benchTile tile 2
  else s

def execMirrorParity (tile : Nat) (lines : List Nat) (s : State) : Host.Outcome State Fault Refusal := .next (s.mirrorParity tile lines)

/-- LE_BENCH (R354): 0 HANG, 1 UNCORRECTABLE, 8 LINK_PATH. -/
def State.leBench (s : State) (k reason : Nat) : State :=
  if k < 32 ∧ (reason = 0 ∨ reason = 1 ∨ reason = 8) ∧ s.hubOn then s.benchLE k reason else s

def execLeBench (k reason : Nat) (s : State) : Host.Outcome State Fault Refusal := .next (s.leBench k reason)

/-! ### Dealers and region paths (R357, R358) -/

def State.regionIn (s : State) (r : Nat) : Bool := decide (r < 8) && !bit (s.reg ⟨.benchRegions, 0, 0⟩) r

/-- A dealer discards its entries, pointers and holds. The hub's copies of the entries are what the model keeps; confirmed
offers are dispatched again. -/
def State.startRebuild (s : State) (r : Nat) : State :=
  let conf := ((s.dealer r).confirmed.map Prod.fst).filter fun k => decide ((s.node k).place = .offer)
  let drop (a : Nat × Option (Nat × Nat)) : Nat × Option (Nat × Nat) := if a.1 = r then (r, none) else a
  let free (x : Nat × Engine) : Nat × Engine := if ¬ isLE x.1 ∧ engRegion x.1 = r then (x.1, { x.2 with held := none }) else x
  let s := s.updDealer r fun d => { d with rebuild := true, confirmed := [], ptr := [] }
  let s := { s with dl := { s.dl with
    engines := (s.dl.engines.map free).filter (fun x => decide (x.2 ≠ ({} : Engine)))
    offers := s.dl.offers.map fun (o : Offer) =>
      { o with transit := o.transit.map drop, got := o.got.map drop, withdraw := o.withdraw.filter fun w => decide (w.1 ≠ r) } } }
  let s := s.each conf fun s k => s.updNode k fun n => { n with place := .hub }
  (s.each conf fun s k => if s.dispatchable k ∧ s.open then s.dispatch k else s).pruneOffers

/-- The sub-unit that loses hub state no context owns (R361): 8 the slot table, 9 the Resolver input ports, 10 the offer table, 11 the
Report Queue writer, 12 the Fault Controller. -/
def hubPart (r : Nat) : Nat :=
  match r with
  | 9 => 1 | 10 => 2 | 12 => 9 | _ => 0

/-- DEALER_PARITY: a second error during the rebuild loses the dealer. -/
def State.dealerParity (s : State) (r : Nat) : State :=
  if s.regionIn r ∧ s.hubOn then (if (s.dealer r).rebuild then s.loseRegion r 7 else s.startRebuild r) else s

/-- DEALER_PARITY: dealers 0 to 7. The table has no row of its own for an uncorrectable error in the hub's own SRAMs; numbers from 8 on
name them, and such an error is FATAL (DESIGN CHOICE, log entry 85). -/
def execDealerParity (r : Nat) (s : State) : Host.Outcome State Fault Refusal :=
  .next (if 8 ≤ r then s.enterFatal (hubPart r) else s.dealerParity r)

/-- DEALER_REBUILT. -/
def State.dealerRebuilt (s : State) (r : Nat) : State :=
  if (s.dealer r).rebuild ∧ s.hubOn then
    (s.updDealer r fun d => { d with rebuild := false }).report
      { typ := 0x27, source := sourceUnit 2, body := [r % 8 + (s.dealer r).hands.length % 2 ^ 16 * 2 ^ 16] }
  else s

def execDealerRebuilt (r : Nat) (s : State) : Host.Outcome State Fault Refusal := .next (s.dealerRebuilt r)

/-- ARG0 of PATH_FAULT and PATH_RECOVERED. -/
def pathArg (path index seq : Nat) : Nat := path % 16 + index % 2 ^ 8 * 2 ^ 8 + seq % 2 ^ 16 * 2 ^ 16

/-- REGION_PATH_FAULT: the path is reset; a second fault during the reset, or within 1 ms, loses the region. -/
def State.pathFault (s : State) (r seq : Nat) : State :=
  if s.regionIn r ∧ s.hubOn then
    let d := s.dealer r
    let again := d.pathDown || (match d.lastPathFault with | some t => decide (s.now ≤ t + 1000) | none => false)
    let s := s.report { typ := 0x25, source := sourceUnit 9, body := [pathArg 0 r seq] }
    let s := s.updDealer r fun d => { d with lastPathFault := some s.now }
    if again then s.loseRegion r 6
    else (s.updDealer r fun d => { d with pathDown := true, pathDownAt := s.now, pathSeq := seq }).disturb 2
  else s

/-- A fault of the trace path: the trace unit stops, its staging buffer stays readable, and work is unaffected (R339, R421). -/
def State.traceFault (s : State) (seq : Nat) : State :=
  if s.ob.traceDown then s
  else
    let s := s.report { typ := 0x25, source := sourceUnit 9, body := [pathArg 2 0 seq] }
    let on := decide (s.trcMode ≠ 0) || s.ob.draining.isSome
    let s := { s with ob := { s.ob with traceDown := true, draining := none } }
    if on then s.report { typ := 0x81, source := sourceUnit 7, body := [1] } else s

/-- A block of an on-die path has been resent: in LOCKSTEP one resend fits the path's slack, and a second is disclosed (R327, R336). -/
def State.pathResend (s : State) (resends : Nat) : State := if 2 ≤ resends then s.disturb 2 else s

/-- REGION_PATH_FAULT: regions 0 to 7, and 8 for the trace path, whose faults R23 reports in the same way (log entry 49). Block `b.seq`
has been resent `b.resends` times and is not acknowledged: the eighth resend makes it a fault (R23); the resends before it have no row of their
own (DESIGN CHOICE, log entry 85). -/
def execRegionPathFault (r : Nat) (b : PathBlock) (s : State) : Host.Outcome State Fault Refusal :=
  .next (
    let t := s.pathResend b.resends
    if b.resends < 8 then t else if r = 8 then t.traceFault b.seq else t.pathFault r b.seq)

/-- PATH_RESET_DONE: Align and the exchange of sequence numbers succeeded within 20 µs, or the region is lost. -/
def State.pathResetDone (s : State) (r : Nat) (ok : Bool) : State :=
  let d := s.dealer r
  if d.pathDown ∧ s.hubOn then
    if ok ∧ s.now ≤ d.pathDownAt + 20 then
      ((s.updDealer r fun d => { d with pathDown := false }).align [r]).report
        { typ := 0x26, source := sourceUnit 9, body := [pathArg 0 r d.pathSeq, s.now - d.pathDownAt] }
    else s.loseRegion r 6
  else s

def execPathResetDone (r : Nat) (ok : Bool) (s : State) : Host.Outcome State Fault Refusal := .next (s.pathResetDone r ok)

/-! ### Service cores (R359) -/

/-- A service core is held in reset: SERVICE_CORE_FAULT with 0 WATCHDOG or 1 PARITY. -/
def State.coreFault (s : State) (k reason : Nat) : State :=
  (s.holdCore k).report { typ := 0x2B, source := sourceUnit 9, body := [k % 16 + reason * 2 ^ 4] }

/-- SERVICE_WATCHDOG_EXPIRY: a running core has not written its SV_WDOG for 100 ms. -/
def State.coreExpiry (s : State) (k : Nat) : State :=
  if k < 9 ∧ (s.core k).st = 2 ∧ (s.core k).kickedAt + 100000 ≤ s.now then s.coreFault k 0 else s

def execServiceWatchdogExpiry (k : Nat) (s : State) : Host.Outcome State Fault Refusal := .next (s.coreExpiry k)

/-- SERVICE_PATH_PARITY. -/
def State.corePathParity (s : State) (k : Nat) : State := if k < 9 ∧ (s.core k).st ≠ 4 then s.coreFault k 1 else s

def execServicePathParity (k : Nat) (s : State) : Host.Outcome State Fault Refusal := .next (s.corePathParity k)

/-! ### Supply dips (R363 to R365, R377) -/

/-- SUPPLY_WARN: dies 0 to 7 are the compute dies, 8 the I/O die. The ramp of a compute die turns down, but not
in LOCKSTEP; during the start its rise holds where it stands (R396). -/
def State.supplyWarn (s : State) (d : Nat) : State :=
  if 8 < d ∨ (s.supply d).warn then s
  else
    let fresh := !s.dipped d
    let start := if s.ready ∨ ¬ (s.clock d).pll then 0 else 16 - (s.clock d).step
    let s := s.updSupply d fun x => { x with warn := true, clearFor := none, dipped := true, us := if fresh then 0 else x.us,
                                             lowest := if fresh then start else x.lowest }
    let s := if fresh then
        (((s.bump ⟨.supplyDips, 0, 0⟩ 1).pinEvent 3).report { typ := 0x28, source := sourceUnit 9, body := [d] }) else s
    if d < 8 ∧ ¬ s.lockstep ∧ s.ready then s.updClock d fun x => { x with goal := 8 } else s

def execSupplyWarn (die : Nat) (s : State) : Host.Outcome State Fault Refusal := .next (s.supplyWarn die)

/-- SUPPLY_CLEAR: the 50 µs of CLEAR start. -/
def State.supplyClear (s : State) (d : Nat) : State :=
  if (s.supply d).warn then s.updSupply d fun x => { x with warn := false, clearFor := some 0 } else s

def execSupplyClear (die : Nat) (s : State) : Host.Outcome State Fault Refusal := .next (s.supplyClear die)

/-- The dip of a die is over: Align after a ramp, and SUPPLY_RECOVERED. -/
def State.dipOver (s : State) (d : Nat) : State :=
  let x := s.supply d
  let s := s.updSupply d fun _ => {}
  let s := if d < 8 ∧ ¬ s.lockstep then s.align [d] else s
  s.report { typ := 0x29, source := sourceUnit 9, body := [d % 16 + x.lowest % 16 * 2 ^ 4, x.us] }

/-- Every die that dipped has had its 50 µs of CLEAR. -/
def State.allClear (s : State) : Bool :=
  (List.range 9).all fun d => !s.dipped d || (match (s.supply d).clearFor with | some t => decide (50 ≤ t) | none => false)

/-- SUPPLY_RECOVER: CLEAR has held for 50 µs, in LOCKSTEP on every die. A ramped clock goes up first. -/
def State.supplyRecover (s : State) (d : Nat) : State :=
  let held : Bool := match (s.supply d).clearFor with | some t => decide (50 ≤ t) | none => false
  if s.dipped d ∧ held ∧ (¬ s.lockstep ∨ s.allClear) then
    if d < 8 ∧ ¬ s.lockstep ∧ s.ready ∧ (s.clock d).pll ∧ (s.clock d).step ≠ 16 then s.updClock d fun x => { x with goal := 16 }
    else (s.updClock d fun x => { x with goal := 16 }).dipOver d
  else s

def execSupplyRecover (die : Nat) (s : State) : Host.Outcome State Fault Refusal := .next (s.supplyRecover die)

/-- CLOCK_RAMP_STEP (R377): one step of a domain's clock towards its goal. The step that brings a recovering die back to nominal
ends its dip. -/
def State.rampStep (s : State) (d : Nat) : State :=
  let x := s.clock d
  if ¬ x.pll ∨ x.step = x.goal ∨ (¬ s.ready ∧ s.dipped (min d 8)) then s
  else
    let n := if x.step < x.goal then x.step + 1 else x.step - 1
    let s := s.updClock d fun x => { x with step := n }
    let s := if d < 8 then s.updDealer d fun y => { y with lead := none } else s
    let s := if d < 8 ∧ s.dipped d then s.updSupply d fun y => { y with lowest := max y.lowest (16 - n) } else s
    if d < 8 ∧ s.dipped d ∧ n = 16 ∧ x.goal = 16 then s.dipOver d else s

def execClockRampStep (die : Nat) (s : State) : Host.Outcome State Fault Refusal := .next (s.rampStep die)

/-! ### Return to service (R355, R440) -/

/-- A unit is benched at the level that a GO names: 0 cell, 1 tile, 2 region, 3 LE. -/
def State.benchedAt (s : State) (lv u : Nat) : Bool :=
  match lv with
  | 0 => isCell u && bit (s.reg ⟨.benchCells, engTileIdx u, 0⟩) (engCell u) && !bit (s.reg ⟨.benchCells, engTileIdx u, 0⟩) 15 &&
         !bit (s.reg ⟨.benchRegions, 0, 0⟩) (engRegion u)
  | 1 => decide (u < 384) && bit (s.reg ⟨.benchCells, u, 0⟩) 15
  | 2 => decide (u < 8) && bit (s.reg ⟨.benchRegions, 0, 0⟩) u
  | 3 => decide (u < 32) && bit (s.reg ⟨.benchLe, 0, 0⟩) u
  | _ => false

/-- A write of FC_UNBENCH. -/
def State.writeUnbench (s : State) (v : BitVec 64) : State :=
  let q := (bits v 16 3, bits v 0 14)
  if ¬ bit v 31 ∨ q ∈ s.fc.unbench then s
  else if s.benchedAt q.1 q.2 then { s with fc := { s.fc with unbench := s.fc.unbench ++ [q] } }
  else s.fcErr 0

/-- The map without the unit; a returned tile has all its cells, a returned region all its tiles. -/
def State.clearBench (s : State) (lv u : Nat) : State :=
  match lv with
  | 0 => (s.setFld ⟨.benchCells, engTileIdx u, 0⟩ (engCell u) 1 0).updEng u fun _ => {}
  | 1 => (s.setReg ⟨.benchCells, u, 0⟩ 0).each (tileCells u) fun s e => s.updEng e fun _ => {}
  | 2 =>
    let s := (s.setFld ⟨.benchRegions, 0, 0⟩ u 1 0).each (List.range 48) fun s t => s.setReg ⟨.benchCells, 48 * u + t, 0⟩ 0
    let s := s.each (regionCells u) fun s e => s.updEng e fun _ => {}
    (s.updDealer u fun _ => {}).align [u]
  | _ =>
    let s := (s.setFld ⟨.benchLe, 0, 0⟩ u 1 0).updEng (leId u) fun _ => {}
    s.each [2 * u, 2 * u + 1] fun s k => if bit (s.reg ⟨.portCfg, k, 0⟩) 0 then s.toPortState k .training 0 else s

/-- UNBENCH_COMPLETE: the oldest return in progress ends. -/
def State.unbenchEnd (s : State) (ok : Bool) : State :=
  match s.fc.unbench with
  | [] => s
  | (lv, u) :: t =>
    if ¬ s.hubOn then s else
    let s := { s with fc := { s.fc with unbench := t } }
    if ok ∧ s.benchedAt lv u then
      let s := (s.clearBench lv u).mapChange
      (s.report { typ := 0x24, source := sourceUnit 9, body := [lv + u * 2 ^ 16, (s.reg ⟨.mapSeq, 0, 0⟩).toNat] }).rehome
    else s.fcErr 0

def execUnbenchComplete (ok : Bool) (s : State) : Host.Outcome State Fault Refusal := .next (s.unbenchEnd ok)

end Sys2Proof.Machine
end

