-- ==== Sys2Proof/Machine/RQ.lean ====
section
/-! DEFINITION. The Report Queue's writer, its registers and the MSI-X vectors (R184, R187 to R192, R429, R430). -/
namespace Sys2Proof.Machine

/-! ### Pointers (R192) -/

def State.rqWr (s : State) : Nat := s.fe.wrA.v.toNat
def State.rqRd (s : State) : Nat := s.fe.rdA.v.toNat

/-- The copies of each pointer agree, and every copy has good parity. -/
def State.rqGood (s : State) : Bool :=
  decide (s.fe.wrA.v = s.fe.wrB.v) && decide (s.fe.rdA.v = s.fe.rdB.v) && s.fe.wrA.ok && s.fe.wrB.ok && s.fe.rdA.ok && s.fe.rdB.ok

def State.setRqWr (s : State) (v : Nat) : State :=
  let p : PtrCopy := { v := BitVec.ofNat 32 v }
  { s with fe := { s.fe with wrA := p, wrB := p } }

def State.setRqRd (s : State) (v : Nat) : State :=
  let p : PtrCopy := { v := BitVec.ofNat 32 v }
  { s with fe := { s.fe with rdA := p, rdB := p } }

/-- Both copies of both pointers become 0. -/
def State.clearRq (s : State) : State := (s.setRqWr 0).setRqRd 0

/-- FE_RQ_STATUS: bit 0 HIGH, 1 RESET, 2 RD_BAD, 3 CFG. -/
def State.rqFlag (s : State) (b : Nat) : State := s.orReg ⟨.rqStatus, 0, 0⟩ (BitVec.ofNat 64 (2 ^ b))

/-- The queue is reset: RQ_RESET stands first in the FIFO with the four copies as they were. -/
def State.rqReset (s : State) : State :=
  let body := [s.fe.wrA.v.toNat + s.fe.wrB.v.toNat * 2 ^ 32, s.fe.rdA.v.toNat + s.fe.rdB.v.toNat * 2 ^ 32]
  let p : Packet := { typ := 0x01, source := sourceUnit 0, beat := s.beat, tick := s.beatTick, body := body }
  let s := s.clearRq
  (({ s with fe := { s.fe with pktSeq := 0, fifo := p :: s.fe.fifo } }).rqFlag 1).vector 272

/-! ### The writer -/

def State.rqOn (s : State) : Bool := bit (s.reg ⟨.rqCfg, 0, 0⟩) 0
def State.rqSize (s : State) : Nat := 2 ^ s.fld ⟨.rqCfg, 0, 0⟩ 8 5
def State.rqBase (s : State) : Nat := (s.reg ⟨.rqBase, 0, 0⟩).toNat

/-- Bytes not consumed yet. -/
def State.rqFill (s : State) : Nat := (s.rqWr + 2 ^ 32 - s.rqRd) % 2 ^ 32

/-- The fill stands at or above HIGH_WATER while HIGH is 0 (R191). -/
def State.highFlag (s : State) : State :=
  if s.fld ⟨.rqCfg, 0, 0⟩ 24 4 * s.rqSize ≤ 16 * s.rqFill ∧ ¬ bit (s.reg ⟨.rqStatus, 0, 0⟩) 0 ∧ s.hubOn then
    let s := s.rqFlag 0
    if bit (s.reg ⟨.rqCfg, 0, 0⟩) 17 then s.vector 272 else s
  else s

/-- The fill check of a hub cycle uses both pointers, so their copies are compared first (R191, R192). -/
def State.highCheck (s : State) : State := if s.rqGood ∨ ¬ s.hubOn then s.highFlag else s.rqReset.highFlag

/-- Bytes of PAD before a packet of `len` bytes (R189). -/
def State.padFor (s : State) (len : Nat) : Nat :=
  let off := s.rqWr % s.rqSize
  if s.rqSize < off + len then s.rqSize - off else 0

/-- The bytes of a PAD of `n` bytes: with a header from 32 bytes on. -/
def State.padBytes (s : State) (n : Nat) : List Byte :=
  if 32 ≤ n then
    let p : Packet := { typ := 0, source := sourceUnit 0, beat := s.beat, tick := s.beatTick }
    leBytes 4 n ++ p.tailBytes s.fe.pktSeq.toNat ++ zeros (n - 32)
  else leBytes 4 n ++ zeros (n - 4)

/-- Bytes go into the ring at WR, WR advances, and the tail word is written; none where a write fails. -/
def State.rqPut (s : State) (bs : List Byte) : Option State :=
  match s.writeBytes devSpace (s.rqBase + s.rqWr % s.rqSize) bs with
  | none => none
  | some t =>
    let wr := (s.rqWr + bs.length) % 2 ^ 32
    let t := { t with fe := { t.fe with pktSeq := t.fe.pktSeq + 1 } }
    ((t.setRqWr wr).bump (gcnt 8) 1).writeWord devSpace (t.reg ⟨.rqTail, 0, 0⟩).toNat 8 wr

/-- The FIFO takes packets that wait at their sources' handshakes. -/
def State.refillFifo (s : State) : State :=
  let n := 256 - s.fe.fifo.length
  { s with fe := { s.fe with fifo := s.fe.fifo ++ s.fe.stalled.take n, stalled := s.fe.stalled.drop n } }

/-- What a packet's completion brings: its notice, the trace unit's EVENT, and the end of its REPORT command (R177, R190, R405). -/
def State.packetDone (s : State) (p : Packet) (seq : Nat) : State :=
  let s := s.categoryVector p.typ p.pod
  let s := s.traceUnit 4 { typ := 0x0C, source := 14, arg := p.typ % 2 ^ 16 + p.status % 2 ^ 8 * 2 ^ 16, tag := seq }
  let s := if s.fld ⟨.trcTrig, 0, 0⟩ 48 16 = p.typ then s.trigger 1 else s
  match p.cmd with
  | none => s
  | some (n, q) => s.updCmd n q fun c => { c with owesPacket := false }

/-- The writer works: it is stopped with the hub, but in FATAL it goes on until the FATAL packet is written (R361). -/
def State.writerOn (s : State) : Bool :=
  s.rqOn && !s.gated 0 && !s.traceHeld 0 && (s.hubOn || (s.fatal && s.fe.fifo.any fun p => decide (p.typ = 0x2A)))

/-- One packet, with the PAD before it. -/
def State.writePacket (s : State) (p : Packet) (rest : List Packet) : State :=
  let pad := s.padFor p.length
  if s.rqSize < s.rqFill + pad + p.length then s
  else
    match (if pad = 0 then some s else s.rqPut (s.padBytes pad)) with
    | none => s.enterFatal 0
    | some t =>
      let seq := t.fe.pktSeq.toNat
      match t.rqPut (p.bytes seq) with
      | none => t.enterFatal 0
      | some u =>
        let u := ({ u with fe := { u.fe with fifo := rest } }).refillFifo
        (u.packetDone p seq).highCheck

/-- RQ_PACKET_WRITE. -/
def State.packetWrite (s : State) : State :=
  if ¬ s.rqGood then (if s.hubOn then s.rqReset else s)
  else match s.fe.fifo with
    | [] => s
    | p :: rest => if s.writerOn then s.writePacket p rest else s

def execRqPacketWrite (s : State) : Host.Outcome State Fault Refusal := .next s.packetWrite

/-! ### Vectors -/

/-- VECTOR_SIGNAL: a vector that was held back is signalled 1 µs after its last signal (R190). -/
def State.vectorSignal (s : State) (v : Nat) : State :=
  if v ∈ s.fe.vecHeld ∧ tget 0 s.fe.vecLast v ≤ s.now then
    ({ s with fe := { s.fe with vecHeld := s.fe.vecHeld.filter (· ≠ v), vecLast := tput 0 s.fe.vecLast v (s.now + 1) } }).msixNow v
  else s

def execVectorSignal (v : Nat) (s : State) : Host.Outcome State Fault Refusal := .next (s.vectorSignal v)

/-- MSIX_UNMASK: a pending vector is signalled (R184). -/
def State.msixUnmask (s : State) (v : Nat) : State :=
  if v ∈ s.fe.msixMask then
    let s := { s with fe := { s.fe with msixMask := s.fe.msixMask.filter (· ≠ v) } }
    if v ∈ s.fe.msixPend then ({ s with fe := { s.fe with msixPend := s.fe.msixPend.filter (· ≠ v) } }).emit (.msix v) else s
  else s

def execMsixUnmask (v : Nat) (s : State) : Host.Outcome State Fault Refusal := .next (s.msixUnmask v)

/-! ### Registers (R187, R429, R430) -/

/-- FE_RQ_BASE. -/
def State.writeRqBase (s : State) (v : BitVec 64) : State :=
  let r : Reg := ⟨.rqBase, 0, 0⟩
  if v &&& r.row.rw = s.reg r then s
  else if s.rqOn then s.rqFlag 3
  else (s.plainWrite r v).clearRq

/-- FE_RQ_TAIL_ADDR. -/
def State.writeRqTail (s : State) (v : BitVec 64) : State :=
  let r : Reg := ⟨.rqTail, 0, 0⟩
  if v &&& r.row.rw = s.reg r then s else if s.rqOn then s.rqFlag 3 else s.plainWrite r v

/-- FE_RQ_CFG. -/
def State.writeRqCfg (s : State) (v : BitVec 64) : State :=
  let r : Reg := ⟨.rqCfg, 0, 0⟩
  let shift := bits v 8 5
  let moved := decide (shift ≠ s.fld r 8 5)
  if shift < 16 ∨ 26 < shift ∨ bits v 24 4 = 0 ∨ (moved ∧ s.rqOn) then s.rqFlag 3
  else
    let fresh := !s.rqOn && bit v 0
    let s := s.plainWrite r v
    let s := if moved then s.clearRq else s
    (if fresh then { s with fe := { s.fe with pktSeq := 0 } } else s).highCheck

/-- FE_RQ_RD. -/
def State.writeRqRd (s : State) (v : BitVec 64) : State :=
  let d := (s.rqWr + 2 ^ 32 - bits v 0 32) % 2 ^ 32
  if ¬ s.rqGood then s.rqReset
  else if s.rqSize < d then s.rqFlag 2
  else s.setRqRd (bits v 0 32)

/-- FE_RQ_STATUS. -/
def State.writeRqStatus (s : State) (v : BitVec 64) : State := (s.plainWrite ⟨.rqStatus, 0, 0⟩ v).highCheck

end Sys2Proof.Machine
end

