-- ==== Sys2Proof/Machine/Sections.lean ====
section
/-! DEFINITION. The sections of the snapshot image, which the inspection apertures show too (R417, R462 to R465). -/
namespace Sys2Proof.Machine

/-- A run of records of one size in a section. -/
structure Part where
  base : Nat
  count : Nat
  size : Nat
  content : Nat → List Byte

/-- Exactly `n` bytes: cut, or filled with zeros. -/
def fit (n : Nat) (bs : List Byte) : List Byte := bs.take n ++ zeros (n - bs.length)

/-- A little-endian word of fields: value, place, width. -/
def pack (n : Nat) (fs : List (Nat × Nat × Nat)) : List Byte :=
  leBytes n ((fs.map fun f => f.1 % 2 ^ f.2.2 * 2 ^ f.2.1).sum)

/-- NODE [19:0] and CTX [28:20] of a node. -/
def nodeName (k : Nat) : List (Nat × Nat × Nat) := [(nkIdx k, 0, 20), (nkCtx k, 20, 9)]

/-! ### Section 1: the Graph Store in physical order -/

/-- The context and index of a slot in the units of its window. -/
def State.physSlot (s : State) (edges : Bool) (unit i : Nat) : Option (Nat × Nat) :=
  ((List.range 512).find? fun c =>
    let v := s.reg ⟨winReg edges, c, 0⟩
    bit v 31 && decide (bits v 0 10 * unit ≤ i) && decide (i < (bits v 0 10 + bits v 16 11) * unit)).map fun c =>
      (c, i - s.fld ⟨winReg edges, c, 0⟩ 0 10 * unit)

/-- The node in physical slot `i`. -/
def State.physNode (s : State) (i : Nat) : Option Nat := (s.physSlot false 1024 i).map fun x => nk x.1 x.2

/-- The physical slot of a node. -/
def State.physOf (s : State) (k : Nat) : Nat := s.fld ⟨.ctxNodes, nkCtx k, 0⟩ 0 10 * 1024 + nkIdx k

def nextIn (k : Nat) : List Nat → Option Nat
  | a :: b :: t => if a = k then some b else nextIn k (b :: t)
  | _ => none

/-- The list that a node stands in, and the node after it: 1 backlog, 2 parked, 3 waiting for a waiter record. -/
def State.nodeList (s : State) (k : Nat) : Nat × Option Nat :=
  match s.dl.backlog.find? fun b => decide (k ∈ b.2) with
  | some b => (1, nextIn k b.2)
  | none =>
    if k ∈ s.gs.parkList then (2, nextIn k s.gs.parkList)
    else if s.sy.recWait.any (fun x => decide (x.1 = k)) then (3, nextIn k (s.sy.recWait.map Prod.fst))
    else (0, none)

def Copy.par (c : Copy) : Bool := Config.parityBit c.v != !c.ok

def State.counterRec (s : State) (i : Nat) : List Byte :=
  match s.physNode i with
  | none => pack 8 [((Config.parityBit 0).toNat, 32, 1), ((Config.parityBit 0).toNat, 33, 1)]
  | some k =>
    let n := s.node k
    let l := s.nodeList k
    pack 8 [(n.pri.v.toNat, 0, 16), (n.shd.v.toNat, 16, 16), (n.pri.par.toNat, 32, 1), (n.shd.par.toNat, 33, 1), (n.dealt.toNat, 34, 1),
            (n.st.code, 36, 4), ((l.2.map s.physOf).getD 0, 40, 20), (l.1, 60, 3)]

def State.parts1 (s : State) : List Part :=
  [⟨0, 2 ^ 20, 32, fun i => match s.physNode i with
      | some k => if (s.node k).st = .free then zeros 32 else (s.node k).d.encode
      | none => zeros 32⟩,
   ⟨0x2000000, 2 ^ 22, 4, fun j => leBytes 4 (match s.physSlot true 4096 j with | some x => (s.edge (ek x.1 x.2)).toNat | none => 0)⟩,
   ⟨0x3000000, 2 ^ 20, 8, s.counterRec⟩]

/-! ### Sections 2 and 3: the dealers -/

/-- The entries of a dealer in index order; hand 3 × pod + class. -/
def HandEnt.hand (h : HandEnt) : Nat := 3 * h.pod + h.cls

/-- The index of the next entry of the same hand after index `e`. -/
def nextEnt (hs : List HandEnt) (e : Nat) (h : HandEnt) : Nat :=
  ((List.range hs.length).find? fun j => decide (e < j) && (match hs[j]? with | some x => decide (x.hand = h.hand) | none => false)).getD 0x1FFF

/-- The kitty index of a kitty entry's share in its dealer. -/
def kittyIdx (d : Dealer) (h : HandEnt) : Nat := d.shares.findIdx fun (x : Share) => decide (x.key = h.key) && decide (x.id = h.share)

def State.handRec (s : State) (r e : Nat) : List Byte :=
  let d := s.dealer r
  match d.hands[e]? with
  | none => zeros 16
  | some h =>
    pack 4 [(1, 0, 1), (h.susp.isSome.toNat, 1, 1), (h.kitty.toNat, 2, 1), (h.cls, 4, 2), (s.entPrio h, 6, 2), (h.pod, 8, 4), (h.slot, 16, 8)] ++
    pack 4 (nodeName h.key) ++
    pack 4 [(nextEnt d.hands e h, 0, 13), (if h.kitty then kittyIdx d h else 0, 16, 8)] ++ leBytes 4 (h.cycle % 2 ^ 32)

def State.handHead (s : State) (r h : Nat) : List Byte :=
  let hs := (s.dealer r).hands
  let mine (x : HandEnt) : Bool := decide (x.hand = h)
  let first := hs.findIdx mine
  pack 16 [(if first < hs.length then first else 0x1FFF, 0, 13), ((hs.filter mine).length, 16, 13), (tget 0 (s.dealer r).ptr h, 32, 6)]

/-- Engines of region `r` held by offers. -/
def State.holdsOf (s : State) (r : Nat) : Nat :=
  (s.dl.engines.filter fun e => !isLE e.1 && decide (engRegion e.1 = r) && e.2.held.isSome).length

def State.parts2 (s : State) : List Part :=
  ((List.range 8).flatMap fun r =>
    [⟨r * 0x20000, 4096, 16, s.handRec r⟩, ⟨r * 0x20000 + 0x10000, 48, 16, s.handHead r⟩,
     ⟨r * 0x20000 + 0x10300, 1, 16, fun _ => pack 16 [((s.dealer r).last, 0, 6), (s.holdsOf r, 16, 8)]⟩]) ++
  [⟨0x100000, 128, 16, fun q =>
    let ks := tget [] s.dl.backlog q
    pack 16 ((match ks with | k :: _ => nodeName k | [] => []) ++ [(ks.length, 32, 32)])⟩]

/-- A kitty entry. END is the panel after the share's last (DEDUCED from R83, which lets a share end where the next one starts). -/
def State.kittyRec (s : State) (r e : Nat) : List Byte :=
  match ((s.dealer r).shares)[e]? with
  | none => zeros 16
  | some h =>
    let n := s.node h.key
    pack 4 (nodeName h.key ++ [(1, 31, 1)]) ++ pack 4 [(h.first, 0, 16), (h.stop, 16, 16)] ++
    pack 4 [((runsMin h.undrawn).getD 0, 0, 16), (h.done, 16, 16)] ++ pack 4 [(n.turn, 0, 16), (n.turnHub.toNat, 16, 1)]

/-- Nodes whose turn the hub keeps. -/
def State.hubTurns (s : State) : List Nat := (s.gs.nodes.filter fun x => x.2.turnHub && decide (x.2.st ≠ .free)).map Prod.fst

def State.parts3 (s : State) : List Part :=
  ((List.range 8).map fun r => ⟨r * 0x1000, 256, 16, s.kittyRec r⟩) ++
  [⟨0x8000, 1024, 8, fun j => match s.hubTurns[j]? with
    | some k => pack 8 (nodeName k ++ [(1, 31, 1), ((s.node k).turn, 32, 16)])
    | none => zeros 8⟩]

/-! ### Section 4: crossings and on-die paths, whose blocks the spec gives no layout -/

def State.pathBytes (s : State) (base size i : Nat) : List Byte :=
  (List.range size).map fun j => Config.pathByte (base + i * size + j) (s.reg (gcnt 0)).toNat

def State.parts4 (s : State) : List Part :=
  (List.range 16).map (fun f => ⟨f * 0x100, 8, 32, s.pathBytes (f * 0x100) 32⟩) ++
  (List.range 16).map (fun f => ⟨0x10000 + f * 0x2000, 32, 256, s.pathBytes (0x10000 + f * 0x2000) 256⟩) ++
  [⟨0x30000, 32, 256, s.pathBytes 0x30000 256⟩, ⟨0x32000, 17, 16, s.pathBytes 0x32000 16⟩]

/-! ### Section 5: objects and waiters -/

/-- Objects with their keys and the record index of their first waiter. -/
def waiterStarts : Nat → Tab SyncObj → List (Nat × Nat)
  | _, [] => []
  | n, (k, o) :: t => (k, n) :: waiterStarts (n + o.waiters.length) t

def State.objRec (s : State) (k : Nat) : List Byte :=
  let o := s.obj k
  let first := if o.waiters = [] then 0x3FFFF else tget 0 (waiterStarts 0 s.sy.objs) k
  (objRecord k o).take 24 ++ pack 8 [(o.partner.toNat, 0, 16), (o.role.toNat, 16, 2), (o.depth.toNat, 18, 16), (first, 34, 18)]

/-- Every waiter with its object, and whether another follows in the same list. -/
def State.allWaiters (s : State) : List (Nat × Waiter × Bool) :=
  s.sy.objs.flatMap fun o =>
    (List.range o.2.waiters.length).filterMap fun j => (o.2.waiters[j]?).map fun w => (o.1, w, decide (j + 1 < o.2.waiters.length))

def State.waiterRec (s : State) (j : Nat) : List Byte :=
  match s.allWaiters[j]? with
  | none => zeros 32
  | some (k, w, more) => waiterRecord w ++ pack 4 [(objIdx k, 0, 18), ((s.obj k).kind, 18, 2)] ++ pack 4 [(if more then j + 1 else 0x3FFFF, 0, 18)] ++ zeros 8

def State.parts5 (s : State) : List Part :=
  [⟨0, 2 ^ 18, 32, s.objRec⟩, ⟨0x800000, 65536, 32, fun t => s.objRec (2 ^ 18 + t)⟩, ⟨0xA00000, 131072, 32, s.waiterRec⟩]

/-! ### Section 6: the Roster -/

def State.rosterRec (s : State) (k : Nat) : List Byte :=
  let ls := (List.range 4).map (s.roList k)
  leBytes 8 (s.fld ⟨.roEpoch, k, 0⟩ 0 16) ++ leBytes 8 (s.reg ⟨.roTrick, k, 0⟩).toNat ++ leBytes 4 (s.fld ⟨.roAdmitSeq, k, 0⟩ 0 32) ++
  ls.flatMap (fun l => leBytes 2 l.length) ++ ls.flatMap (fun l => leBytes 2 (l.head?.getD 0)) ++ leBytes 1 (s.ros k).trick.isSome.toNat ++ zeros 27

def State.linkRec (s : State) (q : Nat) : List Byte :=
  let e := s.seqEnt q
  match (List.range 4).find? fun j => decide (q ∈ s.roList e.roster j) with
  | none => zeros 4
  | some j =>
    let nx := nextIn q (s.roList e.roster j)
    pack 4 [(nx.getD 0, 0, 14), (nx.isSome.toNat, 15, 1), (j + 1, 16, 3)]

def State.poolRec (s : State) (p : Nat) : List Byte :=
  leBytes 4 ((s.pod p).stack.length + (s.pod p).deep) ++ leBytes 4 (s.pod p).nextPage ++ leBytes 4 (s.poolFree p) ++ zeros 52

def State.parts6 (s : State) : List Part :=
  [⟨0, 16, 64, s.rosterRec⟩, ⟨0x10000, 16384, 128, fun q => (s.seqEnt q).bytes q⟩, ⟨0x210000, 16384, 4, s.linkRec⟩, ⟨0x220000, 16, 64, s.poolRec⟩]

/-! ### Section 7: the Link Interface. The places of the sub-parts are the model's (log entry 48). -/

def State.portRec (s : State) (k : Nat) : List Byte :=
  let x := s.port k
  leBytes 4 (s.reg ⟨.portCfg, k, 0⟩).toNat ++ leBytes 4 (s.reg ⟨.portExpect, k, 0⟩).toNat ++ leBytes 8 (s.reg ⟨.portFound, k, 0⟩).toNat ++
  pack 4 [(x.st.code, 0, 4), (x.rev, 8, 8), (x.reason, 16, 8)] ++ zeros 4 ++ leBytes 8 (s.reg ⟨.sliceRejects, k, 0⟩).toNat ++
  (List.range 11).flatMap (fun q => leBytes 1 (tget 0 x.credits q)) ++ zeros 20 ++ leBytes 1 (x.cut % 4)

/-- The receive slots of a port: queue `q` has 24 from 24 q on, CTL the last 16. -/
def State.rxSlot (s : State) (k j : Nat) : Option RxBlock :=
  let q := min (j / 24) 10
  (tget [] (s.port k).rx q)[j - 24 * q]?

def State.rxState (s : State) (i : Nat) : Nat :=
  match s.rxSlot (i / 256) (i % 256) with
  | none => 0
  | some b => if b.inCut then 2 else 1

def State.replayRec (s : State) (i : Nat) : List Byte :=
  match ((s.port (i / 2048)).replay)[i % 2048]? with
  | none => zeros 256
  | some b => fit 256 b.blk.bytes

def State.unansweredRec (s : State) (i : Nat) : List Byte :=
  match s.li.unanswered[i]? with
  | none => zeros 64
  | some u => leBytes 4 u.seq ++ leBytes 4 u.resends ++ fit 56 u.parcel.bytes

/-- Two bits of answer status for each number from NEXT - 256 on; a number that is not taken, or not answered yet, reads 0. -/
def State.srcRec (s : State) (c : Nat) : List Byte :=
  let x := s.src c
  let st (j : Nat) : Nat := let a := (tget (0, 0) x.taken ((x.next + 2 ^ 32 - 256 + j) % 2 ^ 32)).1; if a < 4 then a else 0
  leBytes 4 x.incarn ++ leBytes 4 x.next ++
  (List.range 128).flatMap (fun b => leBytes 1 (st (4 * b) + st (4 * b + 1) * 4 + st (4 * b + 2) * 16 + st (4 * b + 3) * 64)) ++ zeros 120

/-- R119. -/
def LandState.code : LandState → Nat
  | .free => 0 | .isOpen => 1 | .filled => 2 | .revoked => 3 | .broken => 4

def State.landRec (s : State) (l : Nat) : List Byte :=
  let x := s.landing l
  let own : List (Nat × Nat × Nat) := match x.owner with
    | .trick k _ => [(k, 32, 14)]
    | .sequence k q _ => [(1, 46, 2), (q, 32, 14), (k, 48, 4)]
    | .command n _ => [(2, 46, 2), (n, 32, 8)]
  pack 8 ([(x.st.code, 0, 3), (x.gen.toNat, 8, 8), (x.ctx, 16, 9)] ++ own) ++ leBytes 2 x.epoch ++ leBytes 8 x.base ++ leBytes 4 x.expect ++
  leBytes 4 x.received ++ leBytes 4 (match x.callAt with | some t => s.now - t | none => 0) ++ zeros 2

def State.serveRec (s : State) (e : Nat) : List Byte :=
  (List.range 5).flatMap (fun j => leBytes 4 (wordAt (s.serveEnt e) j).toNat) ++ leBytes 4 (tget 0 s.li.callCount e) ++ zeros 8

def State.pendRec (s : State) (i : Nat) : List Byte :=
  match s.li.pend[i]? with
  | none => zeros 32
  | some h => fit 28 ((h.parcel.map Parcel.bytes).getD []) ++ leBytes 4 i

/-- Base, records, size and content of the eight sub-parts, and of the array of receive-slot states after the second. -/
def State.parts7 (s : State) : List Part :=
  let o2 := 0x40 + 64 * 64
  let oS := o2 + 16384 * 256
  let o3 := oS + 16384
  let o4 := o3 + 131072 * 256
  let o5 := o4 + 4096 * 64
  let o6 := o5 + 8192 * 256
  let o7 := o6 + 16384 * 32
  let o8 := o7 + 4096 * 32
  [⟨0, 1, 64, fun _ => [0x40, o2, o3, o4, o5, o6, o7, o8].flatMap (leBytes 8)⟩, ⟨0x40, 64, 64, s.portRec⟩,
   ⟨o2, 16384, 256, fun i => match s.rxSlot (i / 256) (i % 256) with | some b => fit 256 b.raw | none => zeros 256⟩,
   ⟨oS, 4096, 4, fun i => (List.range 4).flatMap fun j => leBytes 1 (s.rxState (4 * i + j))⟩, ⟨o3, 131072, 256, s.replayRec⟩,
   ⟨o4, 4096, 64, s.unansweredRec⟩, ⟨o5, 8192, 256, s.srcRec⟩, ⟨o6, 16384, 32, s.landRec⟩, ⟨o7, 4096, 32, s.serveRec⟩, ⟨o8, 256, 32, s.pendRec⟩]

/-! ### Sections 8 to 10 -/

def State.slotRec (s : State) (n : Nat) : List Byte :=
  let x := s.slot n
  leBytes 4 x.st.code ++ leBytes 4 x.whost.toNat ++ leBytes 8 x.wdev.toNat ++ leBytes 8 x.nextSeq.toNat ++ leBytes 8 x.doneSeq.toNat ++
  leBytes 4 (s.openCmds n).length ++ leBytes 4 x.buf.length ++ zeros 24

def State.fetchRec (s : State) (i : Nat) : List Byte :=
  match ((s.slot (i / 32)).buf)[i % 32]? with
  | some e => e.bytes.getD (zeros 64)
  | none => zeros 64

def State.fifoRec (s : State) (i : Nat) : List Byte :=
  match s.fe.fifo[i]? with
  | some p => fit 4096 (p.bytes ((s.fe.pktSeq.toNat + i) % 2 ^ 32))
  | none => zeros 4096

def State.parts8 (s : State) : List Part :=
  [⟨0, 256, 64, s.slotRec⟩, ⟨0x4000, 8192, 64, s.fetchRec⟩, ⟨0x84000, 256, 4096, s.fifoRec⟩]

def State.gateRec (s : State) (i : Nat) : List Byte :=
  match s.armedGates[i]? with
  | none => zeros 32
  | some k =>
    let n := s.node k
    pack 8 (nodeName k) ++ leBytes 8 ((n.release.getD (0, 0)).1 % 2 ^ 48) ++ leBytes 4 (n.relTick % 2 ^ 20) ++ leBytes 4 n.d.deadline ++
    leBytes 4 n.d.margin ++ leBytes 4 n.gst.code

def State.relRec (s : State) (i : Nat) : List Byte :=
  (List.range 6).flatMap (fun j => leBytes 4 (wordAt (tget [] s.tb.rel i) j).toNat) ++
  leBytes 4 ((s.fe.cmds.filter fun e => decide (e.2.relEntry = some i)).length % 16) ++ zeros 4

def State.parts9 (s : State) : List Part := [⟨0, 4096, 32, s.gateRec⟩, ⟨0x20000, 256, 32, s.relRec⟩]

def State.parts10 (s : State) : List Part :=
  [⟨0, 1, 64, fun _ => leBytes 4 0 ++ leBytes 4 s.ob.trace.length ++ leBytes 1 s.trcMode ++ zeros 55⟩,
   ⟨0x40, traceDepth, 32, fun i => match s.ob.trace[i]? with | some r => r.bytes | none => zeros 32⟩]

/-! ### A section as a whole -/

def State.parts (s : State) : Nat → List Part
  | 1 => s.parts1 | 2 => s.parts2 | 3 => s.parts3 | 4 => s.parts4 | 5 => s.parts5
  | 6 => s.parts6 | 7 => s.parts7 | 8 => s.parts8 | 9 => s.parts9 | 10 => s.parts10
  | _ => []

def Part.limit (p : Part) : Nat := p.base + p.count * p.size

def sectionBytes (ps : List Part) : Nat := (ps.map Part.limit).foldl max 0

/-- The record that covers an offset: where it starts, and its bytes; none in a gap or past the end. -/
def recordAt (ps : List Part) (off : Nat) : Option (Nat × List Byte) :=
  (ps.find? fun p => decide (p.base ≤ off) && decide (off < p.limit)).map fun p =>
    let i := (off - p.base) / p.size
    (p.base + i * p.size, fit p.size (p.content i))

/-- One byte of a section. -/
def sectionByte (ps : List Part) (off : Nat) : Byte :=
  match recordAt ps off with
  | none => 0
  | some r => r.2.getD (off - r.1) 0

/-! ### The snapshot image (R417) -/

/-- Section 5 of an image: the objects that are allocated, and the waiters in use. -/
def State.imageObjs (s : State) : List Part :=
  let ks := s.objKeys fun _ _ => true
  [⟨0, ks.length, 32, fun i => s.objRec (ks.getD i 0)⟩, ⟨32 * ks.length, s.allWaiters.length, 32, s.waiterRec⟩]

/-- Section 7 of an image: in place of the whole arrays, the occupied receive slots and the unacknowledged blocks, each after
8 bytes with its index. The directory's second and third offsets name them; the states of the occupied slots stand in their
index words from bit 32 on (log entry 48). -/
def State.imageLinks (s : State) : List Part :=
  let rx := (List.range 16384).filter fun i => decide (s.rxState i ≠ 0)
  let rp := (List.range 64).flatMap fun k => (List.range (s.port k).replay.length).map fun j => 2048 * k + j
  let o2 := 0x40 + 64 * 64
  let o3 := o2 + 264 * rx.length
  let o4 := o3 + 264 * rp.length
  let o5 := o4 + 4096 * 64
  let o6 := o5 + 8192 * 256
  let o7 := o6 + 16384 * 32
  let o8 := o7 + 4096 * 32
  [⟨0, 1, 64, fun _ => [0x40, o2, o3, o4, o5, o6, o7, o8].flatMap (leBytes 8)⟩, ⟨0x40, 64, 64, s.portRec⟩,
   ⟨o2, rx.length, 264, fun j =>
     let i := rx.getD j 0
     pack 8 [(i, 0, 32), (s.rxState i, 32, 8)] ++ (match s.rxSlot (i / 256) (i % 256) with | some b => fit 256 b.raw | none => zeros 256)⟩,
   ⟨o3, rp.length, 264, fun j => leBytes 8 (rp.getD j 0) ++ s.replayRec (rp.getD j 0)⟩,
   ⟨o4, 4096, 64, s.unansweredRec⟩, ⟨o5, 8192, 256, s.srcRec⟩, ⟨o6, 16384, 32, s.landRec⟩, ⟨o7, 4096, 32, s.serveRec⟩, ⟨o8, 256, 32, s.pendRec⟩]

def State.imageParts (s : State) (k : Nat) : List Part := if k = 5 then s.imageObjs else if k = 7 then s.imageLinks else s.parts k

/-- Kind, offset in the image and length of each section, from offset `o` on, each at a multiple of 64. -/
def State.placeSections (s : State) : Nat → List Nat → List (Nat × Nat × Nat)
  | _, [] => []
  | o, k :: ks => let n := sectionBytes (s.imageParts k); (k, o, n) :: s.placeSections (o + roundUp n 64) ks

def State.sections (s : State) : List (Nat × Nat × Nat) := s.placeSections 512 [1, 2, 3, 4, 5, 6, 7, 8, 9, 10]

/-- One byte of the image after its header. -/
def State.imageByte (s : State) (o : Nat) : Byte :=
  match s.sections.find? fun x => decide (x.2.1 ≤ o) && decide (o < x.2.1 + x.2.2) with
  | none => 0
  | some x => sectionByte (s.imageParts x.1) (o - x.2.1)

/-- The length of the whole image. -/
def State.imageLen (s : State) : Nat := (s.sections.map fun x => x.2.1 + roundUp x.2.2 64).foldl max 512

/-- OB_STOP.STATE (R414). -/
def StopState.code : StopState → Nat
  | .running => 0 | .frozen => 1 | .quiescing => 2 | .quiesced => 3 | .snapped => 4

/-- The 512-byte header. -/
def State.snapHeader (s : State) (cut : Bool) (crc : Nat) : List Byte :=
  let id := if s.ob.stop = .snapped then s.fld ⟨.snapLast, 0, 0⟩ 0 32 else 0
  let cutAt := if s.ob.stop = .snapped then s.ob.edge else s.ob.cut
  leBytes 4 id ++ leBytes 4 (s.fld ⟨.tsuIdent, 0, 0⟩ 0 12 + s.ob.stop.code * 2 ^ 12) ++ leBytes 8 cutAt.1 ++ leBytes 8 cutAt.2 ++ leBytes 2 s.chipId ++
  leBytes 2 10 ++ leBytes 4 crc ++ leBytes 4 cut.toNat ++ zeros 28 ++
  fit 256 (s.sections.flatMap fun x => leBytes 4 x.1 ++ leBytes 4 (x.2.2 % 2 ^ 32) ++ leBytes 8 x.2.1) ++ zeros 192

end Sys2Proof.Machine
end

