-- ==== Sys2Proof/Machine/Observe.lean ====
section
/-! DEFINITION. The trace unit's registers and its sink, latch rings, the snapshot dump, the inspection apertures and the pins of
observation (R368, R397 to R421, R460 to R464). -/
namespace Sys2Proof.Machine

/-! ### The trace unit's registers (R406, R408, R460, R461) -/

/-- OB_ERR.TRC. -/
def State.trcErr (s : State) : State := s.obErr 0

/-- A mode is entered from OFF: the buffer is empty and the counts start afresh. -/
def State.trcStart (s : State) : State :=
  { s with ob := { s.ob with trace := [], traceWait := [], fseq := 0, trigSeen := 0, triggered := false, postLeft := 0, stoppedMaking := false,
                             draining := none, trigCount := 0, drops := [], dropTotal := [], lossStop := false } }

/-- MODE OFF: no more records are made, and the buffer is drained. -/
def State.trcStop (s : State) : State :=
  { s with ob := { s.ob with stoppedMaking := true, lossStop := false,
                             draining := if s.ob.traceDown then none else some (s.ob.draining.getD 2) } }

/-- OB_TRC_CFG. -/
def State.writeTrcCfg (s : State) (v : BitVec 64) : State :=
  let r : Reg := ⟨.trcCfg, 0, 0⟩
  let was := s.trcMode
  let mode := bits v 0 2
  let other := decide ((v ^^^ s.reg r) &&& 0x14 ≠ 0)
  let pre := s.fld ⟨.trcCounts, 0, 0⟩ 0 24
  let post := s.fld ⟨.trcCounts, 0, 0⟩ 24 24
  if mode = 3 ∨ (other ∧ was ≠ 0) ∨ (mode = 2 ∧ (post = 0 ∨ 262143 < pre + post)) ∨ (mode ≠ 0 ∧ was ≠ 0 ∧ mode ≠ was) then s.trcErr
  else
    let s := s.plainWrite r v
    if mode = was then s else if mode = 0 then s.trcStop else s.trcStart

/-- OB_TRC_CFG, COUNTS. -/
def State.writeTrcCounts (s : State) (v : BitVec 64) : State :=
  let r : Reg := ⟨.trcCounts, 0, 0⟩
  if s.trcMode ≠ 0 ∧ v &&& r.row.rw ≠ s.reg r then s.trcErr else s.plainWrite r v

/-- OB_TRC_TRIG. -/
def State.writeTrcTrig (s : State) (v : BitVec 64) : State :=
  if s.trcMode ≠ 0 ∨ bits v 0 16 = 0 then s.trcErr else s.plainWrite ⟨.trcTrig, 0, 0⟩ v

/-- OB_TRC_TRIG, NODE. -/
def State.writeTrcNode (s : State) (v : BitVec 64) : State :=
  if s.trcMode ≠ 0 then s.trcErr else s.plainWrite ⟨.trcTrigNode, 0, 0⟩ v

/-- OB_TRC_CTRL. -/
def State.writeTrcCtrl (s : State) (v : BitVec 64) : State := if bit v 0 then s.trigger 2 else s

/-- OB_TRC_PORT. -/
def State.writeTrcPort (s : State) (v : BitVec 64) : State :=
  let r : Reg := ⟨.trcPort, 0, 0⟩
  let was := bit (s.reg r) 0
  let s := s.plainWrite r v
  if bit v 0 then (if was then s else { s with ob := { s.ob with portSince := some s.now } })
  else { s with ob := { s.ob with portSince := none } }

/-- OB_TRC_RING's WR and RD become 0. -/
def State.trcRingZero (s : State) : State := (s.setReg ⟨.trcRingWr, 0, 0⟩ 0).setReg ⟨.trcRingRd, 0, 0⟩ 0

def State.writeTrcRingBase (s : State) (v : BitVec 64) : State :=
  if s.trcMode ≠ 0 then s.trcErr else (s.plainWrite ⟨.trcRingBase, 0, 0⟩ v).trcRingZero

def State.writeTrcRingShift (s : State) (v : BitVec 64) : State :=
  let k := bits v 0 5
  if s.trcMode ≠ 0 ∨ k < 16 ∨ 30 < k then s.trcErr else (s.plainWrite ⟨.trcRingShift, 0, 0⟩ v).trcRingZero

/-- Bytes in the memory ring. -/
def State.trcRingFill (s : State) (rd : Nat) : Nat := ((s.reg ⟨.trcRingWr, 0, 0⟩).toNat + 2 ^ 32 - rd) % 2 ^ 32

def State.trcRingSize (s : State) : Nat := 2 ^ s.fld ⟨.trcRingShift, 0, 0⟩ 0 5

def State.writeTrcRingRd (s : State) (v : BitVec 64) : State :=
  let rd := bits v 0 32
  if rd % 256 ≠ 0 ∨ s.trcRingSize < s.trcRingFill rd then s.trcErr else s.plainWrite ⟨.trcRingRd, 0, 0⟩ v

/-! ### The sink (R406, R407, R410, R411) -/

/-- The Observation Unit's drains run: not while SNAPPED, nor stopped with the hub clock. -/
def State.sinkOn (s : State) : Bool :=
  decide (s.ob.stop ≠ .snapped) && !s.gated 7 && !(s.lockstep && (List.range 9).any s.dipped) &&
  !s.ob.traceDown && !s.packetHeld 7

/-- The sink has something to take: STREAM drains oldest first, TRIGGER only after its last POST record, and a drain goes on
in OFF. -/
def State.sinkDue (s : State) : Bool :=
  s.ob.draining.isSome || (decide (s.trcMode = 1) && decide (s.ob.trace ≠ []))

/-- SINK is MEMORY. -/
def State.sinkMem (s : State) : Bool := bit (s.reg ⟨.trcCfg, 0, 0⟩) 4

/-- The sink does not stall. -/
def State.sinkReady (s : State) : Bool :=
  if s.sinkMem then
    decide (s.trcRingFill (s.reg ⟨.trcRingRd, 0, 0⟩).toNat + 256 ≤ s.trcRingSize) && decide (0 < s.dl.obsBucket)
  else match s.ob.portSince with
    | none => false
    | some t => bit (s.reg ⟨.trcPort, 0, 0⟩) 0 && decide (t + 1 ≤ s.now)

/-- The frame of the oldest records (R411). -/
def State.frame (s : State) (recs : List TraceRec) (last : Bool) : List Byte :=
  let trig := recs.any fun r => decide (r.typ = 0x0D)
  let dist := recs.any fun r => r.disturbed
  let body := leBytes 4 s.ob.fseq ++ leBytes 1 recs.length ++ leBytes 1 (trig.toNat + dist.toNat * 2 + last.toNat * 4) ++ leBytes 2 s.chipId ++
    leBytes 8 s.beat ++ fit 224 (recs.flatMap TraceRec.bytes) ++ zeros 12
  body ++ leBytes 4 (crc32c body).toNat

/-- One block's payload through the scrambler 1 + x^39 + x^58, its lowest bit first (PRESUMED, log entry 86). -/
def scrambleBlock (st : BitVec 58) (d : BitVec 64) : BitVec 64 × BitVec 58 :=
  (List.range 64).foldl (fun (x : BitVec 64 × BitVec 58) i =>
    let b := (d.getLsbD i ^^ x.2.getLsbD 38) ^^ x.2.getLsbD 57
    (x.1 ||| (BitVec.ofNat 64 b.toNat <<< i), (x.2 <<< 1) ||| BitVec.ofNat 58 b.toNat)) (0, st)

/-- A lane's blocks, scrambled from what its register holds. -/
def scrambleLane : BitVec 58 → List (Nat × BitVec 64) → List (Nat × BitVec 64)
  | _, [] => []
  | st, (h, d) :: t => let r := scrambleBlock st d; (h, r.1) :: scrambleLane r.2 t

/-- A control block: its type, the lane and FSEQ. -/
def controlBlock (typ lane fseq : Nat) : Nat × BitVec 64 := (2, BitVec.ofNat 64 (typ + lane * 2 ^ 8 + fseq * 2 ^ 16))

/-- Blocks go out on every lane at the same time. What a lane's scrambler holds comes from the IDLE blocks before, which no command
shows (log entry 86). -/
def State.sendLanes (s : State) (f : Nat → List (Nat × BitVec 64)) : State :=
  ({ s with ob := { s.ob with laneRuns := s.ob.laneRuns + 1 } }).emit
    (.trace ((List.range 4).map fun lane => scrambleLane (Config.laneScrambler lane s.ob.laneRuns) (f lane)))

/-- SOF, then data blocks 0 to 31 of a frame, block j on lane j mod 4. -/
def frameLane (fseq : Nat) (bs : List Byte) (lane : Nat) : List (Nat × BitVec 64) :=
  controlBlock 0xA2 lane fseq :: (List.range 8).map fun i => (1, BitVec.ofNat 64 (leAt bs (8 * (4 * i + lane)) 8))

/-- One ALIGN block on each lane. -/
def State.sendAlign (s : State) : State :=
  ({ s with ob := { s.ob with alignedAt := some s.now } }).sendLanes fun lane => [controlBlock 0xA1 lane s.ob.fseq]

/-- A frame leaves by the port, an ALIGN block after every 4,096th. -/
def State.portPut (s : State) (fseq : Nat) (bs : List Byte) : State :=
  let s := s.sendLanes (frameLane fseq bs)
  if (fseq + 1) % 4096 = 0 then s.sendAlign else s

/-- A frame reaches the sink: the port, or the ring in memory, where a write that fails loses it. -/
def State.sinkPut (s : State) (fseq : Nat) (bs : List Byte) : State :=
  if s.sinkMem then
    let wr := (s.reg ⟨.trcRingWr, 0, 0⟩).toNat
    let a := (s.reg ⟨.trcRingBase, 0, 0⟩).toNat + wr % s.trcRingSize
    let t := ((s.writeBytes devSpace a bs).getD s).setReg ⟨.trcRingWr, 0, 0⟩ (BitVec.ofNat 64 ((wr + 256) % 2 ^ 32))
    (t.bump (gcnt 14) 4).payObs 4
  else s.portPut fseq bs

/-- Records that wait at their sources enter the buffer as it has room (R410). -/
def State.traceEnter (s : State) : State :=
  let n := traceDepth - s.ob.trace.length
  ({ s with ob := { s.ob with trace := s.ob.trace ++ s.ob.traceWait.take n, traceWait := s.ob.traceWait.drop n } }).bump (gcnt 9)
    (min n s.ob.traceWait.length)

/-- The buffer below 6 MiB lets the dealers issue again. -/
def State.lossResume (s : State) : State :=
  if s.ob.lossStop ∧ s.ob.trace.length < 196608 then { s with ob := { s.ob with lossStop := false } } else s

/-- TRACE_FRAME_SEND. -/
def State.frameSend (s : State) : State :=
  if s.sinkOn && s.sinkDue && s.sinkReady then
    let recs := s.ob.trace.take 7
    let rest := s.ob.trace.drop 7
    let last := s.ob.draining.isSome && decide (rest = [])
    let bs := s.frame recs last
    let s := ({ s with ob := { s.ob with trace := rest, fseq := (s.ob.fseq + 1) % 2 ^ 32 } }.sinkPut s.ob.fseq bs).traceEnter.lossResume
    if last then
      let reason := s.ob.draining.getD 0
      ({ s with ob := { s.ob with draining := none } }).report { typ := 0x81, source := sourceUnit 7, body := [reason] }
    else s
  else s

def execTraceFrameSend (s : State) : Host.Outcome State Fault Refusal := .next s.frameSend

/-- ALIGN blocks are due: in the first µs of the port's enable, and once every µs while there is no frame to send. -/
def State.alignDue (s : State) : Bool :=
  bit (s.reg ⟨.trcPort, 0, 0⟩) 0 &&
  (decide (s.ob.portSince = some s.now) || (!(s.sinkOn && s.sinkDue && !s.sinkMem) && decide (s.ob.alignedAt ≠ some s.now)))

/-- TRACE_ALIGN_SEND: ALIGN blocks on every lane, where they are due. -/
def State.alignSend (s : State) : State := if s.alignDue then s.sendAlign else s

def execTraceAlignSend (s : State) : Host.Outcome State Fault Refusal := .next s.alignSend

/-! ### Latch rings (R397, R461) -/

def State.latchZero (s : State) (n : Nat) : State := (s.setReg ⟨.latchWr, n, 0⟩ 0).setReg ⟨.latchRd, n, 0⟩ 0

/-- OB_LATCH[n], CFG. -/
def State.writeLatchCfg (s : State) (n : Nat) (v : BitVec 64) : State :=
  let r : Reg := ⟨.latchCfg, n, 0⟩
  let k := bits v 8 5
  let moved := decide (k ≠ s.fld r 8 5)
  if k < 6 ∨ 16 < k ∨ (moved ∧ s.latchOn n) then s.trcErr
  else
    let s := s.plainWrite r v
    if moved then s.latchZero n else s

def State.writeLatchBase (s : State) (n : Nat) (v : BitVec 64) : State :=
  if s.latchOn n then s.trcErr else (s.plainWrite ⟨.latchBase, n, 0⟩ v).latchZero n

def State.writeLatchRd (s : State) (n : Nat) (v : BitVec 64) : State :=
  let d := ((s.reg ⟨.latchWr, n, 0⟩).toNat + 2 ^ 32 - bits v 0 32) % 2 ^ 32
  if 2 ^ s.fld ⟨.latchCfg, n, 0⟩ 8 5 < d then s.trcErr else s.plainWrite ⟨.latchRd, n, 0⟩ v

/-! ### Counters (R402) -/

/-- OB_GCNT_SNAP: every global counter, and every counter of R98 of every dealer, goes to its shadow. -/
def State.gcntSnapCmd (s : State) (v : BitVec 64) : State :=
  if bit v 0 then
    let t := s.each (List.range 16) fun t i => t.setReg ⟨.gcntShadow, i, 0⟩ (s.reg (gcnt i))
    t.each (List.range 8) fun t r =>
      t.each [(RegName.dlIssued, 0), (.dlDraws, 1), (.dlIdle, 2), (.dlRedispatch, 3), (.dlRecalls, 4)] fun t x =>
        t.setReg ⟨.dlShadow, r, x.2⟩ (s.reg ⟨x.1, r, 0⟩)
  else s

/-! ### The snapshot dump (R417) -/

/-- FROZEN, QUIESCED or SNAPPED. -/
def State.cutStands (s : State) : Bool :=
  decide (s.ob.stop = .frozen) || decide (s.ob.stop = .quiesced) || decide (s.ob.stop = .snapped)

/-- START: the sections are to be written up to SIZE in whole blocks of 64 bytes; the header waits for the last acknowledgement. -/
def State.snapDumpStart (s : State) (v : BitVec 64) : State :=
  if bit v 0 ∧ s.cutStands ∧ ¬ s.ob.dumpBusy then
    let size := s.fld ⟨.snapDumpSize, 0, 0⟩ 0 32
    if size < 512 then { s with ob := { s.ob with dumpBusy := true, dumpHeader := [], dumpBody := [] } }
    else
      let all := s.imageLen
      let len := min all (size / 64 * 64)
      let cut := decide (len < all)
      let body := (List.range (len - 512)).map fun i => s.imageByte (512 + i)
      let crc := (crc32c (s.snapHeader cut 0 ++ body)).toNat
      let hdr := s.snapHeader cut crc
      let a := (s.reg ⟨.snapDumpAddr, 0, 0⟩).toNat
      { s with ob := { s.ob with dumpBusy := true, dumpAt := a, dumpHeader := hdr, dumpNext := a + 512, dumpBody := body } }
  else s

/-- SNAP_DUMP_DONE: after the last write of the image its header is written, under the same regulator, and BUSY reads 0. -/
def State.snapDumpDone (s : State) : State :=
  if s.ob.dumpBusy ∧ s.ob.dumpBody = [] ∧ 0 < s.dl.obsBucket then
    let n := (s.ob.dumpHeader.length + 63) / 64
    let t := (s.writeBytes devSpace s.ob.dumpAt s.ob.dumpHeader).getD s
    ({ t with ob := { t.ob with dumpBusy := false, dumpAt := 0, dumpHeader := [], dumpNext := 0 } }.bump (gcnt 14) n).payObs n
  else s

def execSnapDumpDone (s : State) : Host.Outcome State Fault Refusal := .next s.snapDumpDone

/-! ### The inspection apertures (R462 to R464) -/

/-- OB_INSP_SEL[w]: the writer's latch is given up. -/
def State.writeInspSel (s : State) (who : Requester) (i : Nat) (v : BitVec 64) : State :=
  if bits v 0 16 ≠ 0 then s.obErr 2
  else
    let s := s.plainWrite ⟨.inspSel, i, 0⟩ v
    { s with ob := { s.ob with insp := s.ob.insp.filter fun x => decide (x.1 ≠ who) } }

/-- A read of word `j` of aperture `w`: the data, and the state after it. -/
def State.inspRead (s : State) (who : Requester) (w j : Nat) : BitVec 32 × State :=
  let off := (s.reg ⟨.inspSel, w - 1, 0⟩).toNat + 4 * j
  match recordAt (s.parts w) off with
  | none => (0, s)
  | some (start, bytes) =>
    let word (bs : List Byte) : BitVec 32 := BitVec.ofNat 32 (leAt bs (off - start) 4)
    if off = start then
      let rest := s.ob.insp.filter fun x => decide (x.1 ≠ who)
      (word bytes, { s with ob := { s.ob with insp := rest ++ [(who, w, start, bytes)] } })
    else match s.ob.insp.find? fun x => decide (x.1 = who) && decide (x.2.1 = w) && decide (x.2.2.1 = start) with
      | some x => (word x.2.2.2, s)
      | none => (word bytes, s)

/-! ### The UART's receive pin (R368) -/

/-- Framing errors the receiver has counted when the line is found held low: the character it begins with the low line lacks its stop bit
(R395), and how many more there were the spec leaves open (DEDUCED, log entry 91). -/
def State.framingErrors (s : State) : Nat := 1 + Config.framingErrors s.now (s.reg ⟨.uartErr, 0, 0⟩).toNat

/-- UART_RX_FAULT: held low for 1 s the line is faulty, its framing errors are in SV_UART_ERR, the receiver is disabled, a partial command is
dropped, and PIN_FAULT is written. -/
def State.uartFault (s : State) : State :=
  if s.sv.uartOff then s
  else
    (({ s with sv := { s.sv with uartOff := true, session := false } }).bump ⟨.uartErr, 0, 0⟩ s.framingErrors).report {
      typ := 0x2C, source := sourceUnit 9, body := [1] }

def execUartRxFault (s : State) : Host.Outcome State Fault Refusal := .next s.uartFault

/-- UART_RX_RECOVER. -/
def State.uartRecover (s : State) : State := { s with sv := { s.sv with uartOff := false } }

def execUartRxRecover (s : State) : Host.Outcome State Fault Refusal := .next s.uartRecover

end Sys2Proof.Machine
end

