-- ==== Sys2Proof/Machine/Control.lean ====
section
/-! DEFINITION. The global registers' commands, start-up, clock gating, the settings flash's driver path and the service cores
(R321, R322, R330, R365, R372 to R382, R388, R390 to R395, R418, R425, R426, R441 to R443). -/
namespace Sys2Proof.Machine

/-! ### Error bits -/

/-- TSU_ERR: bit 0 MODE, 1 CLK, 2 RESET, 3 LIMIT. -/
def State.tsuErr (s : State) (b : Nat) : State := s.orReg ⟨.tsuErr, 0, 0⟩ (BitVec.ofNat 64 (2 ^ b))

/-- SV_ERR: bit 0 SPI, 1 LOAD, 2 UART, 3 DRAOFT. -/
def State.svErr (s : State) (b : Nat) : State := s.orReg ⟨.svErr, 0, 0⟩ (BitVec.ofNat 64 (2 ^ b))

/-! ### Resets (R365, R372, R373) -/

/-- SUPPLY_RESET: the chip resets, and the device leaves the link. -/
def execSupplyReset (s : State) : Host.Outcome State Fault Refusal := .next (s.chipReset.emit .linkLost)

/-- CHIP_RESET: power-on, or a reset from PCIe. -/
def execChipReset (s : State) : Host.Outcome State Fault Refusal := .next s.chipReset

/-- TSU_RESET. -/
def State.writeReset (s : State) (v : BitVec 64) : State :=
  if bits v 8 8 = 0xA5 then (if bit v 0 then { s with st := { s.st with resetDue := true } } else s) else s.tsuErr 2

/-! ### Mode (R321, R322, R330) -/

/-- The conditions of R322: every slot DISABLED, and no context RESIDENT, SAVING or RESTORING. -/
def State.quiet (s : State) : Bool :=
  !(s.fe.slots.any fun x => decide (x.2.st ≠ .disabled)) &&
  !(s.gs.ctxs.any fun x => decide (x.2.st = .resident) || decide (x.2.st = .saving) || decide (x.2.st = .restoring))

/-- Nothing runs that a lockstep restart would cut (R330). -/
def State.restartable (s : State) : Bool :=
  !(s.fe.slots.any fun x => decide (x.2.st = .fetching)) &&
  !(s.gs.nodes.any fun x => decide (x.2.st = .ready) || decide (x.2.st = .parked) || decide (x.2.st = .active))

/-- A write of RESTART 1 is accepted; DET may become LOCKSTEP in the same write (DEDUCED, log entry 51). -/
def State.restartOk (s : State) (v : BitVec 64) : Bool :=
  decide (bits v 0 2 = 2) && (s.lockstep || s.quiet) && s.restartable

/-- The Align of a mode change or of a restart: TSU_MODE.BUSY reads 1 until it ends (R322, R330). -/
def State.modeAlign (s : State) : State := (s.align (List.range 8)).setFld ⟨.tsuMode, 0, 0⟩ 8 1 1

/-- Steps 1 to 6 of an accepted restart. -/
def State.lockstepRestart (s : State) : State :=
  let s := s.modeAlign.setReg ⟨.tsuLsTick, 0, 0⟩ 0
  let tiles (p : Nat) : Nat := ((List.range 8).map (s.tilesIn p)).sum
  let mem : Tab Int := (List.range 128).foldl
    (fun t i => tput 0 t i ((s.memBurst (i / 8) * s.tilesIn (i / 8) (i % 8) / tiles (i / 8) : Nat) : Int)) []
  let link : Tab Int := (List.range 16).foldl (fun t p => tput 0 t p (s.linkBurst p : Int)) []
  let s := { s with dl := { s.dl with memBucket := mem, linkBucket := link, obsBucket := 9000 } }
  let s := if s.beatSource = 0 then s.setReg ⟨.tbTick, 0, 0⟩ 0 else s
  s.setReg ⟨.tsuDisturb, 0, 0⟩ 0

/-- TSU_MODE. -/
def State.writeMode (s : State) (v : BitVec 64) : State :=
  let r : Reg := ⟨.tsuMode, 0, 0⟩
  let det := bits v 0 2
  if bit v 3 ∧ ¬ s.restartOk v then s.tsuErr 0
  else
    let s := if det = s.det then s
      else if det = 3 ∨ ¬ s.quiet then s.tsuErr 0
      else (s.setFld r 0 2 det).modeAlign
    let s := s.setFld r 4 1 (bits v 4 1)
    if bit v 3 then s.lockstepRestart else s

/-! ### Clock gating (R380 to R382) -/

/-- Sub-unit `u` holds work. -/
def State.unitBusy (s : State) (u : Nat) : Bool :=
  match u with
  | 0 => s.fe.slots.any (fun x => decide (x.2.st = .fetching) || decide (x.2.st = .destroying) || decide (x.2.waiting ≠ [])) ||
         decide (s.fe.cmds ≠ []) || decide (s.fe.stalled ≠ []) || (s.rqOn && decide (s.fe.fifo ≠ []))
  | 1 => decide (s.gs.resIn ≠ []) || decide (s.gs.armed ≠ []) || decide (s.gs.hubReady ≠ []) || s.gs.fan.isSome || decide (s.gs.fanHeld ≠ [])
  | 2 => s.dl.engines.any (fun x => x.2.job.isSome || x.2.drain.isSome || x.2.reset.isSome) || s.dl.dealers.any (fun x => decide (x.2.hands ≠ []) || decide (x.2.shares ≠ [])) ||
         decide (s.dl.starts ≠ []) || decide (s.dl.reports ≠ []) || decide (s.dl.offers ≠ []) || decide (s.dl.offerWait ≠ []) ||
         decide (s.dl.leHand ≠ []) || decide (s.dl.memWait ≠ [])
  | 3 => decide (s.sy.xlatWait ≠ []) || decide (s.sy.recWait ≠ []) || s.sy.inv.isSome || s.sy.dumpBusy || decide (s.sy.donations ≠ [])
  | 4 => s.rs.ros.any fun x => x.2.trick.isSome || decide (x.2.anchors ≠ []) || decide (x.2.retire ≠ [])
  | 5 => s.tb.remote.isSome || s.gs.nodes.any (fun x => decide (x.2.gst = .armed))
  | 6 => decide (s.li.unanswered ≠ []) || decide (s.li.numberWait ≠ []) || decide (s.li.respWait ≠ []) || decide (s.li.retWait ≠ []) || decide (s.li.calls ≠ []) || decide (s.li.pend ≠ []) ||
         s.li.landings.any (fun x => decide (x.2.st = .isOpen)) ||
         s.li.ports.any fun x => decide (x.2.replay ≠ []) || decide (x.2.rx ≠ []) || decide (x.2.tx ≠ []) || decide (x.2.ctl ≠ [])
  | 7 => decide (s.trcMode ≠ 0) || s.ob.draining.isSome || s.ob.dumpBusy
  | _ => s.sv.cores.any (fun x => decide (x.2.st = 1)) || s.sv.spiBusy || s.sv.reloading

/-- After a write: under COMPAT an enabled sub-unit's clock runs, and an idle one's that is not enabled stops; back in native
gating every clock runs until it is idle again. -/
def State.regate (s : State) : State :=
  s.each (List.range 9) fun s u =>
    if s.compat then
      if bit (s.reg ⟨.tsuClken, 0, 0⟩) u then s.setGated u false
      else if s.unitBusy u then s else s.setGated u true
    else s.setGated u false

/-- TSU_CLKEN: a change of COMPAT needs the conditions of R322. -/
def State.writeClken (s : State) (v : BitVec 64) : State :=
  let r : Reg := ⟨.tsuClken, 0, 0⟩
  let was := s.compat
  let refused := decide (bit v 31 ≠ was) && !s.quiet
  let t := s.plainWrite r (if refused then setBit v 31 was else v)
  let t := if t.compat ∨ was then t.regate else t
  if refused then t.tsuErr 1 else t

/-- NATIVE_GATE_STOP: a sub-unit that has been without work for 16 cycles has its clock stopped; under COMPAT, one that is not
enabled. -/
def State.gateStop (s : State) (u : Nat) : State :=
  if s.unitBusy u ∨ (s.compat ∧ bit (s.reg ⟨.tsuClken, 0, 0⟩) u) then s else s.setGated u true

def execNativeGateStop (u : Nat) (s : State) : Host.Outcome State Fault Refusal := .next (s.gateStop u)

/-! ### Start (R374 to R377) -/

/-- GS_INIT_DONE. -/
def State.gsInit (s : State) : State := if s.ready then s else { s with st := { s.st with gsDone := true } }

def execGsInitDone (s : State) : Host.Outcome State Fault Refusal := .next s.gsInit

/-- PLL_STABLE: the domain switches to its PLL, at 1/16 of its target. -/
def State.pllStable (s : State) (d : Nat) : State :=
  if s.st.phase = .pll ∧ ¬ (s.clock d).pll then s.updClock d fun x => { x with pll := true, step := 1, goal := 16 } else s

def execPllStable (d : Nat) (s : State) : Host.Outcome State Fault Refusal := .next (s.pllStable d)

/-- START_READY: every domain is at its target, and Align runs over every region. -/
def State.startReady (s : State) : State :=
  if s.st.phase = .pll ∧ s.st.gsDone ∧ ((List.range 10).all fun d => (s.clock d).pll && decide ((s.clock d).step = 16)) then
    let s := s.align (List.range 8)
    ({ s with st := { s.st with phase := .ready, alignAt := (s.reg (gcnt 0)).toNat } }).setFld ⟨.tsuStart, 0, 0⟩ 0 2 3
  else s

def execStartReady (s : State) : Host.Outcome State Fault Refusal := .next s.startReady

/-! ### Limits (R426) -/

/-- The range of a limit register. -/
def limitOk (n : RegName) (v : Nat) : Bool :=
  match n with
  | .cmdLimit => decide (1000 ≤ v)
  | .donateLimit => decide (10 ≤ v) && decide (v ≤ 1000000)
  | .drainLimit | .stallWindow => decide (1 ≤ v)
  | _ => true

def State.writeLimit (s : State) (n : RegName) (v : BitVec 64) : State :=
  if limitOk n (v &&& (regRow n).rw).toNat then s.plainWrite ⟨n, 0, 0⟩ v else s.tsuErr 3

/-! ### The flash (R388, R396, R441) -/

/-- The bytes of the SPI buffer. -/
def State.spiBuf (s : State) : List Byte := (List.range 16).flatMap fun j => leBytes 4 (s.reg ⟨.spiData, j, 0⟩).toNat

/-- SV_SPI_CTRL. -/
def State.writeSpiCtrl (s : State) (v : BitVec 64) : State :=
  let len := bits v 16 7
  let go := bit v 30
  if s.sv.spiBusy ∨ 64 < len ∨ (go ∧ (s.sv.reloading ∨ ¬ s.ready ∨ (bit v 24 ∧ bit v 23))) then s.svErr 0
  else
    let s := s.plainWrite ⟨.spiCtrl, 0, 0⟩ v
    if go then
      let addr := (leBytes (bits v 8 2) (s.reg ⟨.spiAddr, 0, 0⟩).toNat).reverse
      ({ s with sv := { s.sv with spiBusy := true } }).emit
        (.spi (bits v 0 8) addr (bits v 12 4) len (bit v 24) (if bit v 23 then s.spiBuf.take len else []))
    else s

/-- SV_SPI_ADDR and SV_SPI_DATA. -/
def State.writeSpiReg (s : State) (r : Reg) (v : BitVec 64) : State := if s.sv.spiBusy then s.svErr 0 else s.plainWrite r v

/-- TSU_SETTINGS. -/
def State.writeSettings (s : State) (v : BitVec 64) : State :=
  let s := s.plainWrite ⟨.tsuSettings, 0, 0⟩ v
  if ¬ bit v 0 then s
  else if s.sv.reloading ∨ s.sv.reloadPending then s.svErr 0
  else if s.sv.spiBusy then { s with sv := { s.sv with reloadPending := true } }
  else { s with sv := { s.sv with reloading := true } }

/-- SPI_DONE: received bytes enter the buffer, and a reload that waited starts. -/
def State.spiDone (s : State) (rx : List Byte) : State :=
  if s.sv.spiBusy then
    let len := s.fld ⟨.spiCtrl, 0, 0⟩ 16 7
    let bs := if bit (s.reg ⟨.spiCtrl, 0, 0⟩) 23 then s.spiBuf else fit len rx ++ s.spiBuf.drop len
    let s := s.each (List.range 16) fun s j => s.setReg ⟨.spiData, j, 0⟩ (BitVec.ofNat 64 (leAt bs (4 * j) 4))
    { s with sv := { s.sv with spiBusy := false, reloading := s.sv.reloading || s.sv.reloadPending, reloadPending := false } }
  else s

def execSpiDone (rx : List Byte) (s : State) : Host.Outcome State Fault Refusal := .next (s.spiDone rx)

/-! ### Service cores (R390 to R393, R418, R442, R443) -/

/-- SV_FW_CTRL[k]. -/
def State.writeFwCtrl (s : State) (k : Nat) (v : BitVec 64) : State :=
  if ¬ bit v 0 then s
  else if (s.core k).st = 1 ∨ (k < 8 ∧ bit (s.reg ⟨.benchRegions, 0, 0⟩) k) then s.svErr 1
  else
    (s.resetCore k 1).updCore k fun c => { c with addr := (s.reg ⟨.fwAddr, k, 0⟩).toNat }

/-- The header of R390 breaks no format rule. -/
def fwFormatOk (h : List Byte) : Bool :=
  let n := leAt h 0x0C 4
  let e := leAt h 0x10 4
  decide (leAt h 0 4 = 0x0A4E5CF0) && decide (leAt h 6 2 = 0) && decide (4 ≤ n) && decide (n ≤ 524288) && decide (n % 4 = 0) &&
  decide (e % 4 = 0) && decide (e < n) && decide (leAt h 0x14 12 = 0) && decide (leAt h 0x80 128 = 0)

/-- Why an image is rejected (R392), or its header and body. -/
def State.fwJudge (s : State) (k : Nat) : Nat ⊕ (List Byte × List Byte) :=
  let a := (s.core k).addr
  match s.readBytes devSpace a 256 with
  | none => .inl 6
  | some h =>
    let ver := leAt h 8 4
    if ¬ fwFormatOk h then .inl 1
    else if leAt h 4 1 ≠ (if k = 8 then 1 else 0) then .inl 2
    else if 2 ≤ leAt h 5 1 ∨ bit (s.reg ⟨.fwPolicy, 0, 0⟩) (leAt h 5 1) then .inl 3
    else match s.readBytes devSpace (a + 256) (leAt h 0x0C 4) with
      | none => .inl 6
      | some body =>
        if ¬ Config.signatureVerifies (leAt h 5 1) (h ++ body) then .inl 4
        else if ver < s.fld ⟨.fwPolicy, 0, 0⟩ 32 32 then .inl 5
        else .inr (h, body)

/-- FIRMWARE_LOADED. -/
def State.fwLoaded (s : State) (k : Nat) : State :=
  if (s.core k).st ≠ 1 then s
  else match s.fwJudge k with
    | .inr (h, body) =>
      ((s.updCore k fun c => { c with st := 2, reason := 0, kickedAt := s.now, mem := h ++ body, entry := leAt h 0x10 4 }).setReg
        ⟨.fwVersion, k, 0⟩ (BitVec.ofNat 64 (leAt h 8 4))).emit (.coreStart k (leAt h 0x10 4))
    | .inl why =>
      ((s.updCore k fun c => { c with st := 3, reason := why, mem := [], entry := 0 }).setReg ⟨.fwVersion, k, 0⟩ 0).report
        { typ := 0x2E, source := sourceUnit 8, body := [k + why * 2 ^ 8] }

def execFirmwareLoaded (k : Nat) (s : State) : Host.Outcome State Fault Refusal := .next (s.fwLoaded k)

/-- SV_WDOG[k]. -/
def State.writeWdog (s : State) (who : Requester) (k : Nat) : State :=
  if who = .core k then s.updCore k fun c => { c with kickedAt := s.now } else s

/-- SV_DRAOFT. -/
def State.writeDraoft (s : State) (who : Requester) (v : BitVec 64) : State :=
  let r : Reg := ⟨.svDraoft, 0, 0⟩
  if who ≠ .host ∨ (bit (s.reg r) 8 ∧ s.fld r 0 2 < bits v 0 2) then s.svErr 3
  else s.setReg r (BitVec.ofNat 64 (bits v 0 2) ||| ((s.reg r ||| v) &&& 0x100))

/-- SV_FW_POLICY. -/
def State.writeFwPolicy (s : State) (v : BitVec 64) : State :=
  let r : Reg := ⟨.fwPolicy, 0, 0⟩
  if bits v 32 32 < s.fld r 32 32 then s.svErr 1 else (s.plainWrite r v).orReg r (v &&& 3)

def uartOk (v : Nat) : Bool := decide (1152 ≤ v) && decide (v ≤ 30000)

/-- SV_UART_CFG. -/
def State.writeUart (s : State) (v : BitVec 64) : State := if uartOk (bits v 0 15) then s.plainWrite ⟨.uartCfg, 0, 0⟩ v else s.svErr 2

end Sys2Proof.Machine
end

