-- ==== Sys2Proof/Machine/Time.lean ====
section
/-! DEFINITION. The deadline tick, the Beat, timed release, the deadline monitor, regulators, slow-down reports and weights
residency (R253 to R256, R266, R267, R273 to R287, R315, R367, R368, R437, R438, R454). -/
namespace Sys2Proof.Machine

/-! ### Lead slots and slices (R253) -/

/-- Slot `n` has work: a node of its commands is READY or PARKED, in a hand or backlog, or on an engine. -/
def State.slotWorks (s : State) (n : Nat) : Bool :=
  (s.gs.nodes.any fun x => (match x.2.cmd with | some q => decide (q.1 = n) | none => false) &&
    (match x.2.st with
     | .ready | .parked => true
     | .active => decide (s.enginesOf x.1 ≠ []) || (s.dl.dealers.any fun d => d.2.hands.any fun h => decide (h.key = x.1)) ||
                  s.dl.backlog.any fun b => decide (x.1 ∈ b.2)
     | _ => false))

/-- The rotation of a class: the pod's enabled slots of that PRIO, ascending. -/
def State.rotation (s : State) (p k : Nat) : List Nat := (s.podSlotsOn p).filter fun n => decide (s.slotPrio n = k)

/-- The first slot after `lead` in the rotation, wrapping, that has work; `lead` itself last. -/
def State.nextLead (s : State) (p k lead : Nat) : Nat :=
  let rot := s.rotation p k
  (((rot.filter fun n => decide (lead < n)) ++ rot.filter fun n => decide (n ≤ lead)).find? s.slotWorks).getD lead

/-- One class of one pod at a deadline tick; answers whether a slice edge fell. -/
def State.leadTick (s : State) (p k : Nat) : State × Bool :=
  let lead := tget 0 (s.pod p).lead k
  let ran := tget 0 (s.pod p).elapsed k
  let spent := decide (s.fld ⟨.podSlice, p, 0⟩ 0 17 ≤ ran)
  if ¬ (decide (lead ∈ s.rotation p k) && s.slotWorks lead) ∨ spent then
    let next := s.nextLead p k lead
    (s.updPod p fun x => { x with lead := tput 0 x.lead k next, elapsed := tput 0 x.elapsed k 0 }, decide (next ≠ lead) || spent)
  else (s.updPod p fun x => { x with elapsed := tput 0 x.elapsed k (ran + 1) }, false)

/-! ### Victims (R256) -/

/-- The trump entries of pod `p` with their regions, in hand order. -/
def State.trumpEntries (s : State) (p : Nat) : List (Nat × HandEnt) :=
  let rs := (List.range 8).filter fun r => (List.range 48).any fun t => s.ownsTile p (48 * r + t)
  let es := rs.flatMap fun r => ((s.dealer r).hands.filter fun h => decide (h.pod = p) && decide (s.entPrio h = 3)).map fun h => (r, h)
  let all := es.map Prod.snd
  sortBy (fun a b => !s.before all b.2 a.2) es

/-- The candidate of lowest PRIO, then latest start, then lowest engine ID, among the entry's eligible engines of every region. -/
def State.victimFor (s : State) (p : Nat) (h : HandEnt) : Option Nat :=
  let prio (e : Nat) : Nat := ((s.eng e).job.map fun l => s.slotPrio l.slot).getD 3
  let ok (e : Nat) : Bool :=
    s.suspendable e && decide (prio e < 3) &&
    (match (s.eng e).job with
     | some l => decide (l.pod = p) && (s.freeSuspRec l.ctx).isSome && !s.donated l.ctx
     | none => false)
  let cands := (s.eligibleOf h.key).filter ok
  let low := (cands.map prio).foldl min 3
  let cands := cands.filter fun e => decide (prio e = low)
  let last := (cands.map fun e => (s.eng e).startAt).foldl max 0
  cands.find? fun e => decide ((s.eng e).startAt = last)

/-- Victims of one slice edge of pod `p`; `n` are left to choose. -/
def State.chooseVictims (s : State) (p : Nat) : List (Nat × HandEnt) → Nat → State
  | [], _ => s
  | _, 0 => s
  | (_, h) :: es, n + 1 =>
    if (s.eligibleOf h.key).any s.freeEngine then s.chooseVictims p es (n + 1)
    else match s.victimFor p h with
      | none => s.chooseVictims p es (n + 1)
      | some e =>
        match (s.eng e).job.bind fun l => s.freeSuspRec l.ctx with
        | none => s.chooseVictims p es (n + 1)
        | some a => (s.orderSuspend e a (some h.key)).chooseVictims p es n

/-- A slice edge of pod `p`. No task is suspended at one in LOCKSTEP (R255). -/
def State.sliceEdge (s : State) (p : Nat) : State :=
  if bit (s.reg ⟨.podPreempt, p, 0⟩) 0 ∧ ¬ s.lockstep ∧ s.runs 2 then s.chooseVictims p (s.trumpEntries p) 64 else s

/-- The lead slots of one pod, classes 3 to 0. -/
def State.podTick (s : State) (p : Nat) : State :=
  s.each [3, 2, 1, 0] fun s k =>
    let t := s.leadTick p k
    if t.2 then t.1.sliceEdge p else t.1

/-! ### Regulators (R283, R287, R412) -/

def State.updSlow (s : State) (p : Nat) (f : SlowCount → SlowCount) : State :=
  { s with dl := { s.dl with slow := tput {} s.dl.slow p (f (tget {} s.dl.slow p)) } }

/-- A request leaves the region ordering point: it takes its granules and is counted for its context (R283, R400). -/
def State.passMem (s : State) (q : MemReq) : State :=
  let p := s.podOf q.ctx
  let b := p * 8 + engRegion q.e
  let s := if s.memRate p = 0 then s
    else { s with dl := { s.dl with memBucket := tput 0 s.dl.memBucket b (tget 0 s.dl.memBucket b - (q.granules : Int)) } }
  let s := (s.bump (ctxCnt q.ctx 10) (64 * q.granules)).updSlow p fun c => { c with memBytes := c.memBytes + 64 * q.granules }
  let s := (s.emit (.memPass q.e q.addr q.granules)).noteHost (ctxSpace q.ctx) q.addr
  if q.data = [] then s else (s.writeBytes (ctxSpace q.ctx) q.addr q.data).getD s

/-- The bucket of a region lets a request of pod `p` pass. -/
def State.memOpen (s : State) (p r : Nat) : Bool := decide (s.memRate p = 0) || decide (0 < tget 0 s.dl.memBucket (p * 8 + r))

/-- Waiting requests are released in arrival order. -/
def State.releaseMem (s : State) (p r : Nat) : Nat → State
  | 0 => s
  | n + 1 =>
    match tget [] s.dl.memWait (p * 8 + r) with
    | [] => s
    | q :: t =>
      if s.memOpen p r then
        (({ s with dl := { s.dl with memWait := tput [] s.dl.memWait (p * 8 + r) t } }).passMem q).releaseMem p r n
      else s

/-- The refill of one region's bucket of pod `p`, which has `n` tiles in service. Requests pass, and releases that waited for their
writes leave the ports (R219). -/
def State.refillMem (s : State) (p n r : Nat) : State :=
  let k := s.tilesIn p r
  let b := p * 8 + r
  let v : Int := min (tget 0 s.dl.memBucket b + (s.memRate p * k / n : Nat)) (s.memBurst p * k / n : Nat)
  let s := if k = 0 then s else { s with dl := { s.dl with memBucket := tput 0 s.dl.memBucket b v } }
  (s.releaseMem p r (tget [] s.dl.memWait b).length).portGo

/-- The refills of pod `p` at a deadline tick. -/
def State.refill (s : State) (p : Nat) : State :=
  let n := ((List.range 8).map (s.tilesIn p)).sum
  let s := s.each (List.range 8) fun s r => s.refillMem p n r
  let v : Int := min (tget 0 s.dl.linkBucket p + (s.linkRate p : Int)) (s.linkBurst p : Int)
  if s.linkRate p = 0 then s else { s with dl := { s.dl with linkBucket := tput 0 s.dl.linkBucket p v } }

/-- µs in which a regulator of pod `p` held a request (R286). -/
def State.countHeld (s : State) (p : Nat) : State :=
  let mem := (List.range 8).any fun r => decide (tget [] s.dl.memWait (p * 8 + r) ≠ [])
  let link := s.linkHeld p && (s.li.unanswered.any (fun u => u.queued && decide (u.pod = p)) || s.li.retWait.any fun (q : Nat × Parcel) => decide (s.podOf q.2.ctx = p))
  if mem ∨ link then s.updSlow p fun c => { c with heldMem := c.heldMem + mem.toNat, heldLink := c.heldLink + link.toNat } else s

/-- DEVICE_MEMORY_REQUEST (R283): a request of the task that engine `e` runs passes, or waits behind those that wait already. -/
def State.memRequest (s : State) (e addr granules : Nat) (data : List Byte) : State :=
  match (s.eng e).job with
  | none => s
  | some l =>
    let p := s.podOf l.ctx
    let r := engRegion e
    let q : MemReq := { e := e, ctx := l.ctx, addr := addr, granules := granules, data := data }
    if isLE e ∨ granules = 0 ∨ 64 < granules ∨ 64 * granules < data.length ∨ s.ob.stop = .snapped then s
    else if s.memOpen p r ∧ tget [] s.dl.memWait (p * 8 + r) = [] then s.passMem q
    else { s with dl := { s.dl with memWait := tput [] s.dl.memWait (p * 8 + r) (tget [] s.dl.memWait (p * 8 + r) ++ [q]) } }

def execDeviceMemoryRequest (e addr granules : Nat) (data : List Byte) (s : State) : Host.Outcome State Fault Refusal :=
  .next (s.memRequest e addr granules data)

/-! ### The deadline tick (R253, R274, R326, R416) -/

/-- Command ages: one tick for each open command whose context is RESIDENT (R193). -/
def State.ageCmds (s : State) : State :=
  { s with fe := { s.fe with cmds := s.fe.cmds.map fun e => if (s.ctx e.2.ctx).st = .resident then (e.1, { e.2 with age := e.2.age + 1 }) else e } }

/-- Which contexts are blocked, and since when; a pod may raise ALL_BLOCKED again once some context of it has stopped being
blocked (R271). -/
def State.trackBlocked (s : State) : State :=
  let was := (s.gs.ctxs.filter fun x => x.2.blockedSince.isSome).map Prod.fst
  let moved := was.filter fun c => !s.blocked c
  let s := s.each (tkeys s.gs.ctxs) fun s c =>
    s.updCtx c fun x => { x with blockedSince := if s.blocked c then some (x.blockedSince.getD s.now) else none }
  s.each (List.range 16) fun s p =>
    s.updPod p fun x =>
      { x with allSince := if s.allBlockedNow p then some (x.allSince.getD s.now) else none
               allRaised := x.allRaised && !(moved.any fun c => decide (s.podOf c = p)) }

/-- Timers that stop with a stop: what they count from moves on (R416). -/
def State.holdTimers (s : State) : State :=
  { s with
    sy := { s.sy with donations := s.sy.donations.map fun (d : Donation) => { d with since := d.since + 1 } }
    gs := { s.gs with ctxs := s.gs.ctxs.map fun (x : Nat × Ctx) => (x.1, { x.2 with blockedSince := x.2.blockedSince.map (· + 1) }) }
    dl := { s.dl with pods := s.dl.pods.map fun (x : Nat × Pod) => (x.1, { x.2 with allSince := x.2.allSince.map (· + 1) }) } }

/-- GS_CTX_DONATED counts each context under donation (R268). -/
def State.countDonated (s : State) : State :=
  s.each ((s.sy.donations.map Donation.holder).foldl (fun a c => insertNat c a) []) fun s c => s.bump (ctxCnt c 5) 1

/-- The watchdog of R359 does not count while SV is 0 under KL-400 compatibility (R382). -/
def State.holdCores (s : State) : State :=
  if bit (s.reg ⟨.tsuClken, 0, 0⟩) 31 ∧ ¬ bit (s.reg ⟨.tsuClken, 0, 0⟩) 8 then
    { s with sv := { s.sv with cores := s.sv.cores.map fun c => (c.1, { c.2 with kickedAt := c.2.kickedAt + (if c.2.st = 2 then 1 else 0) }) } }
  else s

/-- The µs and TB_TICK advance. -/
def State.tickClock (s : State) : State :=
  let t := s.holdCores
  ({ t with now := t.now + 1 }).setReg ⟨.tbTick, 0, 0⟩ (BitVec.ofNat 64 ((s.beatTick + 1) % 2 ^ 20))

/-- The observation regulator's bucket is refilled while SNAPPED too, when the readout writes under it (R412). -/
def State.refillObs (s : State) : State := { s with dl := { s.dl with obsBucket := min (s.dl.obsBucket + 9000) 9000 } }

/-- The readout logic writes on at 64 bytes per reference cycle, of which a deadline tick has 100, as the regulator lets it (R412, R417). -/
def State.dumpStep (s : State) : State :=
  let n := min (min 100 ((s.ob.dumpBody.length + 63) / 64)) s.dl.obsBucket.toNat
  if n = 0 then s
  else
    let t := (s.writeBytes devSpace s.ob.dumpNext (s.ob.dumpBody.take (64 * n))).getD s
    ({ t with ob := { t.ob with dumpNext := t.ob.dumpNext + 64 * n, dumpBody := t.ob.dumpBody.drop (64 * n) } }.bump (gcnt 14) n).payObs n

/-- The observation regulator is refilled, and what it held goes on. -/
def State.observeTick (s : State) : State :=
  let s := s.refillObs
  (if s.hubOn then s.latchDrain s.ob.latchWait else s).dumpStep

/-- TSU_MODE.BUSY: an Align, of at most 5 reference cycles, has ended (R322). -/
def State.alignEnd (s : State) : State := s.setFld ⟨.tsuMode, 0, 0⟩ 8 1 0

/-- What takes less than a µs ends with the next hub cycle or tick: an Align, and the commits in progress (log entry 60). -/
def State.settleShort (s : State) : State :=
  let s := s.alignEnd
  if s.hubOn then s.endCommits else s

/-- Everything that happens at a deadline tick, or at a lockstep tick in its place. -/
def State.tickCore (s : State) : State :=
  let s := s.settleShort.tickClock
  let s := if s.timersOn then
      (s.ageCmds.trackBlocked.countDonated).each ((List.range 16).filter s.podOn) State.podTick
    else s.holdTimers
  let s := s.observeTick
  if s.ob.stop = .snapped then s
  else s.each (List.range 16) fun s p => (s.refill p).countHeld p

/-- A dip's µs, counted on the reference clock, which no dip stops (R363, R364). -/
def State.supplyTick (s : State) : State :=
  let up (x : Supply) : Supply := if x.dipped then { x with us := x.us + 1, clearFor := x.clearFor.map (· + 1) } else x
  { s with fc := { s.fc with supply := s.fc.supply.map fun x => (x.1, up x.2) } }

/-- DEADLINE_TICK: a chip reset written under R373 takes effect, and the device leaves the link. In LOCKSTEP the lockstep tick
replaces the deadline tick, and only a dip's µs are counted; but the counters keep running while SNAPPED (R415). -/
def State.deadlineTick (s : State) : State :=
  if s.st.resetDue then s.chipReset.emit .linkLost
  else
    let s := s.supplyTick
    if (s.lockstep ∧ s.ob.stop ≠ .snapped) ∨ s.gated 5 then s else s.tickCore

def execDeadlineTick (s : State) : Host.Outcome State Fault Refusal := .next s.deadlineTick

/-! ### Timed release (R277, R278, R438) -/

def relValid (w : List (BitVec 32)) : Bool := bit (wordAt w 0) 31
def relSlot (w : List (BitVec 32)) : Nat := bits (wordAt w 0) 0 8
def relMax (w : List (BitVec 32)) : Nat := bits (wordAt w 0) 16 4
def relFlags (w : List (BitVec 32)) : Nat := bits (wordAt w 0) 24 3
def relBase (w : List (BitVec 32)) : Nat := bits (wordAt w 1) 0 20
def relCount (w : List (BitVec 32)) : Nat := bits (wordAt w 2) 0 16
def relPeriod (w : List (BitVec 32)) : Nat := bits (wordAt w 3) 0 16
def relPhase (w : List (BitVec 32)) : Nat := bits (wordAt w 3) 16 16
def relUser (w : List (BitVec 32)) : Nat := (wordAt w 4).toNat + (wordAt w 5).toNat * 2 ^ 32

/-- Reserved bits and DFLAGS [24] are zero. -/
def relClean (w : List (BitVec 32)) : Bool :=
  decide (bits (wordAt w 0) 27 4 = 0) && !bit (wordAt w 0) 24 && decide (bits (wordAt w 0) 20 4 = 0) && decide (bits (wordAt w 0) 8 8 = 0) &&
  decide (bits (wordAt w 1) 20 12 = 0) && decide (bits (wordAt w 2) 16 16 = 0)

/-- A commit is accepted, of an entry VALID or not (R277, R438). -/
def State.relOk (s : State) (w : List (BitVec 32)) : Bool :=
  let c := s.slotCtx (relSlot w)
  relClean w && decide (1 ≤ relPeriod w) && decide (relPhase w < relPeriod w) && decide (1 ≤ relMax w) && decide (1 ≤ relCount w) &&
  (List.range (relCount w)).all fun j => decide ((s.node (nk c (relBase w + j))).st = .template)

/-- A write of TB_REL_SEL. -/
def State.writeRelSel (s : State) (v : BitVec 64) : State :=
  let old := s.fld ⟨.tbRelSel, 0, 0⟩ 0 8
  let i := bits v 0 8
  let s := s.plainWrite ⟨.tbRelSel, 0, 0⟩ v
  if bit v 16 then
    let w := s.staged .tbRelData 0 6 false
    if s.relOk w then { s with tb := { s.tb with rel := tput [] s.tb.rel i (normWords w) } }
    else s.orReg ⟨.tbErr, 0, 0⟩ 1
  else if old = i then s
  else s.loadStaging .tbRelData 0 6 false (tget [] s.tb.rel i)

/-- Why a release is skipped: 0 slot, 1 MAX_OPEN, 2 pool. -/
def State.relSkip (s : State) (i why : Nat) (w : List (BitVec 32)) : State :=
  (s.bump ⟨.tbRelSkips, i, 0⟩ 1).report
    { typ := 0x62, source := sourceUnit 5, pod := some (s.slotPod (relSlot w)), body := [i + why * 2 ^ 8] }

/-- Open commands of a release entry. -/
def State.relOpen (s : State) (i : Nat) : Nat := (s.fe.cmds.filter fun e => decide (e.2.relEntry = some i)).length

/-- One matching entry releases. -/
def State.relEntry (s : State) (i : Nat) (w : List (BitVec 32)) : State :=
  let n := relSlot w
  let x := s.slot n
  let c := s.slotCtx n
  if ¬ s.timersOn ∨ (x.st ≠ .idle ∧ x.st ≠ .fetching) ∨ 1024 ≤ (s.openCmds n).length then s.relSkip i 0 w
  else if relMax w ≤ s.relOpen i then s.relSkip i 1 w
  else
    let seq := x.nextSeq.toNat
    match s.instantiate c (relBase w) (relCount w) { cmd := some (n, seq), owner := .cmd n seq } id with
    | .ok t =>
      ((t.updSlot n fun x => { x with nextSeq := x.nextSeq + 1 }).setCmd n seq
        { ctx := c, user := relUser w, opcode := Config.releasedOpcode.toNat, dflags := relFlags w, applied := true,
          release := some (s.beat, s.now), relEntry := some i }).settle
    | _ => s.relSkip i 2 w

/-- The releases of a Beat tick, in ascending entry index. -/
def State.releases (s : State) : State :=
  s.each s.tb.rel fun s e =>
    if relValid e.2 ∧ s.beat % relPeriod e.2 = relPhase e.2 then s.relEntry e.1 e.2 else s

/-! ### The Beat (R273 to R276, R367) -/

/-- BEAT_LOST and BEAT_LOCKED carry the source. -/
def State.beatPacket (s : State) (t : Nat) : State := s.report { typ := t, source := sourceUnit 5, body := [s.beatSource] }

/-- An accepted tick counts towards lock. -/
def State.tickAccepted (s : State) : State :=
  let n := s.tb.accepted + 1
  let s := { s with tb := { s.tb with accepted := n, flywheels := 0 } }
  if n = 4 then
    let s := s.setFld ⟨.tbStatus, 0, 0⟩ 0 1 1
    if s.tb.lost then ({ s with tb := { s.tb with lost := false } }).beatPacket 0x61 else s
  else s

/-- A flywheel tick: eight in a row lose lock. -/
def State.tickMissed (s : State) : State :=
  let n := s.tb.flywheels + 1
  let s := { s with tb := { s.tb with accepted := 0, flywheels := n } }
  let s := s.setFld ⟨.tbStatus, 0, 0⟩ 48 16 (s.fld ⟨.tbStatus, 0, 0⟩ 48 16 + 1)
  if n = 8 then ({ s with tb := { s.tb with lost := true } }).setFld ⟨.tbStatus, 0, 0⟩ 0 1 0 |>.beatPacket 0x60 else s

/-- Lock starts afresh. -/
def State.lockAfresh (s : State) : State :=
  ({ s with tb := { s.tb with accepted := 0, flywheels := 0 } }).setFld ⟨.tbStatus, 0, 0⟩ 0 1 0

/-- A beat master sends its new TB_BEAT on every UP port of TB_BEAT_PORTS (R275). -/
def State.sendBeats (s : State) : State :=
  if s.beatSource = 2 then s else
  let p : Parcel := { hops := 0, src := s.chipId, incarn := s.fld ⟨.liIncarn, 0, 0⟩ 0 16, body := .beat s.beat }
  s.each ((List.range 64).filter fun k => bit (s.reg ⟨.tbBeatPorts, 0, 0⟩) k && s.portUp k) fun s k =>
    s.updPort k fun x => { x with ctl := x.ctl ++ [p] }

/-- The receiver follows INVERTED and AUTO_INVERT while SOURCE is PIN: when it is inverted, lock restarts and BEAT_PIN_INVERTED is
written (R367). -/
def State.adjustPin (s : State) : State :=
  let want := bit (s.reg ⟨.tbStatus, 0, 0⟩) 2 && bit (s.reg ⟨.tbBeatCfg, 0, 0⟩) 4
  if s.beatSource ≠ 1 ∨ s.tb.rxInverted = want then s
  else
    let s := { s with tb := { s.tb with rxInverted := want } }
    if want then s.lockAfresh.report { typ := 0x67, source := sourceUnit 5, body := [] } else s

/-- A Beat tick: TB_BEAT becomes `v`, TB_TICK restarts, the pin pulses, settings that waited come into force, and the matching
entries release. -/
def State.beatNow (s : State) (v : Nat) (accepted : Bool) : State :=
  let t0 := s.beatTick
  let fresh := decide (s.tb.inForce ≠ none)
  let s := (s.setReg ⟨.tbBeat, 0, 0⟩ (BitVec.ofNat 64 (v % 2 ^ 48))).setReg ⟨.tbTick, 0, 0⟩ 0
  let s := (s.emit .beatPulse).traceUnit 3 { typ := 0x0B, source := 13, arg := t0, tag := v % 2 ^ 48 }
  let s := if accepted then s.tickAccepted else s.tickMissed
  let s := s.sendBeats
  let s := if fresh then ({ s with tb := { s.tb with inForce := none } }).lockAfresh.adjustPin else s
  s.releases

/-- BEAT_TICK: the INTERNAL tick, when TB_TICK reaches PERIOD. No Beat tick falls before READY (R394, R396). -/
def State.internalTick (s : State) : State :=
  if s.beatSource = 0 ∧ s.beatPeriod ≤ s.beatTick ∧ ¬ s.gated 5 ∧ s.ready then s.beatNow (s.beat + 1) true else s

def execBeatTick (s : State) : Host.Outcome State Fault Refusal := .next s.internalTick

/-- BEAT_PIN_NOISY, at most one a second (R367). -/
def State.noisy (s : State) : State :=
  let t := s.glitch
  if match s.tb.noisyAt with | some x => decide (x + 1000000 ≤ s.now) | none => true then
    ({ t with tb := { t.tb with noisyAt := some s.now } }).report
      { typ := 0x68, source := sourceUnit 5, body := [t.fld ⟨.tbStatus, 0, 0⟩ 32 16] }
  else t

/-- A rising edge of TSU_BEAT_IN: early, accepted, or too late for the window, when the flywheel has its tick. -/
def State.pinEdge (s : State) : State :=
  if s.beatSource ≠ 1 ∨ s.gated 5 ∨ ¬ s.ready then s
  else if s.beatTick + s.beatWindow < s.beatPeriod then s.noisy
  else if s.beatTick ≤ s.beatPeriod + s.beatWindow then s.beatNow (s.beat + 1) true
  else s

/-- BEAT_PIN_EDGE. In LOCKSTEP an edge is an external input (R328). -/
def State.beatPinEdge (s : State) : State := if s.lockstep then s.holdInput .beatPin else s.pinEdge

def execBeatPinEdge (s : State) : Host.Outcome State Fault Refusal := .next (s.reach 5 .beatPinEdge State.beatPinEdge)

/-- BEAT_FLYWHEEL: nothing was accepted by TB_TICK = PERIOD + W. -/
def State.beatFlywheel (s : State) : State :=
  if s.beatSource ≠ 0 ∧ s.beatPeriod + s.beatWindow ≤ s.beatTick ∧ s.tb.remote.isNone ∧ ¬ s.gated 5 ∧ s.ready then
    s.beatNow (s.beat + 1) false
  else s

def execBeatFlywheel (s : State) : Host.Outcome State Fault Refusal := .next s.beatFlywheel

/-- BEAT_REMOTE_APPLY: the accepted parcel's value is applied REMOTE_DELAY reference cycles, of which a deadline tick has 100, after
its arrival (R274, R275). -/
def State.remoteApply (s : State) : State :=
  match s.tb.remote with
  | none => s
  | some v => if s.gated 5 ∨ s.now < s.tb.remoteAt + s.fld ⟨.tbBeatCfg, 0, 0⟩ 32 16 / 100 then s else ({ s with tb := { s.tb with remote := none } }).beatNow v true

def execBeatRemoteApply (s : State) : Host.Outcome State Fault Refusal := .next s.remoteApply

/-- BEAT_PIN_INVERTED (R367): the receiver has seen the pulses reversed for 4 periods, so the pair reads reversed, or straight again
where the receiver is inverted. -/
def State.pinInverted (s : State) : State := (s.setFld ⟨.tbStatus, 0, 0⟩ 2 1 (!s.tb.rxInverted).toNat).adjustPin

def execBeatPinInverted (s : State) : Host.Outcome State Fault Refusal := .next s.pinInverted

def execBeatInFailsafe (s : State) : Host.Outcome State Fault Refusal := .next (s.setFld ⟨.tbStatus, 0, 0⟩ 1 1 1)
def execBeatInFailsafeClear (s : State) : Host.Outcome State Fault Refusal := .next (s.setFld ⟨.tbStatus, 0, 0⟩ 1 1 0)

/-- BEAT_OUT_SHORT (R368): reported once while the short lasts. -/
def State.beatOutShort (s : State) : State :=
  let r : Reg := ⟨.tbStatus, 0, 0⟩
  if bit (s.reg r) 3 then s
  else (s.setFld r 3 1 1).report { typ := 0x2C, source := sourceUnit 5, body := [0] }

def execBeatOutShort (s : State) : Host.Outcome State Fault Refusal := .next s.beatOutShort
def execBeatOutShortEnd (s : State) : Host.Outcome State Fault Refusal := .next (s.setFld ⟨.tbStatus, 0, 0⟩ 3 1 0)

/-- A write of TB_BEAT_CFG (R273, R437): a new SOURCE or PERIOD waits for the next Beat tick of the present source. -/
def State.writeBeatCfg (s : State) (v : BitVec 64) : State :=
  if bits v 0 2 = 3 ∨ bits v 12 20 = 0 ∨ 1000000 < bits v 12 20 then s.orReg ⟨.tbErr, 0, 0⟩ 2
  else
    let cur := s.beatCfg
    let s := s.plainWrite ⟨.tbBeatCfg, 0, 0⟩ v
    let s := if bits v 0 2 = bits cur 0 2 ∧ bits v 12 20 = bits cur 12 20 then { s with tb := { s.tb with inForce := none } }
      else { s with tb := { s.tb with inForce := some cur } }
    s.adjustPin

/-! ### The deadline monitor (R280, R281) -/

/-- p(n) of a node, in units of 1/1,350 µs. -/
def State.workDone (s : State) (k : Nat) : Nat :=
  let n := s.node k
  if n.st = .active then min (n.d.expect.toNat * 64) ((s.now - n.startedAt) * 1350) else 0

/-- r: the longest expected remaining path through the primary range. -/
def State.remaining (s : State) (k : Nat) : Nat :=
  ((s.node k).tails.map fun t =>
    match (s.node t.1).st with
    | .done | .folded | .free => 0
    | _ => t.2 % 2 ^ 32 * 64 - s.workDone t.1).foldl max 0

/-- One evaluation of an armed gate. -/
def State.evaluate (s : State) (k : Nat) : State :=
  let n := s.node k
  let e := s.gateAge k
  let r := s.remaining k
  let lim : Int := (n.d.deadline : Int) - n.d.margin
  let late := decide ((e * 1350 + r : Nat) > lim * 1350)
  let s := s.updNode k fun n => { n with evaluatedAt := s.now }
  let packet (t : Nat) : Packet :=
    { typ := t, source := sourceUnit 5, ctx := some (nkCtx k), body := [s.nodeArg k, e, r, (lim % 2 ^ 64).toNat] }
  if ¬ late ∨ n.predicted then s
  else if s.det = 0 then
    (((s.report (packet 0x64)).bump ⟨.tbFallbacks, 0, 0⟩ 1).fallbackTaken k).settle
  else (s.report (packet 0x65)).updNode k fun n => { n with predicted := true }

/-- MONITOR_EVALUATE: a gate is evaluated at most once in a deadline tick, and first at the tick after it was armed. -/
def State.monitor (s : State) (k : Nat) : State :=
  let n := s.node k
  if n.gst = .armed ∧ n.left ≠ [] ∧ ¬ n.unmon ∧ n.evaluatedAt < s.now ∧ (s.ctx (nkCtx k)).st = .resident ∧ s.runs 5 then s.evaluate k else s

def execMonitorEvaluate (c i : Nat) (s : State) : Host.Outcome State Fault Refusal := .next (s.monitor (nk c i))

/-! ### Slow-down reports (R286) -/

/-- SLOWDOWN. -/
def SlowCount.ratio (c : SlowCount) : Nat := if c.b + c.o = 0 then 0x100 else min 0xFFFF (256 * (c.b + c.o + c.x) / (c.b + c.o))

/-- A pod's 64-byte record. -/
def State.slowRecord (s : State) (p : Nat) : List Byte :=
  let c : SlowCount := tget {} s.dl.slow p
  leBytes 2 c.ratio ++ leBytes 2 (s.podOn p).toNat ++ leBytes 2 c.heldMem ++ leBytes 2 c.heldLink ++ leBytes 8 c.b ++ leBytes 8 c.o ++
  leBytes 8 c.x ++ leBytes 8 c.memBytes ++ leBytes 8 c.linkBytes ++ zeros 16

def State.slowBlock (s : State) (seq : Nat) : List Byte :=
  leBytes 8 seq ++ leBytes 8 s.beat ++ zeros 48 ++ (List.range 16).flatMap s.slowRecord ++ leBytes 8 seq ++ zeros 56

/-- SLOWDOWN_REPORT: at the end of every 1,000 ticks. A block that cannot be written is a failure of the hub's own (R361). -/
def State.slowReport (s : State) : State :=
  if s.dl.slowAt + 1000 ≤ s.now ∧ s.hubOn then
    let a := (s.reg ⟨.slowdownAddr, 0, 0⟩).toNat
    let seq := s.dl.slowSeq + 1
    let t := if a = 0 then s else match s.writeBytes devSpace a (s.slowBlock seq) with
      | some t => t
      | none => s.enterFatal 0
    { t with dl := { t.dl with slow := [], slowSeq := if a = 0 then s.dl.slowSeq else seq, slowAt := s.dl.slowAt + 1000 } }
  else s

def execSlowdownReport (s : State) : Host.Outcome State Fault Refusal := .next s.slowReport

/-! ### Weights residency (R266, R267, R454) -/

/-- A context bound to residency entry `i` has a node on an engine, or in a hand, backlog or offer. -/
def State.resBusy (s : State) (i : Nat) : Bool :=
  (List.range 512).any fun c =>
    let v := s.reg ⟨.ctxRes, c, 0⟩
    let mine (k : Nat) : Bool := decide (nkCtx k = c) && decide ((s.node k).st = .ready)
    ((List.range 4).any fun j => bit v (16 * j + 12) && decide (bits v (16 * j) 12 = i)) &&
    (decide (s.ctxEngines c ≠ []) || (s.dl.dealers.any fun d => d.2.hands.any fun h => mine h.key) || (s.dl.leHand.any fun h => mine h.key) ||
     (s.dl.backlog.any fun b => b.2.any mine) || (s.dl.offers.any fun o => mine o.key && !o.closed) || s.dl.offerWait.any mine)

def State.resErr (s : State) (b : Nat) : State := s.orReg ⟨.resErr, 0, 0⟩ (BitVec.ofNat 64 (2 ^ b))

/-- The staged words as an entry. -/
def resOf (w : List (BitVec 32)) : ResEnt :=
  { st := bits (wordAt w 0) 0 3, target := bits (wordAt w 0) 4 3, fpod := bits (wordAt w 0) 8 4, flag := bits (wordAt w 1) 0 18,
    size := (wordAt w 2).toNat + (wordAt w 3).toNat * 2 ^ 32 }

def ResEnt.words (e : ResEnt) : List (BitVec 32) :=
  [BitVec.ofNat 32 (e.st + e.target * 16 + e.fpod * 256), BitVec.ofNat 32 e.flag, BitVec.ofNat 32 (e.size % 2 ^ 32), BitVec.ofNat 32 (e.size / 2 ^ 32)]

/-- A commit into entry `i`. LOADING is taken from ABSENT, or to write a LOADING entry anew (R266). -/
def State.commitRes (s : State) (i : Nat) : State :=
  let e := resOf (s.staged .resData 0 4 false)
  let old : ResEnt := tget {} s.rs.resid i
  if e.target ≠ 2 ∧ e.target ≠ 3 ∨ 4 < e.st ∨ ¬ s.inPodRange e.fpod 0 e.flag ∨ (e.st = 1 ∧ 1 < old.st) then s.resErr 1
  else if e.st < 2 ∧ s.resBusy i then s.resErr 0
  else (({ s with rs := { s.rs with resid := tput {} s.rs.resid i e } }).loadDone).unpark

/-- A write of RS_RES_SEL. -/
def State.writeResSel (s : State) (v : BitVec 64) : State :=
  let old := s.fld ⟨.resSel, 0, 0⟩ 0 12
  let i := bits v 0 12
  let s := s.plainWrite ⟨.resSel, 0, 0⟩ v
  if bit v 16 then s.commitRes i
  else if old = i then s
  else s.loadStaging .resData 0 4 false (tget {} s.rs.resid i : ResEnt).words

/-- A write of RS_CTX_RES[c] (R267). -/
def State.writeCtxRes (s : State) (c : Nat) (v : BitVec 64) : State := (s.plainWrite ⟨.ctxRes, c, 0⟩ v).unpark

end Sys2Proof.Machine
end

