-- ==== Sys2Proof/Machine/RegWrite.lean ====
section
/-! DEFINITION. What a write of each register does, by its name (R8, R9, R132, R145, R146, R160, R200, R202, R298, R305, R311, R414,
R423 to R461). -/
namespace Sys2Proof.Machine

/-! ### Queue slots (R160, R434 to R436) -/

/-- A field that may be written only while the slot is DISABLED. -/
def State.writeFixed (s : State) (r : Reg) (v : BitVec 64) : State :=
  if v &&& r.row.rw = s.reg r then s
  else if (s.slot r.i).st = .disabled then s.plainWrite r v
  else s.slotConfigErr r.i

/-- FE_SLOT_CPL[n]. -/
def State.writeCpl (s : State) (n : Nat) (v : BitVec 64) : State :=
  let k := bits v 0 5
  let s := if (s.slot n).st = .disabled then s else s.updSlot n fun x => { x with cplReset := true }
  if k < 6 ∨ 16 < k then s.slotConfigErr n else s.writeFixed ⟨.slotCpl, n, 0⟩ v

/-- FE_SLOT_CPL_RD[n]. -/
def State.writeCplRd (s : State) (n : Nat) (v : BitVec 64) : State :=
  let d := ((s.reg ⟨.slotCplWr, n, 0⟩).toNat + 2 ^ 32 - bits v 0 32) % 2 ^ 32
  if 2 ^ s.fld ⟨.slotCpl, n, 0⟩ 0 5 < d then s.orReg ⟨.slotErr, n, 0⟩ 4
  else
    let s := if (s.slot n).st = .disabled then s else s.updSlot n fun x => { x with cplReset := true }
    s.plainWrite ⟨.slotCplRd, n, 0⟩ v

/-- FE_SLOT_WDEV[n]. -/
def State.writeWdev (s : State) (n : Nat) (v : BitVec 64) : State :=
  if (s.slot n).st = .disabled then s.updSlot n fun x => { x with wdev := v.setWidth 32 } else s.slotConfigErr n

/-- FE_SLOT_NEXT_SEQ[n]. -/
def State.writeNextSeq (s : State) (n : Nat) (v : BitVec 64) : State :=
  if (s.slot n).st = .disabled ∧ v ≠ 0 then s.updSlot n fun x => { x with nextSeq := v } else s.slotConfigErr n

/-- FE_SLOT_IRQ[n]. -/
def State.writeIrq (s : State) (n : Nat) (v : BitVec 64) : State :=
  if bits v 0 8 = 0 then s.slotConfigErr n else s.plainWrite ⟨.slotIrq, n, 0⟩ v

/-- FE_SLOT_CTRL[n]: DESTROY [0], RESTART [1], SKIP [2]. -/
def State.writeSlotCtrl (s : State) (n : Nat) (v : BitVec 64) : State :=
  let s := if bit v 0 then s.destroySlot n else s
  if bit v 1 then s.restartSlot n (bit v 2) else s

/-! ### Sync Unit (R200, R202, R451) -/

/-- SY_POD_FLAGS[p] and SY_POD_TALLIES[p]: BASE of `w` bits and COUNT above it, of 2^`w` objects. -/
def State.writeObjRange (s : State) (r : Reg) (tally : Bool) (v : BitVec 64) : State :=
  let w := if tally then 16 else 18
  let lo (x : BitVec 64) : Nat := bits x 0 w
  let hi (x : BitVec 64) : Nat := bits x 0 w + bits x 32 (w + 1)
  let cur := s.reg r
  let meets (q : Nat) : Bool :=
    let x := s.reg ⟨r.name, q, 0⟩
    decide (q ≠ r.i) && decide (lo v < hi x) && decide (lo x < hi v) && decide (lo v < hi v) && decide (lo x < hi x)
  let lost := s.sy.objs.any fun o =>
    o.2.alloc && decide ((o.2.kind = 2) = tally) && decide (lo cur ≤ objIdx o.1) && decide (objIdx o.1 < hi cur) &&
    !(decide (lo v ≤ objIdx o.1) && decide (objIdx o.1 < hi v))
  if 2 ^ w < hi v ∨ (List.range 16).any meets ∨ lost then s.podErr r.i 6 else s.plainWrite r v

/-- SY_CTX_XLAT[c], LIMIT. -/
def State.writeXlatLimit (s : State) (c : Nat) (v : BitVec 64) : State :=
  if 16777216 < bits v 0 25 then s.syErr 1 else s.plainWrite ⟨.xlatLimit, c, 0⟩ v

/-- SY_OBJ_INIT, CTRL. -/
def State.writeInitCtrl (s : State) (v : BitVec 64) : State :=
  let s := s.plainWrite ⟨.objInitCtrl, 0, 0⟩ v
  if bit v 63 then s.initObj else s

/-- SY_OBJ_STATUS: the bits written 1 of the selected object. -/
def State.writeObjStatus (s : State) (v : BitVec 64) : State :=
  if (s.obj s.selKey).status &&& v.setWidth 16 = 0 then s
  else s.updObj s.selKey fun o => { o with
    status := o.status &&& ~~~(v.setWidth 16)
    overset := if bit v 0 then 0 else o.overset }

/-- SY_DUMP, CTRL. -/
def State.writeSyDump (s : State) (v : BitVec 64) : State :=
  if bits v 4 2 = 3 ∨ (bit v 0 ∧ s.sy.dumpBusy) then s.syErr 1
  else
    let s := s.plainWrite ⟨.dumpCtrl, 0, 0⟩ v
    if bit v 0 then s.startSyDump else s

/-! ### Roster (R132, R144 to R146, R153, R454 to R456) -/

/-- RS_ROSTER[k].ERR: bit 0 CONFIG, 1 RING. -/
def State.roErr (s : State) (k b : Nat) : State := s.orReg ⟨.roErr, k, 0⟩ (BitVec.ofNat 64 (2 ^ b))

/-- Parameters that are not live may not change: the roster is enabled or holds a sequence. -/
def State.roLocked (s : State) (k : Nat) : Bool := s.roEnabled k || s.rosterHolds k

/-- A parameter of roster `r.i`, live or not, whose value is `ok`. -/
def State.writeRo (s : State) (r : Reg) (v : BitVec 64) (live ok : Bool) : State :=
  if v &&& r.row.rw = s.reg r then s
  else if ok && (live || !s.roLocked r.i) then s.plainWrite r v
  else s.roErr r.i 0

/-- The sum of the page reserves of pod `p`, with roster `k` at `n`. -/
def State.reserveSum (s : State) (p k n : Nat) : Nat :=
  ((List.range 16).map fun j => if j = k then n else if s.podOf (s.roCtx j) = p then s.fld ⟨.roReserve, j, 0⟩ 0 25 else 0).sum

/-- RS_ROSTER[k].CFG: CAP_FACTOR alone is live. -/
def State.writeRoCfg (s : State) (k : Nat) (v : BitVec 64) : State :=
  let r : Reg := ⟨.roCfg, k, 0⟩
  let fixed : BitVec 64 := 0xF01FF#64
  let p := s.podOf (bits v 0 9)
  let n := s.fld ⟨.roReserve, k, 0⟩ 0 25
  let ok := decide (4 ≤ bits v 16 4) && decide (bits v 16 4 ≤ 8) && decide (bits v 24 8 ≠ 0) && (decide (n = 0) || decide (s.reserveSum p k n ≤ s.poolCount p))
  s.writeRo r v (decide (v &&& fixed = s.reg r &&& fixed)) ok

/-- The bytes of a batch table of TOKEN_BUDGET `b` and MAX_SEQS `m`. -/
def batchBytes (b m : Nat) : Nat := 0x40 + 64 * m + 8 * b

/-- RS_ROSTER[k].BUDGET. -/
def State.writeRoBudget (s : State) (k : Nat) (v : BitVec 64) : State :=
  let b := bits v 0 16
  let m := bits v 16 13
  let fits := !s.roEnabled k || decide (batchBytes b m ≤ s.fld ⟨.roBatch, k, 0⟩ 0 32)
  s.writeRo ⟨.roBudget, k, 0⟩ v true (decide (b ≠ 0) && decide (m ≠ 0) && decide (m ≤ 4096) && fits)

/-- RS_ROSTER[k].SLOTS. -/
def roSlotsOk (v : BitVec 64) : Bool := decide (bits v 16 15 ≠ 0) && decide (bits v 0 14 + bits v 16 15 ≤ 16384)

/-- RS_ROSTER[k].CHUNK. -/
def roChunkOk (v : BitVec 64) : Bool := decide (bits v 16 16 ≠ 0) && decide (bits v 16 16 ≤ bits v 0 16)

/-- A ring's shift. -/
def shiftOk (hi : Nat) (v : BitVec 64) : Bool := decide (6 ≤ bits v 0 5) && decide (bits v 0 5 ≤ hi)

/-- RETIRE_RD and LOG_RD: `wr` and `shift` are the ring's. -/
def State.writeRoRd (s : State) (r : Reg) (wr shift : RegName) (v : BitVec 64) : State :=
  let d := ((s.reg ⟨wr, r.i, 0⟩).toNat + 2 ^ 32 - bits v 0 32) % 2 ^ 32
  if 2 ^ s.fld ⟨shift, r.i, 0⟩ 0 5 < d then s.roErr r.i 1 else s.plainWrite r v

/-- REPLAY_WR. -/
def State.writeReplayWr (s : State) (k : Nat) (v : BitVec 64) : State :=
  let d := (bits v 0 32 + 2 ^ 32 - (s.reg ⟨.roReplayRd, k, 0⟩).toNat) % 2 ^ 32
  if 2 ^ s.fld ⟨.roReplayShift, k, 0⟩ 0 5 < d then s.roErr k 1 else (s.plainWrite ⟨.roReplayWr, k, 0⟩ v).wakeRoster k

/-- The conditions of a write of ENABLE 1 (R132). -/
def State.roEnableOk (s : State) (k : Nat) : Bool :=
  let win (j : Nat) : Nat × Nat := (s.fld ⟨.roSlots, j, 0⟩ 0 14, s.fld ⟨.roSlots, j, 0⟩ 0 14 + s.fld ⟨.roSlots, j, 0⟩ 16 15)
  !((List.range 16).any fun j => decide (j ≠ k) && s.roEnabled j && decide ((win j).1 < (win k).2) && decide ((win k).1 < (win j).2)) &&
  decide (batchBytes (s.fld ⟨.roBudget, k, 0⟩ 0 16) (s.fld ⟨.roBudget, k, 0⟩ 16 13) ≤ s.fld ⟨.roBatch, k, 0⟩ 0 32) &&
  decide (s.reg ⟨.roRetireAddr, k, 0⟩ ≠ 0) && decide (s.reg ⟨.roRetireShift, k, 0⟩ ≠ 0)

/-- Every WR and RD of the roster, and ADMIT_SEQ, at 0 (R338, R456). -/
def State.roRings (s : State) (k : Nat) : State :=
  s.each [RegName.roRetireWr, .roRetireRd, .roLogWr, .roLogRd, .roReplayWr, .roReplayRd, .roAdmitSeq] fun s n => s.setReg ⟨n, k, 0⟩ 0

/-- RS_ROSTER[k].CTRL: FOLD_TRICK first (R466), then the rest, whole. -/
def State.writeRoCtrl (s : State) (k : Nat) (v : BitVec 64) : State :=
  let r : Reg := ⟨.roCtrl, k, 0⟩
  let s := if bit v 2 then s.foldTrickNow k else s
  let cur := s.reg r
  let was := bit cur 0
  if (v ^^^ cur) &&& 0x30 ≠ 0 ∧ s.roLocked k then s.roErr k 0
  else if bit v 0 ∧ ¬ was then
    if s.roEnableOk k then ((s.plainWrite r v).roRings k).wakeRoster k else s.roErr k 0
  else if ¬ bit v 0 ∧ was ∧ s.rosterHolds k then s.roErr k 0
  else (s.plainWrite r v).wakeRoster k

/-- Rosters of pod `p` with a page reserve. A write that would bring their sum above the pool's COUNT is ignored, with the ERR.CONFIG of
each (R146; DEDUCED, log entry 59). -/
def State.reserving (s : State) (p : Nat) : List Nat := (s.podRosters p).filter fun k => decide (s.fld ⟨.roReserve, k, 0⟩ 0 25 ≠ 0)

/-- GS_CTX_CFG[c]: the rosters bound to a context that changes its pod bring their reserves to the new pod's pool (R146, R252). -/
def State.writeCtxPod (s : State) (c : Nat) (v : BitVec 64) : State :=
  let q := bits v 0 4
  let mine := (s.reserving (s.podOf c)).filter fun k => decide (s.roCtx k = c)
  let n := (mine.map fun k => s.fld ⟨.roReserve, k, 0⟩ 0 25).sum
  if q ≠ s.podOf c ∧ mine ≠ [] ∧ s.poolCount q < n + s.reserveSum q 16 0 then s.each mine fun s k => s.roErr k 0 else s.writeCtxCfg c v

/-- A sequence of a roster bound to a context of pod `p` holds a page. -/
def State.pagesOut (s : State) (p : Nat) : Bool := (s.podRosters p).any fun k => decide (s.pagesHeld k ≠ 0)

/-- RS_POD_PAGES[p], RANGE. -/
def State.writePodPages (s : State) (p : Nat) (v : BitVec 64) : State :=
  let r : Reg := ⟨.podPages, p, 0⟩
  let lo (x : BitVec 64) : Nat := bits x 0 24
  let hi (x : BitVec 64) : Nat := bits x 0 24 + bits x 32 25
  let meets (q : Nat) : Bool :=
    let x := s.reg ⟨.podPages, q, 0⟩
    decide (q ≠ p) && decide (lo v < hi x) && decide (lo x < hi v) && decide (lo v < hi v) && decide (lo x < hi x)
  let same := decide (v &&& r.row.rw = s.reg r)
  if s.pagesOut p then (if same then s else s.podErr p 5)
  else if 2 ^ 24 < hi v ∨ (List.range 16).any meets then s.podErr p 5
  else if bits v 32 25 < s.reserveSum p 16 0 then s.each (s.reserving p) fun s k => s.roErr k 0
  else (s.plainWrite r v).updPod p fun x => { x with stack := [], deep := 0, nextPage := lo v }

/-! ### Link Interface (R121, R126, R298, R305, R311, R458, R459) -/

/-- Every port is DISABLED. -/
def State.portsOff (s : State) : Bool := !(s.li.ports.any fun p => decide (p.2.st ≠ .disabled))

/-- LI_CHIP_ID and LI_INCARN. -/
def State.writeIdentity (s : State) (r : Reg) (v : BitVec 64) : State :=
  if v &&& r.row.rw = s.reg r then s else if s.portsOff then s.plainWrite r v else s.liErr 0

def liRevOk (v : Nat) : Bool :=
  let ok (x : Nat) : Bool := decide (4 ≤ x) && decide (x ≤ 5)
  ok (nbits v 0 8) && ok (nbits v 8 8)

/-- LI_REV. -/
def State.writeLiRev (s : State) (v : BitVec 64) : State :=
  if liRevOk v.toNat then (s.plainWrite ⟨.liRev, 0, 0⟩ v).each (List.range 64) State.judgeAgain else s.liErr 0

def e2eOk (v : Nat) : Bool :=
  decide (10 ≤ nbits v 0 14) && decide (nbits v 0 14 ≤ 10000) && decide (1 ≤ nbits v 16 4)

/-- LI_E2E_CFG. -/
def State.writeE2e (s : State) (v : BitVec 64) : State := if e2eOk v.toNat then s.plainWrite ⟨.liE2eCfg, 0, 0⟩ v else s.liErr 0

/-- LI_LAND_CFG. -/
def State.writeLand (s : State) (v : BitVec 64) : State :=
  if 1000000 < bits v 0 20 ∨ bits v 32 16 = 0 then s.liErr 0 else s.plainWrite ⟨.liLandCfg, 0, 0⟩ v

/-- LI_PORT_CFG[k]. A port of a benched link engine stays DISABLED (R354). -/
def State.writePortCfg (s : State) (k : Nat) (v : BitVec 64) : State :=
  let s := s.plainWrite ⟨.portCfg, k, 0⟩ v
  if ¬ bit v 0 then s.disablePort k else if bit (s.reg ⟨.benchLe, 0, 0⟩) (k / 2) then s else s.enablePort k

/-- LI_PORT_EXPECT[k]. -/
def State.writeExpect (s : State) (k : Nat) (v : BitVec 64) : State := (s.plainWrite ⟨.portExpect, k, 0⟩ v).judgeAgain k

/-- LI_CTX_SLICE[c]. -/
def State.writeCtxSlice (s : State) (c : Nat) (v : BitVec 64) : State :=
  let r : Reg := ⟨.ctxSlice, c, 0⟩
  if v &&& r.row.rw = s.reg r then s
  else if (s.ctx c).st = .unused ∨ (s.ctx c).st = .saved then s.plainWrite r v
  else s.liErr 0

/-- The key of the route entry that LI_ROUTE_SEL names. -/
def State.routeKey (s : State) : Nat := s.fld ⟨.liRouteSel, 0, 0⟩ 16 2 * 8192 + s.fld ⟨.liRouteSel, 0, 0⟩ 0 13

/-- LI_ROUTE_DATA. -/
def State.writeRoute (s : State) (v : BitVec 64) : State :=
  if bits v 16 16 ≠ 0 ∨ bits v 6 2 ≠ 0 then s.liErr 0
  else ({ s with li := { s.li with routes := tput 0 s.li.routes s.routeKey (v.setWidth 32) } }).placeResponses

/-- The staged serving entry without its reserved bits. -/
def serveClean (w : List (BitVec 32)) : List (BitVec 32) :=
  [wordAt w 0 &&& 0x9FFFFFFF#32, wordAt w 1 &&& 0xFFFFF#32, wordAt w 2 &&& 0xFFFF#32, wordAt w 3, wordAt w 4, 0]

/-- A commit into serving entry `i` (R459). -/
def State.commitServe (s : State) (i : Nat) : State :=
  let w := serveClean (s.staged .liServeData 0 6 false)
  let twice := serveValid w && s.li.serve.any fun e => decide (e.1 ≠ i) && serveValid e.2 && decide (serveExpert e.2 = serveExpert w)
  let busy := s.li.calls.any fun x => decide (x.1 / 256 = i) && x.2.busy
  let changed := decide (normWords w ≠ s.serveEnt i)
  if twice || (changed && busy) || decide (bits (wordAt w 3) 0 6 ≠ 0) then s.liErr 0
  else { s with li := { s.li with serve := tput [] s.li.serve i (normWords w) } }

/-- LI_SERVE_SEL. -/
def State.writeServeSel (s : State) (v : BitVec 64) : State :=
  let old := s.fld ⟨.liServeSel, 0, 0⟩ 0 12
  let i := bits v 0 12
  let s := s.plainWrite ⟨.liServeSel, 0, 0⟩ v
  if bit v 16 then s.commitServe i
  else if old = i then s
  else s.loadStaging .liServeData 0 6 false (s.serveEnt i)

/-! ### Observation and faults (R350, R414) -/

/-- OB_STOP: CMD 1 FREEZE, 2 QUIESCE, 3 SNAP, 4 RESUME; 0 is no command. -/
def State.writeStop (s : State) (v : BitVec 64) : State :=
  match bits v 0 4 with
  | 0 => s
  | 1 => s.freezeCmd
  | 2 => s.quiesceCmd
  | 3 => s.snapCmd
  | 4 => s.resumeCmd
  | _ => s.obErr 1

def hangOk (v : Nat) : Bool := decide (10 ≤ v) && decide (v ≤ 1000000)

/-- FC_HANG. -/
def State.writeHang (s : State) (v : BitVec 64) : State := if hangOk (bits v 0 20) then s.plainWrite ⟨.fcHang, 0, 0⟩ v else s.fcErr 1

/-! ### By name -/

/-- A write of a register, as the requester makes it. -/
def State.writeReg (s : State) (who : Requester) (r : Reg) (v : BitVec 64) : State :=
  match r.name with
  -- global window
  | .tsuMode => s.writeMode v
  | .tsuClken => s.writeClken v
  | .tsuReset => s.writeReset v
  | .tsuSettings => s.writeSettings v
  | .cmdLimit | .drainLimit | .donateLimit | .stallWindow => s.writeLimit r.name v
  | .rqBase => s.writeRqBase v
  | .rqCfg => s.writeRqCfg v
  | .rqStatus => s.writeRqStatus v
  | .rqTail => s.writeRqTail v
  | .rqRd => s.writeRqRd v
  | .tileOwner => s.writeTileOwner r.i v
  -- queue slots
  | .slotCfg => s.writeSlotCfg r.i v
  | .slotCtrl => s.writeSlotCtrl r.i v
  | .slotRing | .slotStatusAddr | .slotShadow => s.writeFixed r v
  | .slotCpl => s.writeCpl r.i v
  | .slotCplRd => s.writeCplRd r.i v
  | .slotWdev => s.writeWdev r.i v
  | .slotNextSeq => s.writeNextSeq r.i v
  | .slotIrq => s.writeIrq r.i v
  -- pods
  | .podCfg => s.writePodCfg r.i v
  | .podSlots => s.writePodSlots r.i v
  | .podSlice => s.writePodSlice r.i v
  | .podPreempt => s.writePodPreempt r.i v
  | .podDeal => s.writePodDeal r.i v
  | .podSwapq => s.writeSwapq r.i v
  | .podTsetSel => s.writeTsetSel r.i v
  -- Graph Store
  | .ctxNodes => s.writeWindow false r.i v
  | .ctxEdges => s.writeWindow true r.i v
  | .ctxDyn => s.writeDyn r.i v
  | .ctxCfg => s.writeCtxPod r.i v
  | .ctxCtrl => s.writeCtxCtrl r.i v
  | .ctxSusp | .ctxSaveAddr | .ctxSaveSize => s.writeSaveReg r v
  -- Sync Unit
  | .objSel => s.selectObj v
  | .objInitCtrl => s.writeInitCtrl v
  | .objFree => if bit v 0 then s.freeObj else s
  | .objStatus => s.writeObjStatus v
  | .xlatInv => s.startXlatInv v
  | .dumpCtrl => s.writeSyDump v
  | .podFlags => s.writeObjRange r false v
  | .podTallies => s.writeObjRange r true v
  | .xlatLimit => s.writeXlatLimit r.i v
  -- Roster
  | .resSel => s.writeResSel v
  | .podPages => s.writePodPages r.i v
  | .ctxRes => s.writeCtxRes r.i v
  | .roCtrl => s.writeRoCtrl r.i v
  | .roSlots => s.writeRo r v false (roSlotsOk v)
  | .roCfg => s.writeRoCfg r.i v
  | .roBudget => s.writeRoBudget r.i v
  | .roChunk => s.writeRo r v true (roChunkOk v)
  | .roPrefillMin => s.writeRo r v true (decide (bits v 0 16 ≤ s.fld ⟨.roBudget, r.i, 0⟩ 0 16))
  | .roReserve =>
    s.writeRo r v false (decide (bits v 0 25 ≤ 2 ^ 24) &&
      decide (s.reserveSum (s.podOf (s.roCtx r.i)) r.i (bits v 0 25) ≤ s.poolCount (s.podOf (s.roCtx r.i))))
  | .roLimit => s.writeRo r v false (decide (bits v 0 25 ≤ 2 ^ 24))
  | .roBatch | .roRetireAddr | .roLogAddr | .roReplayAddr => s.writeRo r v false true
  | .roRetireShift => s.writeRo r v false (shiftOk 16 v)
  | .roLogShift | .roReplayShift => s.writeRo r v false (shiftOk 20 v)
  | .roRetireRd => s.writeRoRd r .roRetireWr .roRetireShift v
  | .roLogRd => s.writeRoRd r .roLogWr .roLogShift v
  | .roReplayWr => s.writeReplayWr r.i v
  -- Timebase
  | .tbBeatCfg => s.writeBeatCfg v
  | .tbRelSel => s.writeRelSel v
  -- Observation Unit
  | .trcCfg => s.writeTrcCfg v
  | .trcCounts => s.writeTrcCounts v
  | .trcCtrl => s.writeTrcCtrl v
  | .trcTrig => s.writeTrcTrig v
  | .trcTrigNode => s.writeTrcNode v
  | .trcPort => s.writeTrcPort v
  | .obStop => s.writeStop v
  | .trcRingBase => s.writeTrcRingBase v
  | .trcRingShift => s.writeTrcRingShift v
  | .trcRingRd => s.writeTrcRingRd v
  | .snapDumpCtrl => s.snapDumpStart v
  | .gcntSnap => s.gcntSnapCmd v
  | .inspSel => s.writeInspSel who r.i v
  | .latchCfg => s.writeLatchCfg r.i v
  | .latchBase => s.writeLatchBase r.i v
  | .latchRd => s.writeLatchRd r.i v
  -- Link Interface
  | .liChipId | .liIncarn => s.writeIdentity r v
  | .liRev => s.writeLiRev v
  | .liE2eCfg => s.writeE2e v
  | .liLandCfg => s.writeLand v
  | .liRouteData => s.writeRoute v
  | .liServeSel => s.writeServeSel v
  | .portCfg => s.writePortCfg r.i v
  | .portExpect => s.writeExpect r.i v
  | .portCtrl => if bit v 0 then s.acceptPort r.i else s
  | .ctxSlice => s.writeCtxSlice r.i v
  -- Fault Controller
  | .fcHang => s.writeHang v
  | .fcTeardown => s.driverTeardown v
  | .fcUnbench => s.writeUnbench v
  -- service cores
  | .fwCtrl => s.writeFwCtrl r.i v
  | .svWdog => s.writeWdog who r.i
  | .fwPolicy => s.writeFwPolicy v
  | .svDraoft => s.writeDraoft who v
  | .uartCfg => s.writeUart v
  | .spiCtrl => s.writeSpiCtrl v
  | .spiAddr | .spiData => s.writeSpiReg r v
  -- fields with no rule beyond their type (R8)
  | .tsuDisturb | .tsuErr | .slowdownAddr | .slotErr | .podErr | .podRegMem | .podRegLink | .podSwap | .podTsetData | .gsErr | .ctxStatus
  | .syCfg | .syErr | .objInitValue | .dumpAddr | .dumpSize | .xlatBase | .resData | .resErr | .podStack | .roErr | .tbBeatPorts | .tbErr
  | .tbRelData | .obErr | .trcSrc | .trcStatus | .snapId | .snapDumpAddr | .snapDumpSize | .liSystem | .liErr | .liRouteSel | .liServeData
  | .fcPin | .fcErr | .tearDumpAddr | .tearDumpSize | .mapAddr | .fwAddr | .svErr => s.plainWrite r v
  -- read only: a write is ignored
  | .tsuIdent | .tsuLsTick | .tsuClkCfg | .tsuStart | .rqWr | .rqStalls | .slotState | .slotCplWr | .slotDoneSeq | .slotWhost | .slotOpen
  | .slotDbIgnored | .slotCplFull | .slotFoldLate | .podSuspLate | .gsCorrected | .dlStatus | .dlIssued | .dlDraws | .dlIdle | .dlRedispatch
  | .dlRecalls | .dlInvals | .dlShadow | .objView | .waiterFull | .orphanOps | .podFree | .roRetireWr | .roLogWr | .roReplayRd | .roEpoch
  | .roAdmitSeq | .roTrick | .roExtendStale | .roFamine | .roBadResult | .roRetireFull | .roLogFull | .tbBeat | .tbTick | .tbStatus
  | .tbGatesArmed | .tbGateFull | .tbFallbacks | .tbMisses | .tbRelSkips | .snapLast | .markersIgnored | .trcRingWr | .gcnt | .gcntShadow
  | .latchWr | .latchDrops | .liCnt | .portFound | .portStatus | .sliceRejects | .fcStatus | .mapSeq | .benchRegions | .benchLe | .supplyDips
  | .benchCells | .ctxFault | .fwStatus | .fwVersion | .uartErr | .ctxCnt | .aperture => s

end Sys2Proof.Machine
end

