-- ==== Sys2Proof/Machine/Flags.lean ====
section
/-! DEFINITION. What a read of each register answers: the stored value, or the status the block computes (R8, R163, R211, R259, R306,
R331, R366, R375, R381, R414, R425 to R465). -/
namespace Sys2Proof.Machine

/-- TSU_CLKEN: GATED shows a sub-unit only while it has no work in native mode. -/
def State.clkenStatus (s : State) : BitVec 64 :=
  let v := s.reg ⟨.tsuClken, 0, 0⟩
  if s.compat then v
  else (List.range 9).foldl (fun v u => if s.unitBusy u then setBit v (16 + u) false else v) v

/-- MEs of region `r` in service. -/
def State.meCount (s : State) (r : Nat) : Nat := ((List.range 48).filter fun t => !s.benched (cellId r t 0)).length

/-- ME issue of region `r` is stopped by a supply warning. -/
def State.warned (s : State) (r : Nat) : Bool := s.dipped r || s.dipped 8 || (s.lockstep && (List.range 9).any s.dipped)

/-- DL_STATUS[r]. -/
def State.dlStatus (s : State) (r : Nat) : BitVec 64 :=
  fields [((s.warned r).toNat, 0, 1), (s.ob.lossStop.toNat, 1, 1), ((s.dealer r).rebuild.toNat, 2, 1),
          ((decide (s.ob.stop ≠ .running)).toNat, 3, 1), ((bit (s.reg ⟨.benchRegions, 0, 0⟩) r).toNat, 4, 1), (s.meCount r, 16, 6)]

/-- TSU_POD_SWAPQ[p]: HEAD and COUNT. -/
def State.swapqStatus (s : State) (p : Nat) : BitVec 64 :=
  let q := (s.pod p).swapq
  fields [(q.headD 0, 16, 9), (q.length, 25, 4)]

/-- Word `j` of FC_CTX_FAULT[c]. -/
def State.faultWord (s : State) (c j : Nat) : BitVec 64 :=
  match (s.ctx c).st, (s.ctx c).fault with
  | .faulted, some f => BitVec.ofNat 64 (f.words.getD (j / 2) 0 / 2 ^ (32 * (j % 2)) % 2 ^ 32)
  | _, _ => 0

/-- SV_FW_STATUS[k]. -/
def State.fwStatus (s : State) (k : Nat) : BitVec 64 := fields [((s.core k).st, 0, 3), ((s.core k).reason, 8, 8)]

/-- The bits of a stored register that its map gives a meaning, with `m` computed ones on top. -/
def State.regWith (s : State) (r : Reg) (m : BitVec 64) : BitVec 64 := s.reg r ||| m

/-- The registers of the Observation Unit and the service block, which go on while the chip is SNAPPED (R415, R416). -/
def Reg.goesOn (r : Reg) : Bool := decide (r.off / 0x10000 = 8) || decide (r.off / 0x10000 = 11)

/-- What a read of a register answers in the state as it stands, apertures apart. -/
def State.valueNow (s : State) (r : Reg) : BitVec 64 :=
  match r.name with
  | .tsuClken => s.clkenStatus
  | .tsuSettings => s.regWith r (fields [((s.sv.reloading || s.sv.reloadPending).toNat, 0, 1), (s.sv.reloading.toNat, 1, 1)])
  | .rqStatus => s.regWith r (fields [(min s.fe.fifo.length 256, 16, 9)])
  | .rqWr => s.fe.wrA.v.setWidth 64
  | .rqRd => s.fe.rdA.v.setWidth 64
  | .slotCtrl => fields [((decide ((s.slot r.i).st = .destroying)).toNat, 0, 1)]
  | .slotState => fields [((s.slot r.i).st.code, 0, 4)]
  | .slotWdev => (s.slot r.i).wdev.setWidth 64
  | .slotWhost => (s.slot r.i).whost.setWidth 64
  | .slotNextSeq => (s.slot r.i).nextSeq
  | .slotDoneSeq => (s.slot r.i).doneSeq
  | .slotOpen => fields [((s.openCmds r.i).length, 0, 11)]
  | .podSwapq => s.swapqStatus r.i
  | .podTsetSel => s.regWith r (fields [((s.pod r.i).commit.isSome.toNat, 31, 1)])
  | .ctxStatus => s.reg r &&& 1 ||| fields [((decide ((s.ctx r.i).dynWait ≠ [])).toNat, 1, 1)]
  | .ctxCtrl => s.regWith r (fields [((s.ctx r.i).st.code, 0, 4)])
  | .dlStatus => s.dlStatus r.i
  | .objStatus => (s.obj s.selKey).status.setWidth 64
  | .objView => BitVec.ofNat 64 (leAt s.sy.view (8 * r.i) 8)
  | .xlatInv => fields [(s.sy.inv.isSome.toNat, 63, 1)]
  | .dumpCtrl => s.regWith r (fields [(s.sy.dumpBusy.toNat, 1, 1)])
  | .podFree => fields [(s.poolFree r.i, 0, 25)]
  | .tbGatesArmed => fields [(s.armedGates.length, 0, 13)]
  | .trcStatus => s.regWith r (fields [(s.ob.triggered.toNat, 1, 1), (s.ob.trace.length, 8, 19)])
  | .obStop => fields [(s.ob.stop.code, 8, 4)]
  | .snapDumpCtrl => fields [(s.ob.dumpBusy.toNat, 1, 1)]
  | .liRouteData => (tget 0 s.li.routes s.routeKey).setWidth 64
  | .portStatus => s.portStatus r.i
  | .fcStatus => s.regWith r (fields [((!s.faultPinLow).toNat, 1, 1)])
  | .ctxFault => s.faultWord r.i r.j
  | .fwCtrl => fields [((decide ((s.core r.i).st = 1)).toNat, 0, 1)]
  | .fwStatus => s.fwStatus r.i
  | .svDraoft => s.regWith r (fields [(s.sv.session.toNat, 16, 1)])
  | .spiCtrl => s.regWith r (fields [(s.sv.spiBusy.toNat, 31, 1)])
  -- write only, or acting at once: reads as zero (R8)
  | .tsuReset | .objFree | .trcCtrl | .gcntSnap | .portCtrl | .fcTeardown | .fcUnbench | .svWdog => 0
  -- the stored value
  | .tsuIdent | .tsuMode | .tsuLsTick | .tsuDisturb | .tsuClkCfg | .tsuStart | .tsuErr | .cmdLimit | .drainLimit | .donateLimit | .stallWindow
  | .slowdownAddr | .rqBase | .rqCfg | .rqTail | .rqStalls | .tileOwner | .slotCfg | .slotErr | .slotRing | .slotStatusAddr | .slotCpl
  | .slotCplWr | .slotCplRd | .slotShadow | .slotIrq | .slotDbIgnored | .slotCplFull | .slotFoldLate | .podCfg | .podErr | .podSlots
  | .podSlice | .podPreempt | .podRegMem | .podRegLink | .podDeal | .podSwap | .podTsetData | .podSuspLate | .gsErr
  | .gsCorrected | .ctxNodes | .ctxEdges | .ctxDyn | .ctxCfg | .ctxSusp | .ctxSaveAddr | .ctxSaveSize | .dlIssued | .dlDraws | .dlIdle
  | .dlRedispatch | .dlRecalls | .dlInvals | .dlShadow | .syCfg | .syErr | .objSel | .objInitValue | .objInitCtrl | .waiterFull | .orphanOps
  | .dumpAddr | .dumpSize | .podFlags | .podTallies | .xlatBase | .xlatLimit | .resSel | .resData | .resErr | .podPages | .podStack | .ctxRes
  | .roCtrl | .roErr | .roSlots | .roCfg | .roBudget | .roChunk | .roPrefillMin | .roBatch | .roReserve | .roLimit | .roRetireAddr
  | .roRetireShift | .roRetireWr | .roRetireRd | .roLogAddr | .roLogShift | .roLogWr | .roLogRd | .roReplayAddr | .roReplayShift
  | .roReplayWr | .roReplayRd | .roEpoch | .roAdmitSeq | .roTrick | .roExtendStale | .roFamine | .roBadResult | .roRetireFull | .roLogFull
  | .tbBeat | .tbTick | .tbBeatCfg | .tbBeatPorts | .tbStatus | .tbErr | .tbRelSel | .tbRelData | .tbGateFull | .tbFallbacks | .tbMisses
  | .tbRelSkips | .obErr | .trcCfg | .trcCounts | .trcSrc | .trcTrig | .trcTrigNode | .trcPort | .snapId | .snapLast | .markersIgnored
  | .trcRingBase | .trcRingShift | .trcRingWr | .trcRingRd | .snapDumpAddr | .snapDumpSize | .gcnt | .gcntShadow | .inspSel | .latchCfg
  | .latchBase | .latchWr | .latchRd | .latchDrops | .liChipId | .liIncarn | .liSystem | .liRev | .liErr | .liE2eCfg | .liLandCfg
  | .liRouteSel | .liServeSel | .liServeData | .liCnt | .portCfg | .portExpect | .portFound | .sliceRejects | .ctxSlice | .fcPin | .fcErr
  | .fcHang | .tearDumpAddr | .tearDumpSize | .mapSeq | .mapAddr | .benchRegions | .benchLe | .supplyDips | .benchCells | .fwAddr
  | .fwVersion | .fwPolicy | .svErr | .uartCfg | .uartErr | .spiAddr | .spiData | .ctxCnt | .aperture => s.reg r

/-- What a read of a register answers, apertures apart: while SNAPPED the state at the edge (R416). -/
def State.regValue (s : State) (r : Reg) : BitVec 64 :=
  if s.ob.stop = .snapped ∧ ¬ r.goesOn then
    match r.name with
    | .portStatus => tget 0 s.ob.edgeRegs r.off
    | _ => ({ s with regs := s.ob.edgeRegs }).valueNow r
  else s.valueNow r

/-- A read of a register: the data, and the state after it. A read of LI_SLICE_REJECTS[k] lets the next refusal be reported
again (R314). -/
def State.readReg (s : State) (who : Requester) (r : Reg) : BitVec 64 × State :=
  match r.name with
  | .aperture => let x := s.inspRead who (r.i + 1) r.j; (x.1.setWidth 64, x.2)
  | .sliceRejects => (s.regValue r, if (s.port r.i).rejectArmed then s else s.updPort r.i fun x => { x with rejectArmed := true })
  | _ => (s.regValue r, s)

end Sys2Proof.Machine
end

