-- ==== Sys2Proof/Machine/Admit.lean ====
section
/-! DEFINITION. Register accesses from the host port and the service cores: width, halves and latches, aborts, clock gating, and when
an access is admitted (R8, R11, R12, R328 to R331, R374, R380, R382, R416, R420, R422 to R424). -/
namespace Sys2Proof.Machine

/-! ### What an access reaches -/

/-- The part of a register that an access covers. -/
inductive Part32 where
  | whole | low | high
  deriving DecidableEq, Repr

/-- The register an access of 32 bits, or of 64 where `wide`, reaches; none where it completes with an abort (R11, R12). -/
def target (off : Nat) (wide : Bool) : Option (Reg × Part32) :=
  if wide then
    match regAt off with
    | some r => if off % 8 = 0 ∧ r.row.wide then some (r, .whole) else none
    | none => none
  else if off % 4 ≠ 0 then none
  else
    match regAt off with
    | some r => some (r, if r.row.wide then .low else .whole)
    | none =>
      match regAt (off - 4) with
      | some r => if 4 ≤ off ∧ r.row.wide then some (r, .high) else none
      | none => none

/-- The sub-unit of a register's window, in the order of TSU_CLKEN, or the one that an inspection window shows. The global
registers, the pod windows, the Fault Controller and the path section belong to none (R381, R382). -/
def unitOf (r : Reg) : Option Nat :=
  match r.name with
  | .ctxCnt => some (if r.j < 10 then 1 else if r.j < 13 then 7 else 3)
  | .aperture => [some 1, some 2, some 2, none, some 3, some 4, some 6, some 0, some 5, some 7].getD r.i none
  | _ => [none, some 0, none, some 1, some 2, some 3, some 4, some 5, some 7, some 6, none, some 8].getD (r.off / 0x10000) none

/-- The register's sub-unit is stopped under KL-400 compatibility. -/
def State.unitGated (s : State) (r : Reg) : Bool :=
  match unitOf r with
  | none => false
  | some u => s.gated u

/-- In native mode the access starts a stopped clock again (R380). -/
def State.wakeFor (s : State) (r : Reg) : State :=
  match unitOf r with
  | none => s
  | some u => s.wake u

/-- Before READY only reads of TSU_IDENT and TSU_START are answered (R375). -/
def earlyRead (n : RegName) : Bool := decide (n = .tsuIdent) || decide (n = .tsuStart)

/-! ### The half latches (R12) -/

def State.halves (s : State) (who : Requester) : Latch := ((s.latches.find? fun x => decide (x.1 = who)).map Prod.snd).getD {}

def State.setHalves (s : State) (who : Requester) (l : Latch) : State :=
  let rest := s.latches.filter fun x => decide (x.1 ≠ who)
  { s with latches := if l = {} then rest else (who, l) :: rest }

def loHalf (v : BitVec 64) : BitVec 32 := v.setWidth 32
def hiHalf (v : BitVec 64) : BitVec 32 := (v >>> 32).setWidth 32
def joinHalves (hi lo : BitVec 32) : BitVec 64 := hi.setWidth 64 <<< 32 ||| lo.setWidth 64

/-- A write of the low half is held. -/
def State.writeLow (s : State) (who : Requester) (r : Reg) (v : BitVec 32) : State :=
  s.setHalves who { s.halves who with wr := some (r.off, v) }

/-- A write of the high half alone: the RW fields of the low half keep their values, and no other bit of it acts. -/
def State.writeHighAlone (s : State) (who : Requester) (r : Reg) (v : BitVec 32) : State :=
  s.writeReg who r (joinHalves v (loHalf (s.regValue r &&& r.row.rw)))

/-- A write of the high half: with the held low half, if it is of this register. -/
def State.writeHigh (s : State) (who : Requester) (r : Reg) (v : BitVec 32) : State :=
  match (s.halves who).wr with
  | some (o, lo) =>
    if o = r.off then (s.setHalves who { s.halves who with wr := none }).writeReg who r (joinHalves v lo)
    else s.writeHighAlone who r v
  | none => s.writeHighAlone who r v

/-- A read of the low half fills the read latch with the high half. -/
def State.readLow (s : State) (who : Requester) (r : Reg) : BitVec 64 × State :=
  let x := s.readReg who r
  ((loHalf x.1).setWidth 64, x.2.setHalves who { x.2.halves who with rd := some (r.off, hiHalf x.1) })

/-- A read of the high half: the latched one, or the current one. -/
def State.readHigh (s : State) (who : Requester) (r : Reg) : BitVec 64 × State :=
  match (s.halves who).rd with
  | some (o, hi) =>
    if o = r.off then (hi.setWidth 64, s.setHalves who { s.halves who with rd := none })
    else ((hiHalf (s.regValue r)).setWidth 64, s)
  | none => ((hiHalf (s.regValue r)).setWidth 64, s)

/-! ### An access, once it is admitted -/

/-- A write of BAR0. Every write of an inspection aperture is aborted (R462). -/
def State.accessWrite (s : State) (who : Requester) (off : Nat) (wide : Bool) (v : BitVec 64) : State :=
  match target off wide with
  | none => s.emit (.abort who)
  | some (r, h) =>
    if ¬ s.ready ∨ r.name = .aperture ∨ s.unitGated r then s.emit (.abort who)
    else match h with
      | .whole => (s.wakeFor r).writeReg who r v
      | .low => (s.wakeFor r).writeLow who r (loHalf v)
      | .high => (s.wakeFor r).writeHigh who r (loHalf v)

/-- What a read that is answered gives. -/
def State.readPart (s : State) (who : Requester) (r : Reg) : Part32 → BitVec 64 × State
  | .whole => s.readReg who r
  | .low => s.readLow who r
  | .high => s.readHigh who r

/-- Where BAR2 stands in the addresses that the rows of reads name: above BAR0 (DESIGN CHOICE, log entry 85). -/
def bar2 : Nat := 2 ^ 32

/-- A read of a doorbell page (R167): DOORBELL answers W_host, WDEV W_dev, and DONE_SEQ the number, whole or by halves as R12 has it.
Only the host port reaches BAR2. -/
def State.readPage (s : State) (who : Requester) (off : Nat) (wide : Bool) : Option (BitVec 64 × State) :=
  let x := s.slot (off / 0x1000)
  let o := off % 0x1000
  if who ≠ .host ∨ 256 ≤ off / 0x1000 ∨ ¬ s.ready ∨ s.gated 0 then none
  else
    let s := s.wake 0
    if wide then (if o = 8 then some (x.doneSeq, s) else none)
    else if o = 0 then some (x.whost.setWidth 64, s)
    else if o = 4 then some (x.wdev.setWidth 64, s)
    else if o = 8 then
      some ((loHalf x.doneSeq).setWidth 64, s.setHalves who { s.halves who with rd := some (bar2 + off, hiHalf x.doneSeq) })
    else if o = 12 then
      match (s.halves who).rd with
      | some (q, hi) =>
        if q + 4 = bar2 + off then some (hi.setWidth 64, s.setHalves who { s.halves who with rd := none })
        else some ((hiHalf x.doneSeq).setWidth 64, s)
      | none => some ((hiHalf x.doneSeq).setWidth 64, s)
    else none

/-- A read of BAR0, or of BAR2 from `bar2` on: its data, if it is answered, and the state after it. -/
def State.readData (s : State) (who : Requester) (off : Nat) (wide : Bool) : Option (BitVec 64 × State) :=
  if bar2 ≤ off then s.readPage who (off - bar2) wide
  else match target off wide with
  | none => none
  | some (r, h) =>
    if (¬ s.ready ∧ ¬ earlyRead r.name) ∨ s.unitGated r then none
    else some ((s.wakeFor r).readPart who r h)

/-- A read of BAR0 or BAR2. -/
def State.accessRead (s : State) (who : Requester) (off : Nat) (wide : Bool) : State :=
  match s.readData who off wide with
  | none => s.emit (.abort who)
  | some (v, t) => t.emit (.readData who off v)

/-- A doorbell write of BAR2. -/
def State.accessDoorbell (s : State) (n : Nat) (v : BitVec 32) : State :=
  if ¬ s.ready ∨ s.gated 0 then s.emit (.abort .host) else (s.wake 0).doorbell n v

/-! ### The Draoft monitor (R418 to R420, R443) -/

/-- The level of a command. -/
def draoftLevel : Instr → Nat
  | .draoftHelp | .draoftId | .draoftStatus | .draoftCnt => 1
  | .draoftRd .. | .draoftObj .. | .draoftNode .. | .draoftDump .. => 2
  | _ => 3

/-- Registers that WR is refused for. -/
def draoftBarred (n : RegName) : Bool :=
  decide (n = .svDraoft) || decide (n = .fwAddr) || decide (n = .fwCtrl) || decide (n = .fwPolicy) || decide (n = .tsuReset)

/-- An answer: words, then OK or ERR. -/
def State.say (s : State) (ws : List (BitVec 32)) : State := s.emit (.uart ws true 0)
def State.sayErr (s : State) (code : Nat) : State := s.emit (.uart [] false code)

/-- The 32-bit words of a byte string. -/
def words32 (bs : List Byte) : List (BitVec 32) := (List.range (bs.length / 4)).map fun j => BitVec.ofNat 32 (leAt bs (4 * j) 4)

/-- RD: `n` words from `off`; nothing where one of them would be aborted. -/
def State.draoftWords (s : State) (off : Nat) : Nat → Option (List (BitVec 32) × State)
  | 0 => some ([], s)
  | n + 1 =>
    match s.readData (.core 8) off false with
    | none => none
    | some (v, t) => (t.draoftWords (off + 4) n).map fun x => (loHalf v :: x.1, x.2)

/-- The numbers of the commands of HELP, allowed at a level. -/
def draoftHelpWords (level : Nat) : List (BitVec 32) := (List.range (if level = 1 then 4 else if level = 2 then 8 else 14)).map (BitVec.ofNat 32 ·)

def State.low (s : State) (r : Reg) : BitVec 32 := loHalf (s.regValue r)

/-- The words of ID and of STATUS. -/
def State.draoftIdWords (s : State) : List (BitVec 32) :=
  [s.low ⟨.tsuIdent, 0, 0⟩, s.low ⟨.liChipId, 0, 0⟩] ++ (List.range 9).map fun k => s.low ⟨.fwVersion, k, 0⟩

def State.draoftStatusWords (s : State) : List (BitVec 32) :=
  [s.low ⟨.tsuStart, 0, 0⟩, s.low ⟨.fcStatus, 0, 0⟩, BitVec.ofNat 32 s.ob.stop.code, s.low ⟨.mapSeq, 0, 0⟩,
   hiHalf (s.regValue ⟨.mapSeq, 0, 0⟩), s.low ⟨.tsuMode, 0, 0⟩]

/-- The objects of DUMP SYNC: of a pod, or owned by a context. -/
def State.draoftObjs (s : State) (byCtx : Bool) (id : Nat) : List Nat :=
  s.objKeys fun k o =>
    if byCtx then decide (o.owner.toNat = id) && (decide (o.kind ≠ 1) || decide (o.value = 1)) else s.inPodRange id o.kind (objIdx k)

/-- A write of the monitor: while SNAPPED all but OB_ and SV_ registers' writes are held (R416). -/
def State.snapHolds (s : State) (off : Nat) : Bool :=
  decide (s.ob.stop = .snapped) && !(decide (off / 0x10000 = 8) || decide (off / 0x10000 = 0xB))

/-- A write is held while SNAPPED. Beyond 64 the host port is flow-controlled, which is recorded in LOCKSTEP (R331, R416). -/
def State.pushSnap (s : State) (h : Held) : State :=
  let t := { s with ob := { s.ob with snapHeld := s.ob.snapHeld ++ [h] } }
  if 64 ≤ s.ob.snapHeld.length then t.disturb 1 else t

/-- WR. -/
def State.draoftWrite (s : State) (off : Nat) (v : BitVec 32) : State :=
  match target off false with
  | none => s.sayErr 3
  | some (r, _) =>
    if draoftBarred r.name ∨ r.name = .aperture ∨ s.unitGated r then s.sayErr 3
    else if s.snapHolds off then (s.pushSnap (.write (.core 8) off false (v.setWidth 64))).say []
    else (s.accessWrite (.core 8) off false (v.setWidth 64)).say []

/-- A stop command: ERR 04 where OB_ERR.STOP answers it. -/
def State.draoftStop (s : State) (cmd : Nat) : State :=
  let t := s.writeReg (.core 8) ⟨.obStop, 0, 0⟩ (BitVec.ofNat 64 cmd)
  if t.ob.stop = s.ob.stop then t.sayErr 4 else t.say []

/-- A command of the monitor at or below MAX_LEVEL. -/
def State.draoftRun (s : State) (i : Instr) : State :=
  match i with
  | .draoftHelp => s.say (draoftHelpWords (s.fld ⟨.svDraoft, 0, 0⟩ 0 2))
  | .draoftId => s.say s.draoftIdWords
  | .draoftStatus => s.say s.draoftStatusWords
  | .draoftCnt =>
    let t := s.gcntSnapCmd 1
    t.say ((List.range 16).flatMap fun j => let v := t.regValue ⟨.gcntShadow, j, 0⟩; [loHalf v, hiHalf v])
  | .draoftRd off n => match s.draoftWords off n with
    | none => s.sayErr 3
    | some x => x.2.say x.1
  | .draoftObj kind idx => s.say (words32 (s.viewBytes (objKey kind idx)))
  | .draoftNode c i => s.say (words32 (s.nodeRecord (nk c i) 0))
  | .draoftDump byCtx id =>
    let d := s.dumpBytes (s.draoftObjs byCtx id) (2 ^ 32)
    s.say (words32 (d.1 ++ d.2))
  | .draoftWr off v => s.draoftWrite off v
  | .draoftFreeze => s.draoftStop 1
  | .draoftQuiesce => s.draoftStop 2
  | .draoftSnap id => (s.setReg ⟨.snapId, 0, 0⟩ (id.setWidth 64)).draoftStop 3
  | .draoftResume => s.draoftStop 4
  | .draoftTrig => (s.trigger 3).say []
  | _ => s

/-- The sub-unit whose registers a command reaches, RD and WR apart. -/
def draoftUnit : Instr → Option Nat
  | .draoftId => some 6
  | .draoftObj .. | .draoftDump .. => some 3
  | .draoftNode .. => some 1
  | .draoftCnt | .draoftFreeze | .draoftQuiesce | .draoftSnap _ | .draoftResume | .draoftTrig => some 7
  | _ => none

/-- The command, or ERR 03 where its sub-unit is stopped under KL-400 compatibility. -/
def State.draoftDo (s : State) (i : Instr) : State :=
  match draoftUnit i with
  | none => s.draoftRun i
  | some u => if s.gated u then s.sayErr 3 else s.draoftRun i

/-- The session ends with the command (R418). -/
def State.endSession (s : State) : State := { s with sv := { s.sv with session := false } }

/-- The firmware carries a command out; one held until now is dropped where the session has ended (R420). -/
def State.draoftNow (s : State) (i : Instr) : State :=
  if s.sv.session then (s.draoftDo i).endSession else s

/-! ### Admission -/

/-- A row that waited for the lockstep boundary which admits the completion of its read (R328). -/
def State.heldRow (s : State) (i : Instr) : State :=
  match i with
  | .shadowPoll n => s.shadowPoll n
  | .ringFetch n => s.fetchArrive n
  | .slotIdleCheck n => s.slotIdleCheck n
  | .launchGraph n => s.launchGraph n
  | .appendNodes n => s.appendNodes n
  | .rosterAdmit n => s.rosterAdmit n
  | .rosterExtend n => s.rosterExtend n
  | .rosterFold n => s.rosterFold n
  | .indirectPointerRead c j => s.pointerRead c j
  | .loopStart c j => s.loopStart (nk c j)
  | .sproutRead c j => s.sproutRead (nk c j)
  | .xlatFill c vid => s.xlatFill c vid
  | .restoreComplete c => s.restoreComplete c
  | .trickCompose c j => s.trickCompose (nk c j)
  | .composeRetry c j => s.composeRetry (nk c j)
  | .trickEnd k => s.trickEnd k
  | .fanoutExpand => s.fanoutExpand
  | .fanoutInstantiate => s.fanoutInstantiate
  | _ => s

/-- A held access takes effect. -/
def State.applyHeld (s : State) (h : Held) : State :=
  match h with
  | .write who off wide v => s.accessWrite who off wide v
  | .doorbell n v => s.accessDoorbell n v
  | .read who off wide => s.accessRead who off wide
  | .beatPin => s.pinEdge
  | .monitor i => s.draoftNow i
  | .completion i => s.heldRow i

/-- At a resume from SNAPPED the writes held meanwhile are applied in arrival order, in LOCKSTEP at the next tick (R416). -/
def State.flushSnap (s : State) : State :=
  if s.ob.stop = .snapped ∨ s.ob.snapHeld = [] then s
  else
    let hs := s.ob.snapHeld
    let t := { s with ob := { s.ob with snapHeld := [] } }
    if t.lockstep then t.each hs State.holdInput else t.each hs State.applyHeld

/-- An access takes effect, and a resume it makes is completed. -/
def State.process (s : State) (h : Held) : State := (s.applyHeld h).flushSnap

/-- External inputs wait for the lockstep tick; no tick falls while SNAPPED, and then an access is not held (R326, R328). -/
def State.inputsWait (s : State) : Bool := s.lockstep && decide (s.ob.stop ≠ .snapped)

/-- An access arrives. -/
def State.arrive (s : State) (h : Held) : State := if s.inputsWait then s.holdInput h else s.process h

def State.admitWrite (s : State) (who : Requester) (off : Nat) (wide : Bool) (v : BitVec 64) : State :=
  if s.snapHolds off then s.pushSnap (.write who off wide v) else s.arrive (.write who off wide v)

def State.admitRead (s : State) (who : Requester) (off : Nat) (wide : Bool) : State := s.arrive (.read who off wide)

def State.admitDoorbell (s : State) (n : Nat) (v : BitVec 32) : State :=
  if s.ob.stop = .snapped then s.pushSnap (.doorbell n v) else s.arrive (.doorbell n v)

/-- A whole write of a named register. -/
def State.regIn (s : State) (who : Requester) (r : Reg) (v : BitVec 64) : State := s.admitWrite who r.off r.row.wide v

/-- A line of the monitor ends. It is refused above MAX_LEVEL, and at level 0 nothing is sent; the hub core's firmware must be
running and the receiver enabled. -/
def State.draoft (s : State) (i : Instr) : State :=
  let level := s.fld ⟨.svDraoft, 0, 0⟩ 0 2
  if (s.core 8).st ≠ 2 ∨ s.sv.uartOff ∨ ¬ s.ready ∨ level = 0 then s
  else if level < draoftLevel i then s.sayErr 1
  else ({ s with sv := { s.sv with session := true } }).arrive (.monitor i)

/-- A line reaches the monitor, which the service cores' clock lets run (R380, R382). -/
def State.draoftLine (s : State) (i : Instr) : State := s.reach 8 i fun s => s.draoft i

/-! ### The inputs of stopped sub-units (R382) -/

/-- A row that waited at the input of a stopped sub-unit. -/
def State.gateRow (s : State) (i : Instr) : State :=
  match i with
  | .blockReceive k bytes => s.blockIn k bytes
  | .nakReceive k seq => s.nakReceive k seq
  | .phyReady k => s.phyReady k
  | .phyLost k => s.toRetrain k 0
  | .leCompletion k st word => s.leDone k st word
  | .returnParcelSend e x off payload => s.returnSend e x off payload
  | .beatPinEdge => s.beatPinEdge
  | i => s.draoft i

/-- What waits at the inputs of sub-units whose clocks run again is taken, in arrival order. -/
def State.gateOpen (s : State) : State :=
  let now := s.st.atGate.filter fun (x : Nat × Instr) => !s.gated x.1
  State.each { s with st := { s.st with atGate := s.st.atGate.filter fun (x : Nat × Instr) => s.gated x.1 } } now fun s x => s.gateRow x.2

/-! ### The lockstep tick (R326, R328 to R330) -/

/-- Inputs of one boundary, host first, then service cores ascending, the monitor's in core 8's place, then completions of reads; the Beat
pin comes last. -/
def Held.byHost : Held → Bool
  | .write .host _ _ _ | .read .host _ _ | .doorbell .. => true
  | _ => false

def Held.byCore (k : Nat) : Held → Bool
  | .write w _ _ _ | .read w _ _ => decide (w = .core k)
  | .monitor _ => decide (k = 8)
  | _ => false

def Held.isCompletion : Held → Bool
  | .completion _ => true
  | _ => false

def Held.isBeat : Held → Bool
  | .beatPin => true
  | _ => false

/-- The queue of port `k` whose oldest untaken parcel arrived first. -/
def State.oldestQueue (s : State) (k : Nat) : Option Nat :=
  let age (q : Nat) : Nat := match s.headParcel k q with
    | some (_, seq) => ((s.port k).rxNext + 2 ^ 16 - seq) % 2 ^ 16
    | none => 0
  let qs := (List.range 11).filter fun q => (s.headParcel k q).isSome
  qs.find? fun q => qs.all fun q' => decide (age q' ≤ age q)

/-- The parcels of port `k` in arrival order, at most `n`. -/
def State.takeParcels (s : State) (k : Nat) : Nat → State
  | 0 => s
  | n + 1 =>
    if ¬ s.runs 6 then s
    else match s.oldestQueue k with
      | none => s
      | some q => (s.takeHead k q).takeParcels k n

/-- Untaken parcels of port `k`. -/
def State.parcelCount (s : State) (k : Nat) : Nat :=
  ((s.port k).rx.map fun q => (q.2.map fun (b : RxBlock) => b.parcels.length).sum).sum

/-- The inputs held are admitted; while `hold`, only those that HOLD does not hold. -/
def State.admitAll (s : State) (hold : Bool) : State :=
  let now := s.ob.inputs.filter fun h => !hold || h.free
  let s := { s with ob := { s.ob with inputs := s.ob.inputs.filter fun h => hold && !h.free } }
  let s := s.each (now.filter Held.byHost) State.process
  let s := s.each ((List.range 9).flatMap fun k => now.filter (Held.byCore k)) State.process
  let s := s.each (now.filter Held.isCompletion) State.process
  let s := if hold then s else s.each (List.range 64) fun s k => s.takeParcels k (s.parcelCount k)
  s.each (now.filter Held.isBeat) State.process

/-- LOCKSTEP_TICK. The held inputs follow at once where HOLD was written 0 by an accepted restart, whose tick 0 this is, or LOCKSTEP
was left. -/
def State.lockstepTick (s : State) : State :=
  if ¬ s.inputsWait ∨ s.gated 5 ∨ (List.range 9).any s.dipped then s
  else
    let t := (s.tickCore.bump ⟨.tsuLsTick, 0, 0⟩ 1).admitAll s.holding
    if ¬ t.lockstep ∨ (t.reg ⟨.tsuLsTick, 0, 0⟩ = 0 ∧ ¬ t.holding) then t.admitAll false else t

def execLockstepTick (s : State) : Host.Outcome State Fault Refusal := .next s.lockstepTick

end Sys2Proof.Machine
end

