-- ==== Sys2Proof/Machine/Access.lean ====
section
/-! DEFINITION. The rows that are a write or a read of a register, a doorbell write, an aborted access, and the monitor's
commands. Each names its register and sets the bits that make the write the row's command; the rest of the word is as written. -/
namespace Sys2Proof.Machine

/-- The word written, as a register value. -/
def w64 (v : BitVec 32) : BitVec 64 := v.setWidth 64

/-! ### Front End -/

def execDoorbellWrite (n : Nat) (v : BitVec 32) (s : State) : Host.Outcome State Fault Refusal := .next (s.admitDoorbell n v)

def execSlotEnable (who : Requester) (n : Nat) (v : BitVec 32) (s : State) : Host.Outcome State Fault Refusal :=
  .next (s.regIn who ⟨.slotCfg, n, 0⟩ (setBit (w64 v) 0 true))

def execSlotDisable (who : Requester) (n : Nat) (v : BitVec 32) (s : State) : Host.Outcome State Fault Refusal :=
  .next (s.regIn who ⟨.slotCfg, n, 0⟩ (setBit (w64 v) 0 false))

def execDestroy (who : Requester) (n : Nat) (s : State) : Host.Outcome State Fault Refusal :=
  .next (s.regIn who ⟨.slotCtrl, n, 0⟩ 1)

def execRestart (who : Requester) (n : Nat) (skip : Bool) (s : State) : Host.Outcome State Fault Refusal :=
  .next (s.regIn who ⟨.slotCtrl, n, 0⟩ (setBit 2 2 skip))

def execCplRdWrite (who : Requester) (n : Nat) (v : BitVec 32) (s : State) : Host.Outcome State Fault Refusal :=
  .next (s.regIn who ⟨.slotCplRd, n, 0⟩ (w64 v))

def execRqEnable (who : Requester) (v : BitVec 32) (s : State) : Host.Outcome State Fault Refusal :=
  .next (s.regIn who ⟨.rqCfg, 0, 0⟩ (setBit (w64 v) 0 true))

def execRqDisable (who : Requester) (v : BitVec 32) (s : State) : Host.Outcome State Fault Refusal :=
  .next (s.regIn who ⟨.rqCfg, 0, 0⟩ (setBit (w64 v) 0 false))

def execRqRdWrite (who : Requester) (v : BitVec 32) (s : State) : Host.Outcome State Fault Refusal :=
  .next (s.regIn who ⟨.rqRd, 0, 0⟩ (w64 v))

/-! ### Pods, tiles and contexts -/

def execTsetCommit (who : Requester) (p : Nat) (v : BitVec 32) (s : State) : Host.Outcome State Fault Refusal :=
  .next (s.regIn who ⟨.podTsetSel, p, 0⟩ (setBit (w64 v) 16 true))

def execTsetSelect (who : Requester) (p : Nat) (v : BitVec 32) (s : State) : Host.Outcome State Fault Refusal :=
  .next (s.regIn who ⟨.podTsetSel, p, 0⟩ (setBit (w64 v) 16 false))

def execTileOwnerWrite (who : Requester) (i : Nat) (v : BitVec 32) (s : State) : Host.Outcome State Fault Refusal :=
  .next (s.regIn who ⟨.tileOwner, i, 0⟩ (w64 v))

def execSwapqPush (who : Requester) (p : Nat) (v : BitVec 32) (s : State) : Host.Outcome State Fault Refusal :=
  .next (s.regIn who ⟨.podSwapq, p, 0⟩ (setBit (w64 v) 12 true))

def execSwapqPop (who : Requester) (p : Nat) (v : BitVec 32) (s : State) : Host.Outcome State Fault Refusal :=
  .next (s.regIn who ⟨.podSwapq, p, 0⟩ (setBit (w64 v) 31 true))

def execContextSave (who : Requester) (c : Nat) (v : BitVec 32) (s : State) : Host.Outcome State Fault Refusal :=
  .next (s.regIn who ⟨.ctxCtrl, c, 0⟩ (setBit (w64 v) 8 true))

def execContextRestore (who : Requester) (c : Nat) (v : BitVec 32) (s : State) : Host.Outcome State Fault Refusal :=
  .next (s.regIn who ⟨.ctxCtrl, c, 0⟩ (setBit (w64 v) 9 true))

def execRearm (who : Requester) (c : Nat) (v : BitVec 32) (s : State) : Host.Outcome State Fault Refusal :=
  .next (s.regIn who ⟨.ctxCtrl, c, 0⟩ (setBit (w64 v) 10 true))

def execWindowWrite (who : Requester) (edges : Bool) (c : Nat) (v : BitVec 32) (s : State) : Host.Outcome State Fault Refusal :=
  .next (s.regIn who ⟨winReg edges, c, 0⟩ (w64 v))

def execResBindingWrite (who : Requester) (c : Nat) (v : BitVec 64) (s : State) : Host.Outcome State Fault Refusal :=
  .next (s.regIn who ⟨.ctxRes, c, 0⟩ v)

/-! ### Sync objects -/

def execObjInitCommit (who : Requester) (v : BitVec 64) (s : State) : Host.Outcome State Fault Refusal :=
  .next (s.regIn who ⟨.objInitCtrl, 0, 0⟩ (setBit v 63 true))

def execObjFreeCommit (who : Requester) (v : BitVec 32) (s : State) : Host.Outcome State Fault Refusal :=
  .next (s.regIn who ⟨.objFree, 0, 0⟩ (setBit (w64 v) 0 true))

def execObjSelect (who : Requester) (v : BitVec 32) (s : State) : Host.Outcome State Fault Refusal :=
  .next (s.regIn who ⟨.objSel, 0, 0⟩ (w64 v))

def execXlatInv (who : Requester) (v : BitVec 64) (s : State) : Host.Outcome State Fault Refusal :=
  .next (s.regIn who ⟨.xlatInv, 0, 0⟩ v)

def execSyncDumpStart (who : Requester) (v : BitVec 32) (s : State) : Host.Outcome State Fault Refusal :=
  .next (s.regIn who ⟨.dumpCtrl, 0, 0⟩ (setBit (w64 v) 0 true))

/-! ### Global control -/

/-- TSU_MODE is written without RESTART. -/
def execModeWrite (who : Requester) (v : BitVec 32) (s : State) : Host.Outcome State Fault Refusal :=
  .next (s.regIn who ⟨.tsuMode, 0, 0⟩ (setBit (w64 v) 3 false))

/-- TSU_MODE is written without RESTART and with DET as it stands. -/
def execHoldWrite (who : Requester) (v : BitVec 32) (s : State) : Host.Outcome State Fault Refusal :=
  .next (s.regIn who ⟨.tsuMode, 0, 0⟩ (setBits (setBit (w64 v) 3 false) 0 2 s.det))

def execLockstepRestart (who : Requester) (v : BitVec 32) (s : State) : Host.Outcome State Fault Refusal :=
  .next (s.regIn who ⟨.tsuMode, 0, 0⟩ (setBit (w64 v) 3 true))

def execChipResetWrite (who : Requester) (v : BitVec 32) (s : State) : Host.Outcome State Fault Refusal :=
  .next (s.regIn who ⟨.tsuReset, 0, 0⟩ (w64 v))

def execCompatWrite (who : Requester) (v : BitVec 32) (s : State) : Host.Outcome State Fault Refusal :=
  .next (s.regIn who ⟨.tsuClken, 0, 0⟩ (w64 v))

def execSettingsReload (who : Requester) (v : BitVec 32) (s : State) : Host.Outcome State Fault Refusal :=
  .next (s.regIn who ⟨.tsuSettings, 0, 0⟩ (setBit (w64 v) 0 true))

def execSpiGo (who : Requester) (v : BitVec 32) (s : State) : Host.Outcome State Fault Refusal :=
  .next (s.regIn who ⟨.spiCtrl, 0, 0⟩ (setBit (w64 v) 30 true))

def execFirmwareLoad (who : Requester) (k : Nat) (v : BitVec 32) (s : State) : Host.Outcome State Fault Refusal :=
  .next (s.regIn who ⟨.fwCtrl, k, 0⟩ (setBit (w64 v) 0 true))

def execWatchdogKick (who : Requester) (k : Nat) (v : BitVec 32) (s : State) : Host.Outcome State Fault Refusal :=
  .next (s.regIn who ⟨.svWdog, k, 0⟩ (w64 v))

def execDraoftLock (who : Requester) (v : BitVec 32) (s : State) : Host.Outcome State Fault Refusal :=
  .next (s.regIn who ⟨.svDraoft, 0, 0⟩ (setBit (w64 v) 8 true))

def execDriverTeardown (who : Requester) (v : BitVec 32) (s : State) : Host.Outcome State Fault Refusal :=
  .next (s.regIn who ⟨.fcTeardown, 0, 0⟩ (setBit (w64 v) 31 true))

def execUnbench (who : Requester) (v : BitVec 32) (s : State) : Host.Outcome State Fault Refusal :=
  .next (s.regIn who ⟨.fcUnbench, 0, 0⟩ (setBit (w64 v) 31 true))

/-! ### Stops, trace, counters and inspection -/

def execFreeze (who : Requester) (s : State) : Host.Outcome State Fault Refusal := .next (s.regIn who ⟨.obStop, 0, 0⟩ 1)
def execQuiesce (who : Requester) (s : State) : Host.Outcome State Fault Refusal := .next (s.regIn who ⟨.obStop, 0, 0⟩ 2)
def execSnap (who : Requester) (s : State) : Host.Outcome State Fault Refusal := .next (s.regIn who ⟨.obStop, 0, 0⟩ 3)
def execResume (who : Requester) (s : State) : Host.Outcome State Fault Refusal := .next (s.regIn who ⟨.obStop, 0, 0⟩ 4)

/-- MODE as written; a word that gives OFF starts STREAM. -/
def execTraceModeStart (who : Requester) (v : BitVec 32) (s : State) : Host.Outcome State Fault Refusal :=
  .next (s.regIn who ⟨.trcCfg, 0, 0⟩ (if bits v 0 2 = 0 then setBits (w64 v) 0 2 1 else w64 v))

def execTraceModeOff (who : Requester) (v : BitVec 32) (s : State) : Host.Outcome State Fault Refusal :=
  .next (s.regIn who ⟨.trcCfg, 0, 0⟩ (setBits (w64 v) 0 2 0))

def execTraceHostTrigger (who : Requester) (v : BitVec 32) (s : State) : Host.Outcome State Fault Refusal :=
  .next (s.regIn who ⟨.trcCtrl, 0, 0⟩ (setBit (w64 v) 0 true))

def execGcntSnap (who : Requester) (v : BitVec 32) (s : State) : Host.Outcome State Fault Refusal :=
  .next (s.regIn who ⟨.gcntSnap, 0, 0⟩ (setBit (w64 v) 0 true))

def execSnapDumpStart (who : Requester) (v : BitVec 32) (s : State) : Host.Outcome State Fault Refusal :=
  .next (s.regIn who ⟨.snapDumpCtrl, 0, 0⟩ (setBit (w64 v) 0 true))

def execInspSelect (who : Requester) (w : Nat) (v : BitVec 64) (s : State) : Host.Outcome State Fault Refusal :=
  .next (s.regIn who ⟨.inspSel, w - 1, 0⟩ v)

def execInspectRead (who : Requester) (off : Nat) (wide : Bool) (s : State) : Host.Outcome State Fault Refusal :=
  .next (s.admitRead who off wide)

/-! ### Roster and Timebase -/

def execRosterEnable (who : Requester) (k : Nat) (v : BitVec 32) (s : State) : Host.Outcome State Fault Refusal :=
  .next (s.regIn who ⟨.roCtrl, k, 0⟩ (setBit (w64 v) 0 true))

def execRosterDisable (who : Requester) (k : Nat) (v : BitVec 32) (s : State) : Host.Outcome State Fault Refusal :=
  .next (s.regIn who ⟨.roCtrl, k, 0⟩ (setBit (w64 v) 0 false))

def execFoldTrick (who : Requester) (k : Nat) (v : BitVec 32) (s : State) : Host.Outcome State Fault Refusal :=
  .next (s.regIn who ⟨.roCtrl, k, 0⟩ (setBit (w64 v) 2 true))

def execRosterClose (who : Requester) (k : Nat) (v : BitVec 32) (s : State) : Host.Outcome State Fault Refusal :=
  .next (s.regIn who ⟨.roCtrl, k, 0⟩ (setBit (w64 v) 1 true))

def execPodPagesWrite (who : Requester) (p : Nat) (v : BitVec 64) (s : State) : Host.Outcome State Fault Refusal :=
  .next (s.regIn who ⟨.podPages, p, 0⟩ v)

def execResCommit (who : Requester) (v : BitVec 32) (s : State) : Host.Outcome State Fault Refusal :=
  .next (s.regIn who ⟨.resSel, 0, 0⟩ (setBit (w64 v) 16 true))

def execRelCommit (who : Requester) (v : BitVec 32) (s : State) : Host.Outcome State Fault Refusal :=
  .next (s.regIn who ⟨.tbRelSel, 0, 0⟩ (setBit (w64 v) 16 true))

/-! ### Link Interface -/

def execLinkAccept (who : Requester) (k : Nat) (v : BitVec 32) (s : State) : Host.Outcome State Fault Refusal :=
  .next (s.regIn who ⟨.portCtrl, k, 0⟩ (setBit (w64 v) 0 true))

def execPortEnable (who : Requester) (k : Nat) (v : BitVec 32) (s : State) : Host.Outcome State Fault Refusal :=
  .next (s.regIn who ⟨.portCfg, k, 0⟩ (setBit (w64 v) 0 true))

def execPortDisable (who : Requester) (k : Nat) (v : BitVec 32) (s : State) : Host.Outcome State Fault Refusal :=
  .next (s.regIn who ⟨.portCfg, k, 0⟩ (setBit (w64 v) 0 false))

/-- LI_PORT_EXPECT of a port, or LI_REV. -/
def execPortExpectWrite (who : Requester) (port : Option Nat) (v : BitVec 32) (s : State) : Host.Outcome State Fault Refusal :=
  .next (s.regIn who (match port with | some k => ⟨.portExpect, k, 0⟩ | none => ⟨.liRev, 0, 0⟩) (w64 v))

def execServeCommit (who : Requester) (v : BitVec 32) (s : State) : Host.Outcome State Fault Refusal :=
  .next (s.regIn who ⟨.liServeSel, 0, 0⟩ (setBit (w64 v) 16 true))

def execSliceRejectsRead (who : Requester) (k : Nat) (s : State) : Host.Outcome State Fault Refusal :=
  .next (s.admitRead who (Reg.off ⟨.sliceRejects, k, 0⟩) true)

/-! ### Any register -/

/-- A whole write, of the register's own width. -/
def execRegisterWrite (who : Requester) (off : Nat) (v : BitVec 64) (s : State) : Host.Outcome State Fault Refusal :=
  .next (s.admitWrite who off (match regAt off with | some r => r.row.wide | none => false) v)

def execLowHalfRead (who : Requester) (off : Nat) (s : State) : Host.Outcome State Fault Refusal := .next (s.admitRead who off false)
def execHighHalfRead (who : Requester) (off : Nat) (s : State) : Host.Outcome State Fault Refusal := .next (s.admitRead who off false)

def execLowHalfWrite (who : Requester) (off : Nat) (v : BitVec 32) (s : State) : Host.Outcome State Fault Refusal :=
  .next (s.admitWrite who off false (w64 v))

def execHighHalfWrite (who : Requester) (off : Nat) (v : BitVec 32) (s : State) : Host.Outcome State Fault Refusal :=
  .next (s.admitWrite who off false (w64 v))

/-- The access is legal under R11, R167, R375, R382 and R462. -/
def State.legal (s : State) (bar off size : Nat) (write : Bool) : Bool :=
  if bar = 0 then
    (decide (size = 4) || decide (size = 8)) &&
    match target off (decide (size = 8)) with
    | none => false
    | some (r, _) => !(write && decide (r.name = .aperture)) && (s.ready || (!write && earlyRead r.name)) && !s.unitGated r
  else if bar = 2 then
    let o := off % 0x1000
    decide (off / 0x1000 < 256) && s.ready && !s.gated 0 &&
    (decide (size = 4) && (decide (o = 0) || decide (o = 4) || decide (o = 8) || decide (o = 12)) || (decide (size = 8) && decide (o = 8)))
  else false

/-- ACCESS_ABORT: the access completes with a Completer Abort and takes no other action. -/
def State.accessAbort (s : State) (who : Requester) (bar off size : Nat) (write : Bool) : State :=
  if s.legal bar off size write then s else s.emit (.abort who)

def execAccessAbort (who : Requester) (bar off size : Nat) (write : Bool) (s : State) : Host.Outcome State Fault Refusal :=
  .next (s.accessAbort who bar off size write)

/-! ### The Draoft monitor -/

def execDraoftHelp (s : State) : Host.Outcome State Fault Refusal := .next (s.draoftLine .draoftHelp)
def execDraoftId (s : State) : Host.Outcome State Fault Refusal := .next (s.draoftLine .draoftId)
def execDraoftStatus (s : State) : Host.Outcome State Fault Refusal := .next (s.draoftLine .draoftStatus)
def execDraoftCnt (s : State) : Host.Outcome State Fault Refusal := .next (s.draoftLine .draoftCnt)
def execDraoftRd (off cnt : Nat) (s : State) : Host.Outcome State Fault Refusal := .next (s.draoftLine (.draoftRd off cnt))
def execDraoftObj (kind idx : Nat) (s : State) : Host.Outcome State Fault Refusal := .next (s.draoftLine (.draoftObj kind idx))
def execDraoftNode (c i : Nat) (s : State) : Host.Outcome State Fault Refusal := .next (s.draoftLine (.draoftNode c i))
def execDraoftDump (byCtx : Bool) (id : Nat) (s : State) : Host.Outcome State Fault Refusal := .next (s.draoftLine (.draoftDump byCtx id))
def execDraoftWr (off : Nat) (v : BitVec 32) (s : State) : Host.Outcome State Fault Refusal := .next (s.draoftLine (.draoftWr off v))
def execDraoftFreeze (s : State) : Host.Outcome State Fault Refusal := .next (s.draoftLine .draoftFreeze)
def execDraoftQuiesce (s : State) : Host.Outcome State Fault Refusal := .next (s.draoftLine .draoftQuiesce)
def execDraoftSnap (id : BitVec 32) (s : State) : Host.Outcome State Fault Refusal := .next (s.draoftLine (.draoftSnap id))
def execDraoftResume (s : State) : Host.Outcome State Fault Refusal := .next (s.draoftLine .draoftResume)
def execDraoftTrig (s : State) : Host.Outcome State Fault Refusal := .next (s.draoftLine .draoftTrig)

end Sys2Proof.Machine
end

