-- ==== Sys2Proof/Machine/Settings.lean ====
section
/-! DEFINITION. The settings image: how the copies are judged and chosen, and what the records of one do at start and at a reload
(R368, R374, R383 to R387, R389, R427). -/
namespace Sys2Proof.Machine

/-! ### The flash (R383); the places of JESD216's fields are PRESUMED (log entry 50) -/

/-- The JEDEC ID is all 0x00 or all 0xFF. -/
def flashAbsent (f : FlashRead) : Bool := let j := f.jedec.take 3; j.all (· = 0) || j.all (· = 0xFF)

/-- The density in bits that the parameter table declares. -/
def flashBits (f : FlashRead) : Nat :=
  let d := leAt f.bfpt 4 4
  if d < 2 ^ 31 then d + 1 else 2 ^ (d % 64)

/-- No SFDP signature, another major revision, or less than 1 Mbit. -/
def sfdpBad (f : FlashRead) : Bool := decide (leAt f.sfdp 0 4 ≠ 0x50444653) || decide (leAt f.sfdp 5 1 ≠ 1) || decide (flashBits f < 2 ^ 20)

/-! ### Headers and records (R385, R386) -/

/-- The fields that records may name: their bits, and whether they are applied at start only. -/
def settingField : RegName → Option (BitVec 64 × Bool)
  | .tsuClkCfg => some (0xF1F, true)
  | .tsuClken => some (0x800001FF, true)
  | .benchCells => some (0x87FF, true)
  | .benchRegions => some (0xFF, true)
  | .benchLe => some (0xFFFFFFFF, true)
  | .liChipId => some (0x1FFF, true)
  | .liSystem => some (0xFFFFFFFF, true)
  | .fwPolicy => some (0xFFFFFFFF00000003, true)
  | .cmdLimit => some (0xFFFFFFFF, false)
  | .drainLimit => some (0xFFFF, false)
  | .donateLimit => some (0xFFFFF, false)
  | .stallWindow => some (0xFFFF, false)
  | .fcHang => some (0xFFFFF, false)
  | .tbBeatCfg => some (0xFFFFFFFFF013, false)
  | .tbBeatPorts => some (0xFFFFFFFFFFFFFFFF, false)
  | .liRev => some (0xFFFF, false)
  | .portCfg => some (0x0FFF0007, false)
  | .portExpect => some (0x803F1FFF, false)
  | .liE2eCfg => some (0xF3FFF, false)
  | .fcPin => some (0xF00, false)
  | .uartCfg => some (0x7FFF, false)
  | _ => none

/-- A record: its register, and the bits it sets with their values. -/
structure SetRec where
  reg : Reg
  mask : BitVec 64
  value : BitVec 64

/-- The register that a record's OFFSET names, and the place of its word there. -/
def recReg (off : Nat) : Option (Reg × Nat) :=
  match regAt off with
  | some r => some (r, 0)
  | none => if 4 ≤ off then (regAt (off - 4)).bind fun r => if r.row.wide then some (r, 32) else none else none

/-- The record in 16 bytes, if it breaks no rule of R385 and R386. -/
def parseRec (b : List Byte) : Option SetRec :=
  let off := leAt b 0 4
  let m := leAt b 4 4
  let v := leAt b 8 4
  if off % 4 ≠ 0 ∨ 2 ^ 22 ≤ off ∨ m = 0 ∨ v &&& m ≠ v ∨ leAt b 12 4 ≠ 0 then none
  else match recReg off with
    | none => none
    | some (r, lo) =>
      let mask : BitVec 64 := BitVec.ofNat 64 (m * 2 ^ lo)
      match settingField r.name with
      | some (f, _) => if mask &&& ~~~f = 0 then some { reg := r, mask := mask, value := BitVec.ofNat 64 (v * 2 ^ lo) } else none
      | none => none

def chunks16 : Nat → List Byte → List (List Byte)
  | 0, _ => []
  | n + 1, bs => bs.take 16 :: chunks16 n (bs.drop 16)

/-- Every record of a copy, in order; none where one breaks a rule. -/
def parseRecs : List (List Byte) → Option (List SetRec)
  | [] => some []
  | b :: bs => match parseRec b, parseRecs bs with
    | some r, some rs => some (r :: rs)
    | _, _ => none

/-- A header is valid (R384). -/
def State.headerOk (s : State) (b : List Byte) : Bool :=
  let id := s.reg ⟨.tsuIdent, 0, 0⟩
  decide (leAt b 0 4 = 0x0A4E5C51) && decide (nbits (leAt b 4 2) 8 4 = bits id 8 4) && decide (leAt b 4 1 ≤ bits id 0 8) &&
  decide (leAt b 6 2 ≤ 4092) && decide (leAt b 0x0C 4 = 64 + 16 * leAt b 6 2)

/-- The registers named, each once, in the order of their last records. -/
def recRegs : List SetRec → List Reg
  | [] => []
  | r :: rs => let t := recRegs rs; if r.reg ∈ t then t else r.reg :: t

/-- The value that the records leave in a register. -/
def State.finalOf (s : State) (rs : List SetRec) (r : Reg) : BitVec 64 :=
  rs.foldl (fun v x => if x.reg = r then (v &&& ~~~x.mask) ||| x.value else v) (s.regValue r)

/-- A value breaks no rule of its register's fields (R387). -/
def settingOk (n : RegName) (v : BitVec 64) : Bool :=
  match n with
  | .tsuClkCfg => decide (16 ≤ bits v 0 5) && decide (bits v 0 5 ≤ 27) && decide (5 ≤ bits v 8 4) && decide (bits v 8 4 ≤ 10)
  | .cmdLimit | .drainLimit | .donateLimit | .stallWindow => limitOk n v.toNat
  | .fcHang => hangOk v.toNat
  | .tbBeatCfg => decide (bits v 0 2 ≠ 3) && decide (bits v 12 20 ≠ 0) && decide (bits v 12 20 ≤ 1000000)
  | .liRev => liRevOk v.toNat
  | .liE2eCfg => e2eOk v.toNat
  | .uartCfg => uartOk v.toNat
  | _ => true

/-- The records of a copy that passes: CRC, reserved bytes, records and final values. -/
def State.judgeCopy (s : State) (b : List Byte) : Option (List SetRec) :=
  let n := leAt b 6 2
  let img := fit (leAt b 0x0C 4) b
  let zeroed := img.take 0x10 ++ zeros 4 ++ img.drop 0x14
  if leAt b 0x10 4 ≠ (crc32c zeroed).toNat ∨ leAt b 0x14 44 ≠ 0 then none
  else match parseRecs (chunks16 n (img.drop 64)) with
    | none => none
    | some rs => if (recRegs rs).all fun r => settingOk r.name (s.finalOf rs r) then some rs else none

/-! ### The choice (R384, R427) -/

/-- What the sequencer found: the copy chosen (1 A, 2 B) with its records, or the reason of R368; and what it found of each copy it
read. -/
structure Choice where
  src : Nat := 0
  recs : List SetRec := []
  why : Nat := 2
  badA : Option Bool := none
  badB : Option Bool := none
  /-- The copies whose bodies were read, in order. -/
  read : List Nat := []

def Choice.note (c : Choice) (copy : Nat) (bad : Bool) : Choice := 
  if copy = 1 then { c with badA := some bad, read := c.read ++ [1] } else { c with badB := some bad, read := c.read ++ [copy] }

/-- Judge the copies in turn until one passes. -/
def State.tryCopies (s : State) (c : Choice) : List (Nat × List Byte) → Choice
  | [] => c
  | (k, b) :: t => match s.judgeCopy b with
    | some rs => { c.note k false with src := k, recs := rs, why := 0 }
    | none => s.tryCopies (c.note k true) t

/-- Reading and choosing under R384. -/
def State.chooseCopy (s : State) (f : FlashRead) : Choice :=
  let a := s.headerOk f.copyA
  let b := s.headerOk f.copyB
  let c : Choice := { badA := if a then none else some true, badB := if b then none else some true }
  let la := if a then [(1, f.copyA)] else []
  let lb := if b then [(2, f.copyB)] else []
  s.tryCopies c (if higher32 (leAt f.copyB 8 4) (leAt f.copyA 8 4) then lb ++ la else la ++ lb)

/-- The choice at start. -/
def State.choose (s : State) (f : FlashRead) : Choice :=
  if flashAbsent f then { why := 0 } else if sfdpBad f then { why := 1 } else s.chooseCopy f

/-! ### The commands on the SPI pins (R383) -/

/-- A read of the flash: opcode, address of 3 bytes, dummy clocks, bytes. -/
def flashRead (op addr dummy len : Nat) (dual : Bool) : Out := .spi op (leBytes 3 addr).reverse dummy len dual []

/-- The parameter table declares 1-1-2 fast read. -/
def flashDual (f : FlashRead) : Bool := (leAt f.bfpt 0 4).testBit 16

/-- The read of the body of a copy, if it has one. -/
def bodyRead (f : FlashRead) (copy : Nat) : List Out :=
  let n := leAt (if copy = 1 then f.copyA else f.copyB) 0x0C 4 - 64
  let a := (copy - 1) * 0x10000 + 64
  if n = 0 then [] else if flashDual f then [flashRead 0x3B a 8 n true] else [flashRead 0x03 a 0 n false]

/-- Commands 4 to 6: both headers, and the bodies of the copies read. -/
def Choice.commands (c : Choice) (f : FlashRead) : List Out :=
  [flashRead 0x03 0 0 64 false, flashRead 0x03 0x10000 0 64 false] ++ c.read.flatMap (bodyRead f)

/-- The commands of a start, which end with the command whose answer ends the read. -/
def Choice.startCommands (c : Choice) (f : FlashRead) : List Out :=
  .spi 0x9F [] 0 3 false [] ::
    (if flashAbsent f then []
     else flashRead 0x5A 0 8 16 false ::
      (if leAt f.sfdp 0 4 ≠ 0x50444653 ∨ leAt f.sfdp 5 1 ≠ 1 then []
       else flashRead 0x5A (leAt f.sfdp 0x0C 3) 8 64 false :: (if sfdpBad f then [] else c.commands f)))

/-- TSU_SETTINGS.A_BAD and B_BAD; a copy left unread keeps its bit. -/
def State.noteBad (s : State) (c : Choice) : State :=
  let r : Reg := ⟨.tsuSettings, 0, 0⟩
  let s := match c.badA with | some b => s.setFld r 4 1 b.toNat | none => s
  match c.badB with | some b => s.setFld r 5 1 b.toNat | none => s

/-! ### Applying records (R374 step 4, R387, R389) -/

/-- The register's fields that records may set are applied at start only. -/
def startOnly (r : Reg) : Bool := match settingField r.name with | some (_, b) => b | none => false

/-- A start field takes its value. Region cores of a region benched by it are held. -/
def State.putStart (s : State) (r : Reg) (v : BitVec 64) : State :=
  match r.name with
  | .tsuClken => s.writeClken v
  | .benchRegions => (s.setReg r v).each ((List.range 8).filter fun k => bit v k) fun s k => s.updCore k fun c => { c with st := 4 }
  | _ => s.setReg r v

/-- The start fields first, then the live ones, each with the effects of a write by the driver. -/
def State.applyAtStart (s : State) (rs : List SetRec) : State :=
  let all := (recRegs rs).map fun r => (r, s.finalOf rs r)
  let s := s.each (all.filter fun x => startOnly x.1) fun s x => s.putStart x.1 x.2
  s.each (all.filter fun x => !startOnly x.1) fun s x => s.writeReg .host x.1 (x.2 &&& x.1.row.rw)

/-- A live record is applied, as the driver writes its field; a register's other fields keep their values. -/
def State.applyRec (s : State) (x : SetRec) : State :=
  s.writeReg .host x.reg (((s.regValue x.reg &&& ~~~x.mask) ||| x.value) &&& x.reg.row.rw)

/-- At a reload the live records are applied one by one; a start record whose value differs sets PENDING. -/
def State.applyLive (s : State) (rs : List SetRec) : State :=
  let all := (recRegs rs).map fun r => (r, s.finalOf rs r)
  let late := all.any fun x => startOnly x.1 && (rs.any fun y => decide (y.reg = x.1) && decide ((x.2 ^^^ s.regValue x.1) &&& y.mask ≠ 0))
  let s := if late then s.setFld ⟨.tsuSettings, 0, 0⟩ 8 1 1 else s
  s.each (rs.filter fun x => !startOnly x.reg) State.applyRec

/-- SETTINGS_READ: steps 2 and 4 of R374. -/
def State.settingsRead (s : State) (f : FlashRead) : State :=
  if s.st.phase ≠ .settings then s
  else
    let c := s.choose f
    let t := (s.each (c.startCommands f) State.emit).noteBad c
    let t := (t.setFld ⟨.tsuStart, 0, 0⟩ 4 2 c.src).setFld ⟨.tsuStart, 0, 0⟩ 2 2 c.why
    let t := if c.src = 0 then t.report { typ := 0x2D, source := sourceUnit 9, body := [c.why] } else t.applyAtStart c.recs
    { t with st := { t.st with phase := .pll } }

def execSettingsRead (f : FlashRead) (s : State) : Host.Outcome State Fault Refusal := .next (s.settingsRead f)

/-- RELOAD_COMPLETE. -/
def State.reloadComplete (s : State) (f : FlashRead) : State :=
  if ¬ s.sv.reloading then s
  else
    let c := s.chooseCopy f
    let t := (State.each { s with sv := { s.sv with reloading := false } } (c.commands f) State.emit).noteBad c
    if c.src = 0 then t.orReg ⟨.tsuSettings, 0, 0⟩ 0x200
    else ((t.setFld ⟨.tsuStart, 0, 0⟩ 4 2 c.src).setFld ⟨.tsuStart, 0, 0⟩ 2 2 0).applyLive c.recs

def execReloadComplete (f : FlashRead) (s : State) : Host.Outcome State Fault Refusal := .next (s.reloadComplete f)

end Sys2Proof.Machine
end

