-- ==== Sys2Proof/Machine/Dispatch.lean ====
section
/-! DEFINITION. The meaning of every command: one arm per constructor, one direct call each. -/
namespace Sys2Proof.Machine

/-- The effect of a command on everything but the queue. -/
def exec (i : Instr) (s : State) : Host.Outcome State Fault Refusal :=
  match i with
  | .doorbellWrite n v => Sys2Proof.Machine.execDoorbellWrite n v s
  | .shadowPoll n => Sys2Proof.Machine.execShadowPoll n s
  | .ringFetch n => Sys2Proof.Machine.execRingFetch n s
  | .slotIdleCheck n => Sys2Proof.Machine.execSlotIdleCheck n s
  | .slotEnable who n v => Sys2Proof.Machine.execSlotEnable who n v s
  | .slotDisable who n v => Sys2Proof.Machine.execSlotDisable who n v s
  | .destroy who n => Sys2Proof.Machine.execDestroy who n s
  | .destroyFinish n => Sys2Proof.Machine.execDestroyFinish n s
  | .restart who n skip => Sys2Proof.Machine.execRestart who n skip s
  | .nop n => Sys2Proof.Machine.execNop n s
  | .launchGraph n => Sys2Proof.Machine.execLaunchGraph n s
  | .appendNodes n => Sys2Proof.Machine.execAppendNodes n s
  | .templateRelease n => Sys2Proof.Machine.execTemplateRelease n s
  | .rosterAdmit n => Sys2Proof.Machine.execRosterAdmit n s
  | .rosterExtend n => Sys2Proof.Machine.execRosterExtend n s
  | .rosterFold n => Sys2Proof.Machine.execRosterFold n s
  | .foldCommand n => Sys2Proof.Machine.execFoldCommand n s
  | .report n => Sys2Proof.Machine.execReport n s
  | .indirectPointerRead c j => Sys2Proof.Machine.execIndirectPointerRead c j s
  | .commandRetire n seq => Sys2Proof.Machine.execCommandRetire n seq s
  | .completionRecordWrite n => Sys2Proof.Machine.execCompletionRecordWrite n s
  | .irqCoalesceTimeout n => Sys2Proof.Machine.execIrqCoalesceTimeout n s
  | .commandWatchdog n seq => Sys2Proof.Machine.execCommandWatchdog n seq s
  | .tsetCommit who p v => Sys2Proof.Machine.execTsetCommit who p v s
  | .tsetSelect who p v => Sys2Proof.Machine.execTsetSelect who p v s
  | .tileOwnerWrite who j v => Sys2Proof.Machine.execTileOwnerWrite who j v s
  | .tileDeparted j => Sys2Proof.Machine.execTileDeparted j s
  | .swapqPush who p v => Sys2Proof.Machine.execSwapqPush who p v s
  | .swapqPop who p v => Sys2Proof.Machine.execSwapqPop who p v s
  | .contextSave who c v => Sys2Proof.Machine.execContextSave who c v s
  | .saveImageWrite c => Sys2Proof.Machine.execSaveImageWrite c s
  | .contextRestore who c v => Sys2Proof.Machine.execContextRestore who c v s
  | .restoreComplete c => Sys2Proof.Machine.execRestoreComplete c s
  | .rearm who c v => Sys2Proof.Machine.execRearm who c v s
  | .windowWrite who edges c v => Sys2Proof.Machine.execWindowWrite who edges c v s
  | .objInitCommit who v => Sys2Proof.Machine.execObjInitCommit who v s
  | .objFreeCommit who v => Sys2Proof.Machine.execObjFreeCommit who v s
  | .objSelect who v => Sys2Proof.Machine.execObjSelect who v s
  | .xlatInv who v => Sys2Proof.Machine.execXlatInv who v s
  | .xlatInvDone => Sys2Proof.Machine.execXlatInvDone s
  | .syncDumpStart who v => Sys2Proof.Machine.execSyncDumpStart who v s
  | .syncDumpDone => Sys2Proof.Machine.execSyncDumpDone s
  | .modeWrite who v => Sys2Proof.Machine.execModeWrite who v s
  | .holdWrite who v => Sys2Proof.Machine.execHoldWrite who v s
  | .lockstepRestart who v => Sys2Proof.Machine.execLockstepRestart who v s
  | .chipResetWrite who v => Sys2Proof.Machine.execChipResetWrite who v s
  | .compatWrite who v => Sys2Proof.Machine.execCompatWrite who v s
  | .settingsReload who v => Sys2Proof.Machine.execSettingsReload who v s
  | .reloadComplete f => Sys2Proof.Machine.execReloadComplete f s
  | .spiGo who v => Sys2Proof.Machine.execSpiGo who v s
  | .spiDone rx => Sys2Proof.Machine.execSpiDone rx s
  | .firmwareLoad who k v => Sys2Proof.Machine.execFirmwareLoad who k v s
  | .firmwareLoaded k => Sys2Proof.Machine.execFirmwareLoaded k s
  | .watchdogKick who k v => Sys2Proof.Machine.execWatchdogKick who k v s
  | .draoftLock who v => Sys2Proof.Machine.execDraoftLock who v s
  | .driverTeardown who v => Sys2Proof.Machine.execDriverTeardown who v s
  | .unbench who v => Sys2Proof.Machine.execUnbench who v s
  | .unbenchComplete ok => Sys2Proof.Machine.execUnbenchComplete ok s
  | .freeze who => Sys2Proof.Machine.execFreeze who s
  | .quiesce who => Sys2Proof.Machine.execQuiesce who s
  | .quiesceReached => Sys2Proof.Machine.execQuiesceReached s
  | .snap who => Sys2Proof.Machine.execSnap who s
  | .resume who => Sys2Proof.Machine.execResume who s
  | .traceModeStart who v => Sys2Proof.Machine.execTraceModeStart who v s
  | .traceModeOff who v => Sys2Proof.Machine.execTraceModeOff who v s
  | .traceHostTrigger who v => Sys2Proof.Machine.execTraceHostTrigger who v s
  | .gcntSnap who v => Sys2Proof.Machine.execGcntSnap who v s
  | .snapDumpStart who v => Sys2Proof.Machine.execSnapDumpStart who v s
  | .snapDumpDone => Sys2Proof.Machine.execSnapDumpDone s
  | .inspSelect who w v => Sys2Proof.Machine.execInspSelect who w v s
  | .inspectRead who off wide => Sys2Proof.Machine.execInspectRead who off wide s
  | .rosterEnable who k v => Sys2Proof.Machine.execRosterEnable who k v s
  | .rosterDisable who k v => Sys2Proof.Machine.execRosterDisable who k v s
  | .foldTrick who k v => Sys2Proof.Machine.execFoldTrick who k v s
  | .rosterClose who k v => Sys2Proof.Machine.execRosterClose who k v s
  | .linkAccept who k v => Sys2Proof.Machine.execLinkAccept who k v s
  | .portEnable who k v => Sys2Proof.Machine.execPortEnable who k v s
  | .portDisable who k v => Sys2Proof.Machine.execPortDisable who k v s
  | .portExpectWrite who port v => Sys2Proof.Machine.execPortExpectWrite who port v s
  | .serveCommit who v => Sys2Proof.Machine.execServeCommit who v s
  | .resCommit who v => Sys2Proof.Machine.execResCommit who v s
  | .relCommit who v => Sys2Proof.Machine.execRelCommit who v s
  | .podPagesWrite who p v => Sys2Proof.Machine.execPodPagesWrite who p v s
  | .resBindingWrite who c v => Sys2Proof.Machine.execResBindingWrite who c v s
  | .rqEnable who v => Sys2Proof.Machine.execRqEnable who v s
  | .rqDisable who v => Sys2Proof.Machine.execRqDisable who v s
  | .rqRdWrite who v => Sys2Proof.Machine.execRqRdWrite who v s
  | .cplRdWrite who n v => Sys2Proof.Machine.execCplRdWrite who n v s
  | .registerWrite who off v => Sys2Proof.Machine.execRegisterWrite who off v s
  | .lowHalfRead who off => Sys2Proof.Machine.execLowHalfRead who off s
  | .lowHalfWrite who off v => Sys2Proof.Machine.execLowHalfWrite who off v s
  | .highHalfWrite who off v => Sys2Proof.Machine.execHighHalfWrite who off v s
  | .accessAbort who bar off size write => Sys2Proof.Machine.execAccessAbort who bar off size write s
  | .resolverUpdate => Sys2Proof.Machine.execResolverUpdate s
  | .scrub c r => Sys2Proof.Machine.execScrub c r s
  | .nodeDispatch c j => Sys2Proof.Machine.execNodeDispatch c j s
  | .offerAnswer r c j => Sys2Proof.Machine.execOfferAnswer r c j s
  | .answerArrival r c j => Sys2Proof.Machine.execAnswerArrival r c j s
  | .collectWindowClose c j => Sys2Proof.Machine.execCollectWindowClose c j s
  | .offerConfirm r c j => Sys2Proof.Machine.execOfferConfirm r c j s
  | .offerWithdraw r c j => Sys2Proof.Machine.execOfferWithdraw r c j s
  | .backlogDispatch p r => Sys2Proof.Machine.execBacklogDispatch p r s
  | .issueSlot r => Sys2Proof.Machine.execIssueSlot r s
  | .leIssueSlot => Sys2Proof.Machine.execLeIssueSlot s
  | .startReport e => Sys2Proof.Machine.execStartReport e s
  | .engineCompletion e st word => Sys2Proof.Machine.execEngineCompletion e st word s
  | .completionAccept e => Sys2Proof.Machine.execCompletionAccept e s
  | .shareDone r c j => Sys2Proof.Machine.execShareDone r c j s
  | .leCompletion k st word => Sys2Proof.Machine.execLeCompletion k st word s
  | .combineRequest e => Sys2Proof.Machine.execCombineRequest e s
  | .combineDone e => Sys2Proof.Machine.execCombineDone e s
  | .loopStart c j => Sys2Proof.Machine.execLoopStart c j s
  | .loopIterationEnd c j => Sys2Proof.Machine.execLoopIterationEnd c j s
  | .sproutRead c j => Sys2Proof.Machine.execSproutRead c j s
  | .remoteSend c j => Sys2Proof.Machine.execRemoteSend c j s
  | .dynRetry c => Sys2Proof.Machine.execDynRetry c s
  | .drainReport e st => Sys2Proof.Machine.execDrainReport e st s
  | .drainLimitExpiry e lines => Sys2Proof.Machine.execDrainLimitExpiry e lines s
  | .cellResetDone e => Sys2Proof.Machine.execCellResetDone e s
  | .cellResetTimeout e => Sys2Proof.Machine.execCellResetTimeout e s
  | .fanoutExpand => Sys2Proof.Machine.execFanoutExpand s
  | .landingWaitResume => Sys2Proof.Machine.execLandingWaitResume s
  | .fanoutInstantiate => Sys2Proof.Machine.execFanoutInstantiate s
  | .fanoutComplete c j => Sys2Proof.Machine.execFanoutComplete c j s
  | .callSlotFree x => Sys2Proof.Machine.execCallSlotFree x s
  | .landingTimeout l => Sys2Proof.Machine.execLandingTimeout l s
  | .landingFree l => Sys2Proof.Machine.execLandingFree l s
  | .trickCompose c j => Sys2Proof.Machine.execTrickCompose c j s
  | .composeRetry c j => Sys2Proof.Machine.execComposeRetry c j s
  | .trickInstantiate k => Sys2Proof.Machine.execTrickInstantiate k s
  | .trickEnd k => Sys2Proof.Machine.execTrickEnd k s
  | .retireRecordWrite k => Sys2Proof.Machine.execRetireRecordWrite k s
  | .logRecordWrite k => Sys2Proof.Machine.execLogRecordWrite k s
  | .importLanded slot => Sys2Proof.Machine.execImportLanded slot s
  | .signalNode c j => Sys2Proof.Machine.execSignalNode c j s
  | .waitNodeRegister c j => Sys2Proof.Machine.execWaitNodeRegister c j s
  | .waiterRecordGrant => Sys2Proof.Machine.execWaiterRecordGrant s
  | .syncSet e vid sc => Sys2Proof.Machine.execSyncSet e vid sc s
  | .syncClear e vid sc => Sys2Proof.Machine.execSyncClear e vid sc s
  | .syncAdvance e vid sc amt => Sys2Proof.Machine.execSyncAdvance e vid sc amt s
  | .syncRelease e vid sc => Sys2Proof.Machine.execSyncRelease e vid sc s
  | .syncWait e vid sc cond thr => Sys2Proof.Machine.execSyncWait e vid sc cond thr s
  | .syncClaim e vid sc => Sys2Proof.Machine.execSyncClaim e vid sc s
  | .syncTryClaim e vid sc => Sys2Proof.Machine.execSyncTryClaim e vid sc s
  | .syncRead e vid sc => Sys2Proof.Machine.execSyncRead e vid sc s
  | .xlatFill c vid => Sys2Proof.Machine.execXlatFill c vid s
  | .invalRequest e addr len => Sys2Proof.Machine.execInvalRequest e addr len s
  | .invalDone e => Sys2Proof.Machine.execInvalDone e s
  | .teardownContinue c => Sys2Proof.Machine.execTeardownContinue c s
  | .cellHang e lines => Sys2Proof.Machine.execCellHang e lines s
  | .cellUncorrectable e lines => Sys2Proof.Machine.execCellUncorrectable e lines s
  | .cellPortParity e lines => Sys2Proof.Machine.execCellPortParity e lines s
  | .mirrorParity tile lines => Sys2Proof.Machine.execMirrorParity tile lines s
  | .dealerParity r => Sys2Proof.Machine.execDealerParity r s
  | .dealerRebuilt r => Sys2Proof.Machine.execDealerRebuilt r s
  | .regionPathFault r b => Sys2Proof.Machine.execRegionPathFault r b s
  | .pathResetDone r ok => Sys2Proof.Machine.execPathResetDone r ok s
  | .leBench k reason => Sys2Proof.Machine.execLeBench k reason s
  | .serviceWatchdogExpiry k => Sys2Proof.Machine.execServiceWatchdogExpiry k s
  | .servicePathParity k => Sys2Proof.Machine.execServicePathParity k s
  | .supplyWarn die => Sys2Proof.Machine.execSupplyWarn die s
  | .supplyClear die => Sys2Proof.Machine.execSupplyClear die s
  | .supplyRecover die => Sys2Proof.Machine.execSupplyRecover die s
  | .clockRampStep die => Sys2Proof.Machine.execClockRampStep die s
  | .supplyReset => Sys2Proof.Machine.execSupplyReset s
  | .rqPacketWrite => Sys2Proof.Machine.execRqPacketWrite s
  | .vectorSignal v => Sys2Proof.Machine.execVectorSignal v s
  | .deadlineTick => Sys2Proof.Machine.execDeadlineTick s
  | .suspendReport e => Sys2Proof.Machine.execSuspendReport e s
  | .suspendTimeout e => Sys2Proof.Machine.execSuspendTimeout e s
  | .donateTimeout f => Sys2Proof.Machine.execDonateTimeout f s
  | .allBlocked p => Sys2Proof.Machine.execAllBlocked p s
  | .autoSwapRestore p => Sys2Proof.Machine.execAutoSwapRestore p s
  | .beatTick => Sys2Proof.Machine.execBeatTick s
  | .beatPinEdge => Sys2Proof.Machine.execBeatPinEdge s
  | .beatFlywheel => Sys2Proof.Machine.execBeatFlywheel s
  | .beatParcelReceive k q => Sys2Proof.Machine.execBeatParcelReceive k q s
  | .beatRemoteApply => Sys2Proof.Machine.execBeatRemoteApply s
  | .beatPinInverted => Sys2Proof.Machine.execBeatPinInverted s
  | .monitorEvaluate c j => Sys2Proof.Machine.execMonitorEvaluate c j s
  | .slowdownReport => Sys2Proof.Machine.execSlowdownReport s
  | .blockReceive k bytes => Sys2Proof.Machine.execBlockReceive k bytes s
  | .nakReceive k seq => Sys2Proof.Machine.execNakReceive k seq s
  | .hopAckTimeout k => Sys2Proof.Machine.execHopAckTimeout k s
  | .transmitSlot k => Sys2Proof.Machine.execTransmitSlot k s
  | .decrementReceive k q => Sys2Proof.Machine.execDecrementReceive k q s
  | .signalReceive k q => Sys2Proof.Machine.execSignalReceive k q s
  | .expertCallReceive k q => Sys2Proof.Machine.execExpertCallReceive k q s
  | .returnReceive k q => Sys2Proof.Machine.execReturnReceive k q s
  | .ackReceive k q => Sys2Proof.Machine.execAckReceive k q s
  | .helloReceive k q => Sys2Proof.Machine.execHelloReceive k q s
  | .cutMarkerReceive k q => Sys2Proof.Machine.execCutMarkerReceive k q s
  | .cutMarkerTimeout k => Sys2Proof.Machine.execCutMarkerTimeout k s
  | .e2eResend dest seq => Sys2Proof.Machine.execE2eResend dest seq s
  | .helloSend k => Sys2Proof.Machine.execHelloSend k s
  | .linkSilent k => Sys2Proof.Machine.execLinkSilent k s
  | .phyReady k => Sys2Proof.Machine.execPhyReady k s
  | .phyLost k => Sys2Proof.Machine.execPhyLost k s
  | .retrainExpiry k => Sys2Proof.Machine.execRetrainExpiry k s
  | .chipReset => Sys2Proof.Machine.execChipReset s
  | .settingsRead f => Sys2Proof.Machine.execSettingsRead f s
  | .gsInitDone => Sys2Proof.Machine.execGsInitDone s
  | .pllStable d => Sys2Proof.Machine.execPllStable d s
  | .startReady => Sys2Proof.Machine.execStartReady s
  | .lockstepTick => Sys2Proof.Machine.execLockstepTick s
  | .nativeGateStop u => Sys2Proof.Machine.execNativeGateStop u s
  | .traceFrameSend => Sys2Proof.Machine.execTraceFrameSend s
  | .traceAlignSend => Sys2Proof.Machine.execTraceAlignSend s
  | .uartRxFault => Sys2Proof.Machine.execUartRxFault s
  | .uartRxRecover => Sys2Proof.Machine.execUartRxRecover s
  | .beatOutShort => Sys2Proof.Machine.execBeatOutShort s
  | .draoftHelp => Sys2Proof.Machine.execDraoftHelp s
  | .draoftId => Sys2Proof.Machine.execDraoftId s
  | .draoftStatus => Sys2Proof.Machine.execDraoftStatus s
  | .draoftCnt => Sys2Proof.Machine.execDraoftCnt s
  | .draoftRd off cnt => Sys2Proof.Machine.execDraoftRd off cnt s
  | .draoftObj kind idx => Sys2Proof.Machine.execDraoftObj kind idx s
  | .draoftNode c j => Sys2Proof.Machine.execDraoftNode c j s
  | .draoftDump byCtx id => Sys2Proof.Machine.execDraoftDump byCtx id s
  | .draoftWr off v => Sys2Proof.Machine.execDraoftWr off v s
  | .draoftFreeze => Sys2Proof.Machine.execDraoftFreeze s
  | .draoftQuiesce => Sys2Proof.Machine.execDraoftQuiesce s
  | .draoftSnap id => Sys2Proof.Machine.execDraoftSnap id s
  | .draoftResume => Sys2Proof.Machine.execDraoftResume s
  | .draoftTrig => Sys2Proof.Machine.execDraoftTrig s
  | .highHalfRead who off => Sys2Proof.Machine.execHighHalfRead who off s
  | .returnParcelSend e x off payload => Sys2Proof.Machine.execReturnParcelSend e x off payload s
  | .deviceMemoryRequest e addr granules data => Sys2Proof.Machine.execDeviceMemoryRequest e addr granules data s
  | .msixUnmask v => Sys2Proof.Machine.execMsixUnmask v s
  | .sliceRejectsRead who k => Sys2Proof.Machine.execSliceRejectsRead who k s
  | .beatInFailsafe => Sys2Proof.Machine.execBeatInFailsafe s
  | .beatInFailsafeClear => Sys2Proof.Machine.execBeatInFailsafeClear s
  | .beatOutShortEnd => Sys2Proof.Machine.execBeatOutShortEnd s

end Sys2Proof.Machine
end

