-- ==== Sys2Proof/Machine/Hub.lean ====
section
/-! DEFINITION. One hub cycle with nothing commanded: what counts hub cycles, the fill check of the Report Queue, and the clocks of
sub-units that hold work (R154, R156, R183, R191, R192, R216, R285, R287, R296, R380, R401; DESIGN CHOICE, log entry 3). -/
namespace Sys2Proof.Machine

/-- Slots whose completion records wait for room. -/
def State.countCplFull (s : State) : State :=
  s.each s.fe.slots fun s x => if x.2.waiting ≠ [] ∧ s.cplFull x.1 then s.bump ⟨.slotCplFull, x.1, 0⟩ 1 else s

/-- Rosters whose retire or log records wait for room. -/
def State.countRings (s : State) : State :=
  s.each s.rs.ros fun s x =>
    let s := if x.2.retire ≠ [] ∧ s.retireFull x.1 then s.bump ⟨.roRetireFull, x.1, 0⟩ 1 else s
    match x.2.trick with
    | some t => if t.resulted ∧ s.roLogEn x.1 ∧ s.logFull x.1 t then s.bump ⟨.roLogFull, x.1, 0⟩ 1 else s
    | none => s

/-- Hub cycles spent waiting: a source at its event handshake, WAIT nodes for a waiter record, parcels for an end-to-end number. -/
def State.countWaits (s : State) : State :=
  let s := if s.fe.stalled = [] then s else s.bump ⟨.rqStalls, 0, 0⟩ 1
  let s := s.bump ⟨.waiterFull, 0, 0⟩ s.sy.recWait.length
  let s := s.bump (liCnt 4) s.li.numberWait.length
  s.countCplFull.countRings

/-- A request of the engine waits at its region ordering point for its pod's regulator. -/
def State.regulated (s : State) (e : Nat) : Bool := s.dl.memWait.any fun x => x.2.any fun q => decide (q.e = e)

/-- A RETURN of link engine `e` waits for a block slot: whether its port's slots last went to another pod than `p`, whose regulator
does not hold it. -/
def State.linkWait (s : State) (e p : Nat) : Option Bool :=
  (s.li.retWait.find? fun (x : Nat × Parcel) => decide (x.1 = e)).map fun x =>
    !s.linkHeld p && (match s.route x.2.rset x.2.dst with | some k => decide ((s.port k).rotor ≠ p) | none => false)

/-- The class of an engine's two tile cycles: its own stall while a regulator holds it, idle in a WAIT or CLAIM, busy otherwise. A link
engine whose RETURN waits counts its own stall, or the other's where the port served another pod. What an engine waits for at a memory
arbiter is not seen at its port (DESIGN CHOICE, log entry 57). -/
def State.countEngine (s : State) (e : Nat) (x : Engine) : State :=
  let idle (s : State) : State := s.updEng e fun x => { x with stall := x.stall + 1 }
  match x.job with
  | none => s
  | some l =>
    if s.regulated e then (idle s).updSlow l.pod fun c => { c with o := c.o + 2 }
    else if let some other := s.linkWait e l.pod then
      (idle s).updSlow l.pod fun c => if other then { c with x := c.x + 2 } else { c with o := c.o + 2 }
    else if s.engWaits e then idle s
    else s.updSlow l.pod fun c => { c with b := c.b + 2 }

/-- In native mode a sub-unit that holds work has its clock. -/
def State.wakeBusy (s : State) : State :=
  if s.compat then s
  else s.each (List.range 9) fun s u => if bit (s.reg ⟨.tsuClken, 0, 0⟩) (16 + u) ∧ s.unitBusy u then s.setGated u false else s

/-- A hub cycle. None passes while SNAPPED, nor in a LOCKSTEP supply stop. -/
def State.hubCycle (s : State) : State :=
  if s.ob.stop = .snapped ∨ (s.lockstep ∧ (List.range 9).any s.dipped) then s
  else
    let was := s
    let s := (s.bump (gcnt 0) 1).settleShort.gateOpen
    let s := if s.hubOn then s.countWaits else s
    let s := s.each s.dl.engines fun s x => s.countEngine x.1 x.2
    s.highCheck.wakeBusy.orderRecs was

end Sys2Proof.Machine
end

