-- ==== Sys2Proof/Safety.lean ====
section
/-! DEFINITION. What counts as a safe state of the block, and when a command meets nothing that holds or refuses it: the terms the
statements use. -/
namespace Sys2Proof.Machine

/-- External memory is in its canonical form: addresses strictly rising, and no byte listed at what an unlisted one reads as. -/
def Memory.wf (m : List Host.Cell) : Bool := twf 0 m

/-- External memory keeps its canonical form. -/
def State.Wf (s : State) : Prop := Memory.wf s.mem = true

/-- Sub-unit `u` works, and no stop is taken or being taken (R191, R382, R415). -/
def State.live (s : State) (u : Nat) : Bool := s.runs u && s.open

/-- A whole access of register `r` takes effect as it arrives, and `w` is the state it then meets: Tsuica is READY (R375), no
lockstep tick holds the access (R328), no write is held from SNAPPED (R416), the register's sub-unit is not stopped under KL-400
compatibility (R382), and in native mode its clock runs (R380). -/
def State.admits (s : State) (r : Reg) (w : State) : Prop :=
  s.ready = true ∧ s.lockstep = false ∧ s.ob.stop ≠ .snapped ∧ s.ob.snapHeld = [] ∧ s.unitGated r = false ∧ w = s.wakeFor r

/-- The same for a register of the Observation Unit or the service cores, whose writes SNAPPED does not hold (R416). -/
def State.admitsStop (s : State) (r : Reg) (w : State) : Prop :=
  s.ready = true ∧ s.inputsWait = false ∧ s.ob.snapHeld = [] ∧ s.unitGated r = false ∧ w = s.wakeFor r

/-- The same for a doorbell page of BAR2, whose sub-unit is the Front End (R167, R380, R382). -/
def State.admitsBell (s w : State) : Prop :=
  s.ready = true ∧ s.lockstep = false ∧ s.ob.stop ≠ .snapped ∧ s.ob.snapHeld = [] ∧ s.gated 0 = false ∧ w = s.wake 0

/-- A read at place `w`, a space and an address, is not of host memory in LOCKSTEP, where a tick holds what it brings (R328). -/
def State.atOnce (s : State) (w : Option (Nat × Nat)) : Bool :=
  !(s.lockstep && match w with | some x => s.hostAt x.1 x.2 | none => false)

/-- The head of slot `n`'s fetch buffer is descriptor `d` of opcode `op`, the slot may take it, and the Front End finds nothing wrong
with it (R173 to R180, R468). -/
def State.heads (s : State) (n op : Nat) (d : RingDesc) : Prop :=
  ∃ e rest bs, (s.slot n).buf = e :: rest ∧ e.bytes = some bs ∧ d = RingDesc.ofBytes bs ∧ d.opcode = op ∧ s.headOpen n d = true ∧
    s.live 0 = true ∧ s.feCause n bs d = none

/-- The state once the descriptor is taken: it leaves the buffer, and its command is open under the next number (R179). -/
def State.taken (s : State) (n : Nat) (d : RingDesc) : State := (s.popHead n).assign n d

/-- Operation `q` comes to the Sync Unit, whose clock runs in state `t` (R380, R382), finds its translation `w` cached and no request
before it waiting for the same one, and `w` names the local object with key `key`, which is allocated, not orphaned, in the pod's range and
of the operation's kind (R202 to R206, R222). -/
def State.reaches (s t : State) (q : SyncReq) (w : BitVec 64) (key : Nat) : Prop :=
  t = s.wake 3 ∧ t.gated 3 = false ∧ q.vid < t.fld ⟨.xlatLimit, q.src.ctx, 0⟩ 0 25 ∧ t.cached q.src.ctx q.vid = some w ∧
    t.xlatBefore q = false ∧ t.entryCause q w = none ∧ bits w 61 2 ≠ 3 ∧ key = entryKey w ∧ (t.obj key).orphaned = false

/-- Engine `e` may make request `op`, which reaches object `key` through entry `w` as `q` in state `t`: no write of the engine that the
request must follow waits at its port, nor a request before it (R213, R219). -/
def State.asks (s t : State) (e vid : Nat) (sc : Sys2Proof.Scope) (op : SyncOp) (q : SyncReq) (w : BitVec 64) (key : Nat) : Prop :=
  ∃ l, (s.eng e).job = some l ∧ s.takes 3 = true ∧ s.pathUp e = true ∧ (s.eng e).reset = none ∧
    (op.waits = true → s.engWaits e = false ∧ (s.eng e).drain = none) ∧
    (s.writesWait e = true → op.waits = true ∨ scopeCode sc < 2) ∧ (∀ x, x ∈ s.sy.portWait → x.src.isEngine e = false) ∧
    q = { src := .engine e l.ctx, vid := vid, scope := scopeCode sc, op := op } ∧ s.reaches t q w key

/-- The two counters of an operation of context `c` (R426, R287). -/
def State.counted (s : State) (c : Nat) : State := (s.bump (gcnt 5) 1).bump (ctxCnt c 12) 1

/-- Parcel `p` of type `typ` heads queue `q` of port `k`, may be taken now, and is for this chip (R299, R313, R314, R328). -/
def State.arrives (s : State) (k q typ : Nat) (p : Parcel) : Prop :=
  (∃ blk, s.headParcel k q = some (p, blk)) ∧ p.body.typ = typ ∧ s.runs 6 = true ∧ s.lockstep = false ∧
    (p.isCtl = true ∨ (s.sliceOk k p.slice = true ∧ p.dst = s.chipId))

/-- The parcel is a request, and `t` is the state once it is counted and its number is recorded as taken (R297, R401). -/
def State.accepts (s : State) (p : Parcel) (t : State) : Prop := p.isReq = true ∧ (s.bump (gcnt 7) 1).judgeE2e p = (t, true)

/-- Request `p` is new here: of a later incarnation of its chip than the newest seen, or of that one with a number that has been neither
taken nor passed (R297). -/
def State.fresh (s : State) (p : Parcel) : Prop :=
  p.isReq = true ∧
    let x := s.src p.src
    let d := (p.incarn + 2 ^ 16 - x.incarn % 2 ^ 16) % 2 ^ 16
    (d ≠ 0 ∧ d < 2 ^ 15) ∨ (d = 0 ∧ tfind x.taken p.e2e = none ∧ (p.e2e = x.next ∨ above32 p.e2e x.next < 2 ^ 31))

/-- A new request counted among the parcels received, its number taken and its incarnation the newest (R297, R401). -/
def State.tookReq (s : State) (p : Parcel) : State :=
  (s.bump (gcnt 7) 1).updSrc p.src fun x =>
    (if p.incarn % 2 ^ 16 = x.incarn % 2 ^ 16 then x else { incarn := p.incarn, next := p.e2e }).take p.e2e

/-- A line of the monitor of level `lvl` is carried out as it ends, in session `a`: the service cores' clock runs, the hub core runs, its
receiver is on, the level is allowed, and no lockstep tick holds it (R418, R443). -/
def State.console (s : State) (lvl : Nat) (a : State) : Prop :=
  s.gated 8 = false ∧ (∀ x ∈ s.st.atGate, x.1 ≠ 8) ∧ ∃ t : State, t = s.wake 8 ∧
    (t.core 8).st = 2 ∧ t.sv.uartOff = false ∧ t.ready = true ∧ 1 ≤ t.fld ⟨.svDraoft, 0, 0⟩ 0 2 ∧
    lvl ≤ t.fld ⟨.svDraoft, 0, 0⟩ 0 2 ∧ t.inputsWait = false ∧ t.ob.snapHeld = [] ∧
    a = { t with sv := { t.sv with session := true } }

/-- The commands that may store to external memory, by their own effect or through a held write that they let in. -/
def mayStore : Instr → Bool
  | .doorbellWrite .. | .ringFetch .. | .slotEnable .. | .slotDisable .. | .destroy .. | .destroyFinish .. | .restart ..
  | .nop .. | .launchGraph .. | .appendNodes .. | .templateRelease .. | .rosterAdmit .. | .rosterExtend .. | .rosterFold ..
  | .foldCommand .. | .report .. | .commandRetire .. | .completionRecordWrite .. | .tsetCommit .. | .tsetSelect ..
  | .tileOwnerWrite .. | .swapqPush .. | .swapqPop .. | .contextSave .. | .saveImageWrite .. | .contextRestore ..
  | .restoreComplete .. | .rearm .. | .windowWrite .. | .objInitCommit .. | .objFreeCommit .. | .objSelect .. | .xlatInv ..
  | .syncDumpStart .. | .syncDumpDone | .modeWrite .. | .holdWrite .. | .lockstepRestart .. | .chipResetWrite ..
  | .compatWrite .. | .settingsReload .. | .reloadComplete .. | .spiGo .. | .firmwareLoad .. | .watchdogKick .. | .draoftLock ..
  | .driverTeardown .. | .unbench .. | .unbenchComplete .. | .freeze .. | .quiesce .. | .snap .. | .resume ..
  | .traceModeStart .. | .traceModeOff .. | .traceHostTrigger .. | .gcntSnap .. | .snapDumpStart .. | .snapDumpDone
  | .inspSelect .. | .inspectRead .. | .rosterEnable .. | .rosterDisable .. | .foldTrick .. | .rosterClose .. | .linkAccept ..
  | .portEnable .. | .portDisable .. | .portExpectWrite .. | .serveCommit .. | .resCommit .. | .relCommit .. | .podPagesWrite ..
  | .resBindingWrite .. | .rqEnable .. | .rqDisable .. | .rqRdWrite .. | .cplRdWrite .. | .registerWrite .. | .lowHalfRead ..
  | .lowHalfWrite .. | .highHalfWrite .. | .dynRetry .. | .cellResetTimeout .. | .fanoutInstantiate | .callSlotFree ..
  | .landingTimeout .. | .trickCompose .. | .composeRetry .. | .trickEnd .. | .retireRecordWrite .. | .logRecordWrite ..
  | .importLanded .. | .teardownContinue .. | .cellHang .. | .cellUncorrectable .. | .cellPortParity .. | .mirrorParity ..
  | .dealerParity .. | .regionPathFault .. | .pathResetDone .. | .leBench .. | .rqPacketWrite | .deadlineTick
  | .beatParcelReceive .. | .slowdownReport | .decrementReceive .. | .signalReceive .. | .expertCallReceive ..
  | .returnReceive .. | .ackReceive .. | .helloReceive .. | .cutMarkerReceive .. | .e2eResend .. | .settingsRead ..
  | .lockstepTick | .traceFrameSend | .draoftHelp | .draoftId | .draoftStatus | .draoftCnt | .draoftRd .. | .draoftObj ..
  | .draoftNode .. | .draoftDump .. | .draoftWr .. | .draoftFreeze | .draoftQuiesce | .draoftSnap .. | .draoftResume
  | .draoftTrig | .highHalfRead .. | .deviceMemoryRequest .. | .sliceRejectsRead .. => true
  | .shadowPoll .. | .slotIdleCheck .. | .indirectPointerRead .. | .irqCoalesceTimeout .. | .commandWatchdog ..
  | .tileDeparted .. | .xlatInvDone | .spiDone .. | .firmwareLoaded .. | .quiesceReached | .accessAbort .. | .resolverUpdate
  | .scrub .. | .nodeDispatch .. | .offerAnswer .. | .answerArrival .. | .collectWindowClose .. | .offerConfirm ..
  | .offerWithdraw .. | .backlogDispatch .. | .issueSlot .. | .leIssueSlot | .startReport .. | .engineCompletion ..
  | .completionAccept .. | .shareDone .. | .leCompletion .. | .combineRequest .. | .combineDone .. | .loopStart ..
  | .loopIterationEnd .. | .sproutRead .. | .remoteSend .. | .drainReport .. | .drainLimitExpiry .. | .cellResetDone ..
  | .fanoutExpand | .landingWaitResume | .fanoutComplete .. | .landingFree .. | .trickInstantiate .. | .signalNode ..
  | .waitNodeRegister .. | .waiterRecordGrant | .syncSet .. | .syncClear .. | .syncAdvance .. | .syncRelease .. | .syncWait ..
  | .syncClaim .. | .syncTryClaim .. | .syncRead .. | .xlatFill .. | .invalRequest .. | .invalDone .. | .dealerRebuilt ..
  | .serviceWatchdogExpiry .. | .servicePathParity .. | .supplyWarn .. | .supplyClear .. | .supplyRecover .. | .clockRampStep ..
  | .supplyReset | .vectorSignal .. | .suspendReport .. | .suspendTimeout .. | .donateTimeout .. | .allBlocked ..
  | .autoSwapRestore .. | .beatTick | .beatPinEdge | .beatFlywheel | .beatRemoteApply | .beatPinInverted | .monitorEvaluate ..
  | .blockReceive .. | .nakReceive .. | .hopAckTimeout .. | .transmitSlot .. | .cutMarkerTimeout .. | .helloSend ..
  | .linkSilent .. | .phyReady .. | .phyLost .. | .retrainExpiry .. | .chipReset | .gsInitDone | .pllStable .. | .startReady
  | .nativeGateStop .. | .traceAlignSend | .uartRxFault | .uartRxRecover | .beatOutShort | .returnParcelSend .. | .msixUnmask ..
  | .beatInFailsafe | .beatInFailsafeClear | .beatOutShortEnd => false

end Sys2Proof.Machine
end

