-- ==== Sys2Proof/Certificates/Slice0/Obligations.lean ====
section
/-! DEFINITION. The statements about the block. -/
open Sys2Proof
open Sys2Proof.Machine

/-- R166: the two differences are taken in 32 bits and compared with the ring size. -/
def Obligations.DoorbellOffer : Prop :=
  ∀ (s w : State) (n : Nat) (v : BitVec 32), s.admitsBell w → (w.slot n).st ≠ .disabled → (w.slot n).st ≠ .destroying →
    ((v - (w.slot n).whost).toNat ≤ 2 ^ w.ringShift n → (v - (w.slot n).wdev).toNat ≤ 2 ^ w.ringShift n →
      exec (.doorbellWrite n v) s = .next (w.updSlot n fun x =>
        { x with whost := v, st := if x.st = .idle ∧ v ≠ x.wdev then .fetching else x.st })) ∧
    (¬ ((v - (w.slot n).whost).toNat ≤ 2 ^ w.ringShift n ∧ (v - (w.slot n).wdev).toNat ≤ 2 ^ w.ringShift n) →
      bit (w.reg ⟨.slotErr, n, 0⟩) 1 = true → exec (.doorbellWrite n v) s = .next (w.orReg ⟨.slotErr, n, 0⟩ 2)) ∧
    (¬ ((v - (w.slot n).whost).toNat ≤ 2 ^ w.ringShift n ∧ (v - (w.slot n).wdev).toNat ≤ 2 ^ w.ringShift n) →
      bit (w.reg ⟨.slotErr, n, 0⟩) 1 = false → exec (.doorbellWrite n v) s = .next ((w.report
        { typ := 0x13, source := 0x8000, pod := some (w.slotPod n),
          body := [v.toNat + n * 2 ^ 32, (w.slot n).whost.toNat + (w.slot n).wdev.toNat * 2 ^ 32] }).orReg ⟨.slotErr, n, 0⟩ 2))

/-- The slot registers' commands (R160, R162, R164, R196). `flushSnap` lets go of writes held from SNAPPED, of which `admits` says there are none. -/
def Obligations.SlotRegisterWrites : Prop :=
  (∀ (s w u t a b : State) (who : Requester) (n : Nat) (v : BitVec 32) (x : BitVec 64), s.admits ⟨.slotCfg, n, 0⟩ w → n < 256 →
    x = setBit (w64 v) 0 true &&& (regRow .slotCfg).rw → 6 ≤ bits x 11 5 → bits x 11 5 ≤ 16 → 1 ≤ bits x 25 7 → bits x 25 7 ≤ 64 →
    (w.slot n).st = .disabled → (w.slot n).cplReset = false →
    u = w.setReg ⟨.slotCfg, n, 0⟩ (setBit x 0 false) → u.enableOk n = true →
    t = ((u.setReg ⟨.slotCfg, n, 0⟩ x).updSlot n fun y =>
      { y with whost := y.wdev, doneSeq := y.nextSeq - 1, buf := [], idleCheck := false, cplReset := false, notes := [], irqCount := 0,
               irqSince := none, polledAt := w.now }) →
    t.slotWrite n (t.statusAddr n) (leBytes 8 (t.slot n).doneSeq.toNat) = (a, true) →
    a.slotWrite n (t.statusAddr n + 8) (leBytes 4 (t.slot n).wdev.toNat ++ leBytes 1 (t.slot n).st.code ++ zeros 3) = (b, true) →
    exec (.slotEnable who n v) s = .next (b.updSlot n fun y => { y with st := .idle })) ∧
  (∀ (s w : State) (who : Requester) (n : Nat) (v : BitVec 32) (x : BitVec 64), s.admits ⟨.slotCfg, n, 0⟩ w → n < 256 →
    x = setBit (w64 v) 0 false &&& (regRow .slotCfg).rw → 6 ≤ bits x 11 5 → bits x 11 5 ≤ 16 → 1 ≤ bits x 25 7 → bits x 25 7 ≤ 64 →
    (w.slot n).st = .idle → w.openCmds n = [] → x &&& slotCfgFixed = w.reg ⟨.slotCfg, n, 0⟩ &&& slotCfgFixed →
    exec (.slotDisable who n v) s = .next ((w.setReg ⟨.slotCfg, n, 0⟩ x).updSlot n fun y => { y.discard with st := .disabled })) ∧
  (∀ (s w : State) (who : Requester) (n : Nat), s.admits ⟨.slotCtrl, n, 0⟩ w → n < 256 →
    (w.slot n).st ≠ .disabled → (w.slot n).st ≠ .destroying →
    exec (.destroy who n) s = .next ((w.updSlot n fun y => { y.discard with st := .destroying, idleCheck := false }).each (w.openCmds n)
      fun t q => t.endCmd n q stDESTROYED 0).flushSnap) ∧
  (∀ (s w : State) (who : Requester) (n : Nat) (skip : Bool), s.admits ⟨.slotCtrl, n, 0⟩ w → n < 256 → (w.slot n).st = .faulted →
    w.tearing (w.slotCtx n) = false →
    exec (.restart who n skip) s = .next (w.updSlot n fun y =>
      { y with wdev := if skip then y.whost else y.wdev, st := if skip = true ∨ y.whost = y.wdev then .idle else .fetching,
               polledAt := w.now, idleCheck := false })) ∧
  (∀ (s w : State) (who : Requester) (n : Nat) (v : BitVec 32), s.admits ⟨.slotCplRd, n, 0⟩ w → n < 256 →
    ((w.reg ⟨.slotCplWr, n, 0⟩).toNat + 2 ^ 32 - v.toNat) % 2 ^ 32 ≤ w.cplSize n →
    exec (.cplRdWrite who n v) s = .next ((if (w.slot n).st = .disabled then w else w.updSlot n fun y => { y with cplReset := true }).plainWrite
      ⟨.slotCplRd, n, 0⟩ (w64 v)))

/-- The commands of the Report Queue's registers and of pods and tiles (R72, R187, R192, R250, R429, R430, R432, R433). -/
def Obligations.ReportQueuePodAndTileWrites : Prop :=
  (∀ (s w a : State) (who : Requester) (v : BitVec 32) (x : BitVec 64), s.admits ⟨.rqCfg, 0, 0⟩ w → x = setBit (w64 v) 0 true →
    16 ≤ bits x 8 5 → bits x 8 5 ≤ 26 → bits x 24 4 ≠ 0 → w.rqOn = false →
    a = (if bits x 8 5 = w.fld ⟨.rqCfg, 0, 0⟩ 8 5 then w.plainWrite ⟨.rqCfg, 0, 0⟩ x else (w.plainWrite ⟨.rqCfg, 0, 0⟩ x).clearRq) →
    exec (.rqEnable who v) s = .next ({ a with fe := { a.fe with pktSeq := 0 } } : State).highCheck) ∧
  (∀ (s w : State) (who : Requester) (v : BitVec 32) (x : BitVec 64), s.admits ⟨.rqCfg, 0, 0⟩ w → x = setBit (w64 v) 0 false →
    16 ≤ bits x 8 5 → bits x 8 5 ≤ 26 → bits x 24 4 ≠ 0 → bits x 8 5 = w.fld ⟨.rqCfg, 0, 0⟩ 8 5 →
    exec (.rqDisable who v) s = .next (w.plainWrite ⟨.rqCfg, 0, 0⟩ x).highCheck) ∧
  (∀ (s w : State) (who : Requester) (v : BitVec 32), s.admits ⟨.rqRd, 0, 0⟩ w → w.rqGood = true →
    (w.rqWr + 2 ^ 32 - v.toNat) % 2 ^ 32 ≤ w.rqSize → exec (.rqRdWrite who v) s = .next (w.setRqRd v.toNat)) ∧
  (∀ (s w a : State) (who : Requester) (p : Nat) (v : BitVec 32) (x : BitVec 64), s.admits ⟨.podTsetSel, p, 0⟩ w → p < 16 →
    x = setBit (w64 v) 16 false → a = w.plainWrite ⟨.podTsetSel, p, 0⟩ x →
    exec (.tsetSelect who p v) s = .next ((if w.fld ⟨.podTsetSel, p, 0⟩ 0 8 = bits x 0 8 then a
      else a.loadStaging .podTsetData p 16 true (a.tset p (bits x 0 8))).flushSnap)) ∧
  (∀ (s w a : State) (who : Requester) (p : Nat) (v : BitVec 32) (x : BitVec 64), s.admits ⟨.podTsetSel, p, 0⟩ w → p < 16 →
    x = setBit (w64 v) 16 true → a = w.plainWrite ⟨.podTsetSel, p, 0⟩ x → a.tsetOk p (a.staged .podTsetData p 16 true) = true → (a.pod p).commit = none →
    exec (.tsetCommit who p v) s = .next (a.updPod p fun y => { y with commit := some (bits x 0 8, a.staged .podTsetData p 16 true) })) ∧
  (∀ (s : State) (p i : Nat) (ws : List (BitVec 32)), (s.pod p).commit = some (i, ws) →
    s.endCommit p = (s.updPod p fun y => { y with tset := tput [] y.tset i (normWords ws), commit := none }).rehomeAnd true fun k =>
      decide (s.nodePod k = p) && decide ((s.node k).d.tileset = i)) ∧
  (∀ (s w : State) (who : Requester) (i : Nat) (v : BitVec 32), s.admits ⟨.tileOwner, i, 0⟩ w → i < 384 → bit (w64 v) 4 = true →
    bit (w.reg ⟨.tileOwner, i, 0⟩) 4 = false → bit (w.reg ⟨.tileOwner, i, 0⟩) 5 = false → w.podOn (bits (w64 v) 0 4) = true →
    exec (.tileOwnerWrite who i v) s = .next (w.setReg ⟨.tileOwner, i, 0⟩ (BitVec.ofNat 64 (bits (w64 v) 0 4 + 16)))) ∧
  (∀ (s w : State) (who : Requester) (i : Nat) (v : BitVec 32), s.admits ⟨.tileOwner, i, 0⟩ w → i < 384 → bit (w64 v) 4 = false →
    bit (w.reg ⟨.tileOwner, i, 0⟩) 4 = true →
    exec (.tileOwnerWrite who i v) s = .next ((w.setReg ⟨.tileOwner, i, 0⟩
      (BitVec.ofNat 64 (bits (w.reg ⟨.tileOwner, i, 0⟩) 0 4 + 32))).rehomeAnd true fun _ => false).flushSnap) ∧
  (∀ (s w : State) (who : Requester) (p : Nat) (v : BitVec 32), s.admits ⟨.podSwapq, p, 0⟩ w → p < 16 → bit (w64 v) 31 = false →
    (w.pod p).swapq.length < 8 →
    exec (.swapqPush who p v) s = .next (w.updPod p fun y => { y with swapq := y.swapq ++ [bits (setBit (w64 v) 12 true) 0 9] })) ∧
  (∀ (s w : State) (who : Requester) (p : Nat) (v : BitVec 32), s.admits ⟨.podSwapq, p, 0⟩ w → p < 16 → bit (w64 v) 12 = false →
    exec (.swapqPop who p v) s = .next (w.updPod p fun y => { y with swapq := y.swapq.drop 1 }))

/-- The commands of GS_CTX_CTRL, of the windows and of RS_CTX_RES (R36, R259 to R261, R266, R345, R447). What a save does first is `startSave` (R260 steps 1 to 4). -/
def Obligations.ContextRegisterWrites : Prop :=
  (∀ (s w : State) (who : Requester) (c : Nat) (v : BitVec 32) (x : BitVec 64), s.admits ⟨.ctxCtrl, c, 0⟩ w → c < 512 →
    x = setBit (w64 v) 8 true → bit x 9 = false → bit x 10 = false → (w.ctx c).st = .resident →
    exec (.contextSave who c v) s = .next ((w.plainWrite ⟨.ctxCtrl, c, 0⟩ x).startSave c (bit x 16) false).flushSnap) ∧
  (∀ (s w : State) (who : Requester) (c : Nat) (v : BitVec 32) (x : BitVec 64), s.admits ⟨.ctxCtrl, c, 0⟩ w → c < 512 →
    x = setBit (w64 v) 9 true → bit x 8 = false → bit x 10 = false → (w.ctx c).st = .saved →
    exec (.contextRestore who c v) s = .next (((w.plainWrite ⟨.ctxCtrl, c, 0⟩ x).updCtx c fun y => { y with st := .restoring }).disturb 5).flushSnap) ∧
  (∀ (s w a : State) (who : Requester) (c : Nat) (v : BitVec 32) (x : BitVec 64), s.admits ⟨.ctxCtrl, c, 0⟩ w → c < 512 →
    x = setBit (w64 v) 10 true → bit x 8 = false → bit x 9 = false → (w.ctx c).st = .faulted → (w.ctx c).torn = true → w.residents < 64 →
    a = (w.plainWrite ⟨.ctxCtrl, c, 0⟩ x).updCtx c (fun y =>
      { y with st := .resident, fault := none, torn := false, keptNodes := [], keptSusp := [], savedCrc := none }) →
    exec (.rearm who c v) s = .next (a.setReg ⟨.ctxStatus, c, 0⟩ (a.reg ⟨.ctxStatus, c, 0⟩ &&& ~~~(1 : BitVec 64)))) ∧
  (∀ (s w a : State) (who : Requester) (edges : Bool) (c : Nat) (v : BitVec 32), s.admits ⟨winReg edges, c, 0⟩ w → c < 512 →
    bit (w64 v) 31 = true → bit (w.reg ⟨winReg edges, c, 0⟩) 31 = false → w.winOk edges c (bits (w64 v) 0 10) (bits (w64 v) 16 11) = true →
    a = w.plainWrite ⟨winReg edges, c, 0⟩ (w64 v) →
    exec (.windowWrite who edges c v) s = .next (if edges = false ∧ (w.ctx c).st = .unused then a.updCtx c fun y => { y with st := .resident }
      else if ¬ a.nodesValid c ∧ ¬ a.edgesValid c ∧ ((a.ctx c).st = .resident ∨ ((a.ctx c).st = .faulted ∧ (a.ctx c).torn)) then a.toUnused c
      else a)) ∧
  (∀ (s w a : State) (who : Requester) (edges : Bool) (c : Nat) (v : BitVec 32), s.admits ⟨winReg edges, c, 0⟩ w → c < 512 →
    bit (w64 v) 31 = false → bit (w.reg ⟨winReg edges, c, 0⟩) 31 = true →
    bits (w.reg ⟨winReg edges, c, 0⟩) 0 10 = bits (w64 v) 0 10 → bits (w.reg ⟨winReg edges, c, 0⟩) 16 11 = bits (w64 v) 16 11 →
    w.ctxNodes c = [] → a = w.plainWrite ⟨winReg edges, c, 0⟩ (w64 v) →
    exec (.windowWrite who edges c v) s = .next (
      if ¬ a.nodesValid c ∧ ¬ a.edgesValid c ∧ ((a.ctx c).st = .resident ∨ ((a.ctx c).st = .faulted ∧ (a.ctx c).torn)) then a.toUnused c
      else a)) ∧
  (∀ (s w : State) (who : Requester) (c : Nat) (v : BitVec 64), s.admits ⟨.ctxRes, c, 0⟩ w → c < 512 →
    exec (.resBindingWrite who c v) s = .next (w.plainWrite ⟨.ctxRes, c, 0⟩ v).unpark.flushSnap)

/-- The commands of the Sync Unit's registers (R201, R204, R226, R227, R451 to R453). -/
def Obligations.SyncObjectRegisterWrites : Prop :=
  (∀ (s w : State) (who : Requester) (v : BitVec 32), s.admits ⟨.objSel, 0, 0⟩ w →
    bits (w64 v) 24 2 ≠ 3 → (bits (w64 v) 24 2 = 2 → bits (w64 v) 0 18 < 65536) →
    exec (.objSelect who v) s = .next (w.plainWrite ⟨.objSel, 0, 0⟩ (w64 v)).captureView) ∧
  (∀ (s w a : State) (who : Requester) (v x : BitVec 64) (kind c : Nat), s.admits ⟨.objInitCtrl, 0, 0⟩ w → x = setBit v 63 true →
    a = w.plainWrite ⟨.objInitCtrl, 0, 0⟩ x → kind = a.fld ⟨.objSel, 0, 0⟩ 24 2 → kind ≠ 2 → c = a.fld ⟨.objInitCtrl, 0, 0⟩ 0 9 →
    (a.obj a.selKey).pinned = false → a.inPodRange (a.podOf c) kind (objIdx a.selKey) = true → a.fld ⟨.objInitCtrl, 0, 0⟩ 12 2 ≠ 3 →
    exec (.objInitCommit who v) s = .next ((a.setObj a.selKey { a.obj a.selKey with
      alloc := true, kind := kind, overset := 0, status := 0, orphaned := false, lastSrc := 0,
      value := if kind = 0 then BitVec.ofNat 48 ((a.reg ⟨.objInitValue, 0, 0⟩).toNat % 2) else 0,
      owner := if kind = 1 then 0 else BitVec.ofNat 9 c, partner := 0, role := 0, depth := 0 }).captureView.loadDone).flushSnap) ∧
  (∀ (s w a : State) (who : Requester) (v x : BitVec 64) (c role partner : Nat), s.admits ⟨.objInitCtrl, 0, 0⟩ w → x = setBit v 63 true →
    a = w.plainWrite ⟨.objInitCtrl, 0, 0⟩ x → a.fld ⟨.objSel, 0, 0⟩ 24 2 = 2 → c = a.fld ⟨.objInitCtrl, 0, 0⟩ 0 9 →
    role = a.fld ⟨.objInitCtrl, 0, 0⟩ 12 2 → partner = a.fld ⟨.objInitCtrl, 0, 0⟩ 32 16 →
    (a.obj a.selKey).pinned = false → a.inPodRange (a.podOf c) 2 (objIdx a.selKey) = true → role ≠ 3 →
    (role ≠ 0 → a.inPodRange (a.podOf c) 2 partner = true ∧ partner ≠ objIdx a.selKey) → (role = 1 → a.fld ⟨.objInitCtrl, 0, 0⟩ 16 16 ≠ 0) →
    exec (.objInitCommit who v) s = .next ((a.setObj a.selKey { a.obj a.selKey with
      alloc := true, kind := 2, overset := 0, status := 0, orphaned := false, lastSrc := 0,
      value := (a.reg ⟨.objInitValue, 0, 0⟩).setWidth 48, owner := BitVec.ofNat 9 c, partner := BitVec.ofNat 16 partner,
      role := BitVec.ofNat 2 role, depth := BitVec.ofNat 16 (a.fld ⟨.objInitCtrl, 0, 0⟩ 16 16) }).captureView.loadDone).flushSnap) ∧
  (∀ (s w : State) (who : Requester) (v : BitVec 32), s.admits ⟨.objFree, 0, 0⟩ w → (w.obj w.selKey).pinned = false →
    exec (.objFreeCommit who v) s = .next (w.updObj w.selKey fun o => { o with alloc := false }).captureView) ∧
  (∀ (s w : State) (who : Requester) (v : BitVec 64), s.admits ⟨.xlatInv, 0, 0⟩ w → w.sy.inv = none →
    exec (.xlatInv who v) s = .next { w with sy := { w.sy with
      inv := some (bits v 32 9, if bit v 48 then none else some (bits v 0 24)) } }) ∧
  (∀ (s w a t : State) (who : Requester) (v : BitVec 32) (x : BitVec 64) (d : List Byte × List Byte), s.admits ⟨.dumpCtrl, 0, 0⟩ w →
    x = setBit (w64 v) 0 true → bits x 4 2 ≠ 3 → w.sy.dumpBusy = false → a = w.plainWrite ⟨.dumpCtrl, 0, 0⟩ x →
    64 ≤ a.fld ⟨.dumpSize, 0, 0⟩ 0 32 →
    d = a.dumpBytes (a.objKeys fun k o => match a.fld ⟨.dumpCtrl, 0, 0⟩ 4 2 with
      | 1 => a.inPodRange (a.fld ⟨.dumpCtrl, 0, 0⟩ 16 4) o.kind (objIdx k)
      | 2 => decide (o.owner.toNat = a.fld ⟨.dumpCtrl, 0, 0⟩ 16 9) && (decide (o.kind ≠ 1) || decide (o.value = 1))
      | _ => true) (a.fld ⟨.dumpSize, 0, 0⟩ 0 32) →
    ({ a with sy := { a.sy with dumpBusy := true, dumpAt := (a.reg ⟨.dumpAddr, 0, 0⟩).toNat, dumpHeader := d.1 } } : State).writeBytes devSpace
      ((a.reg ⟨.dumpAddr, 0, 0⟩).toNat + 64) d.2 = some t →
    exec (.syncDumpStart who v) s = .next t)

/-- The commands of the global registers (R321, R322, R330, R373, R380 to R382, R389, R425; DET and RESTART in one write: log entry 51). -/
def Obligations.GlobalControlWrites : Prop :=
  (∀ (s w : State) (who : Requester) (v : BitVec 32) (x : BitVec 64), s.admits ⟨.tsuMode, 0, 0⟩ w → x = setBit (w64 v) 3 false →
    bits x 0 2 = w.det → exec (.modeWrite who v) s = .next (w.setFld ⟨.tsuMode, 0, 0⟩ 4 1 (bits x 4 1))) ∧
  (∀ (s w : State) (who : Requester) (v : BitVec 32) (x : BitVec 64), s.admits ⟨.tsuMode, 0, 0⟩ w → x = setBit (w64 v) 3 false →
    bits x 0 2 ≠ w.det → bits x 0 2 ≠ 3 → w.quiet = true →
    exec (.modeWrite who v) s = .next ((((w.setFld ⟨.tsuMode, 0, 0⟩ 0 2 (bits x 0 2)).align (List.range 8)).setFld ⟨.tsuMode, 0, 0⟩ 8 1 1).setFld
      ⟨.tsuMode, 0, 0⟩ 4 1 (bits x 4 1)).flushSnap) ∧
  (∀ (s w : State) (who : Requester) (v : BitVec 32) (x : BitVec 64), s.admits ⟨.tsuMode, 0, 0⟩ w →
    x = setBits (setBit (w64 v) 3 false) 0 2 s.det → exec (.holdWrite who v) s = .next (w.setFld ⟨.tsuMode, 0, 0⟩ 4 1 (bits x 4 1))) ∧
  (∀ (s w : State) (who : Requester) (v : BitVec 32) (x : BitVec 64), s.admits ⟨.tsuMode, 0, 0⟩ w → x = setBit (w64 v) 3 true →
    bits x 0 2 = 2 → w.quiet = true → w.restartable = true →
    exec (.lockstepRestart who v) s = .next ((((w.setFld ⟨.tsuMode, 0, 0⟩ 0 2 2).align (List.range 8)).setFld ⟨.tsuMode, 0, 0⟩ 8 1 1).setFld
      ⟨.tsuMode, 0, 0⟩ 4 1 (bits x 4 1)).lockstepRestart.flushSnap) ∧
  (∀ (s w : State) (who : Requester) (v : BitVec 32), s.admits ⟨.tsuReset, 0, 0⟩ w → bits (w64 v) 8 8 = 0xA5 → bit (w64 v) 0 = true →
    exec (.chipResetWrite who v) s = .next { w with st := { w.st with resetDue := true } }) ∧
  (∀ (s w a : State) (who : Requester) (v : BitVec 32), s.admits ⟨.tsuClken, 0, 0⟩ w → bit (w64 v) 31 = w.compat ∨ w.quiet = true →
    a = w.plainWrite ⟨.tsuClken, 0, 0⟩ (w64 v) →
    exec (.compatWrite who v) s = .next (if a.compat = true ∨ w.compat = true then a.regate else a).flushSnap) ∧
  (∀ (s w a : State) (who : Requester) (v : BitVec 32), s.admits ⟨.tsuSettings, 0, 0⟩ w → w.sv.reloading = false → w.sv.reloadPending = false →
    a = w.plainWrite ⟨.tsuSettings, 0, 0⟩ (setBit (w64 v) 0 true) →
    exec (.settingsReload who v) s = .next (if w.sv.spiBusy then { a with sv := { a.sv with reloadPending := true } }
      else { a with sv := { a.sv with reloading := true } }))

/-- The commands of the service cores' and the Fault Controller's registers (R343, R350, R355, R388, R391, R393, R418, R441 to R443). -/
def Obligations.ServiceAndFaultRegisterWrites : Prop :=
  (∀ (s w a : State) (who : Requester) (v : BitVec 32) (x : BitVec 64), s.admits ⟨.spiCtrl, 0, 0⟩ w → x = setBit (w64 v) 30 true →
    w.sv.spiBusy = false → bits x 16 7 ≤ 64 → w.sv.reloading = false → w.ready = true → (bit x 24 && bit x 23) = false →
    a = w.plainWrite ⟨.spiCtrl, 0, 0⟩ x →
    exec (.spiGo who v) s = .next (({ a with sv := { a.sv with spiBusy := true } } : State).emit
      (.spi (bits x 0 8) (leBytes (bits x 8 2) (a.reg ⟨.spiAddr, 0, 0⟩).toNat).reverse (bits x 12 4) (bits x 16 7) (bit x 24)
        (if bit x 23 then a.spiBuf.take (bits x 16 7) else [])))) ∧
  (∀ (s w : State) (who : Requester) (k : Nat) (v : BitVec 32), s.admits ⟨.fwCtrl, k, 0⟩ w → k < 8 → (w.core k).st ≠ 1 →
    bit (w.reg ⟨.benchRegions, 0, 0⟩) k = false →
    exec (.firmwareLoad who k v) s = .next (((w.updCore k fun c => { c with st := 1, mem := [], entry := 0 }).emit (.coreReset k)).updCore k
      fun c => { c with addr := (w.reg ⟨.fwAddr, k, 0⟩).toNat })) ∧
  (∀ (s w : State) (who : Requester) (v : BitVec 32), s.admits ⟨.fwCtrl, 8, 0⟩ w → (w.core 8).st ≠ 1 →
    exec (.firmwareLoad who 8 v) s = .next (((({ w with sv := { w.sv with session := false } } : State).updCore 8 fun c =>
      { c with st := 1, mem := [], entry := 0 }).emit (.coreReset 8)).updCore 8 fun c => { c with addr := (w.reg ⟨.fwAddr, 8, 0⟩).toNat })) ∧
  (∀ (s w : State) (who : Requester) (k : Nat) (v : BitVec 32), s.admits ⟨.svWdog, k, 0⟩ w → k < 9 →
    exec (.watchdogKick who k v) s = .next (if who = .core k then w.updCore k fun c => { c with kickedAt := w.now } else w)) ∧
  (∀ (s w : State) (v : BitVec 32) (x : BitVec 64), s.admits ⟨.svDraoft, 0, 0⟩ w → x = setBit (w64 v) 8 true →
    (bit (w.reg ⟨.svDraoft, 0, 0⟩) 8 = true → bits x 0 2 ≤ w.fld ⟨.svDraoft, 0, 0⟩ 0 2) →
    exec (.draoftLock .host v) s = .next (w.setReg ⟨.svDraoft, 0, 0⟩
      (BitVec.ofNat 64 (bits x 0 2) ||| ((w.reg ⟨.svDraoft, 0, 0⟩ ||| x) &&& 0x100)))) ∧
  (∀ (s w : State) (who : Requester) (v : BitVec 32) (c : Nat), s.admits ⟨.fcTeardown, 0, 0⟩ w → c = bits (setBit (w64 v) 31 true) 0 9 →
    (w.ctx c).st ≠ .unused → (w.ctx c).st ≠ .faulted →
    exec (.driverTeardown who v) s = .next (w.ctxFault c { cause := 0x94 } 0x8009).flushSnap) ∧
  (∀ (s w : State) (who : Requester) (v : BitVec 32) (q : Nat × Nat), s.admits ⟨.fcUnbench, 0, 0⟩ w →
    q = (bits (setBit (w64 v) 31 true) 16 3, bits (setBit (w64 v) 31 true) 0 14) → q ∉ w.fc.unbench → w.benchedAt q.1 q.2 = true →
    exec (.unbench who v) s = .next { w with fc := { w.fc with unbench := w.fc.unbench ++ [q] } })

/-- The commands of the Observation Unit's registers (R402, R406, R408, R414 to R417, R462 to R464). -/
def Obligations.StopTraceAndInspectionWrites : Prop :=
  (∀ (s w : State) (who : Requester), s.admitsStop ⟨.obStop, 0, 0⟩ w → w.ob.stop = .running →
    exec (.freeze who) s = .next ((({ w with ob := { w.ob with stop := .frozen, cut := (w.beat, w.ts) } } : State).bump (gcnt 15) 1).disturb 4).flushSnap ∧
    exec (.quiesce who) s = .next ((({ w with ob := { w.ob with stop := .quiescing } } : State).bump (gcnt 15) 1).disturb 4).flushSnap) ∧
  (∀ (s w : State) (who : Requester) (id : Nat), s.admitsStop ⟨.obStop, 0, 0⟩ w → w.ob.stop ≠ .snapped → id = w.fld ⟨.snapId, 0, 0⟩ 0 32 →
    higher32 id (w.fld ⟨.snapLast, 0, 0⟩ 0 32) = true → exec (.snap who) s = .next (w.takeSnap id none).flushSnap) ∧
  (∀ (s w : State) (who : Requester), s.admitsStop ⟨.obStop, 0, 0⟩ w → w.fatal = false →
    w.ob.stop = .frozen ∨ w.ob.stop = .quiescing ∨ w.ob.stop = .quiesced →
    exec (.resume who) s = .next { w with ob := { w.ob with stop := .running } }) ∧
  (∀ (s w : State) (who : Requester), s.admitsStop ⟨.obStop, 0, 0⟩ w → w.fatal = false → w.ob.stop = .snapped →
    exec (.resume who) s = .next { w with
      ob := { w.ob with stop := w.ob.before }
      li := { w.li with ports := w.li.ports.map fun p =>
        (p.1, { p.2 with inCut := false, rx := p.2.rx.map fun q => (q.1, q.2.map fun (b : RxBlock) => { b with inCut := false }) }) } }) ∧
  (∀ (s w a : State) (who : Requester) (v : BitVec 32) (x : BitVec 64), s.admitsStop ⟨.trcCfg, 0, 0⟩ w →
    x = (if bits v 0 2 = 0 then setBits (w64 v) 0 2 1 else w64 v) → bits x 0 2 ≠ 0 → bits x 0 2 ≠ 3 → w.trcMode = 0 →
    (bits x 0 2 = 2 → w.fld ⟨.trcCounts, 0, 0⟩ 24 24 ≠ 0 ∧ w.fld ⟨.trcCounts, 0, 0⟩ 0 24 + w.fld ⟨.trcCounts, 0, 0⟩ 24 24 ≤ 262143) →
    a = w.plainWrite ⟨.trcCfg, 0, 0⟩ x →
    exec (.traceModeStart who v) s = .next { a with ob := { a.ob with
      trace := [], traceWait := [], fseq := 0, trigSeen := 0, triggered := false, postLeft := 0, stoppedMaking := false, draining := none, trigCount := 0,
      drops := [], dropTotal := [], lossStop := false } }) ∧
  (∀ (s w a : State) (who : Requester) (v : BitVec 32), s.admitsStop ⟨.trcCfg, 0, 0⟩ w → w.trcMode ≠ 0 →
    (setBits (w64 v) 0 2 0 ^^^ w.reg ⟨.trcCfg, 0, 0⟩) &&& 0x14 = 0 → a = w.plainWrite ⟨.trcCfg, 0, 0⟩ (setBits (w64 v) 0 2 0) →
    exec (.traceModeOff who v) s = .next { a with ob := { a.ob with
      stoppedMaking := true, lossStop := false, draining := if a.ob.traceDown then none else some (a.ob.draining.getD 2) } }) ∧
  (∀ (s w a : State) (who : Requester) (v : BitVec 32), s.admitsStop ⟨.trcCtrl, 0, 0⟩ w → w.trcMode = 2 → w.tracing = true →
    w.ob.triggered = false → w.fld ⟨.trcTrig, 0, 0⟩ 16 2 = 2 → a = { w with ob := { w.ob with trigSeen := w.ob.trigSeen + 1 } } →
    exec (.traceHostTrigger who v) s = .next (if w.ob.trigSeen + 1 = w.fld ⟨.trcTrig, 0, 0⟩ 0 16 then a.fireTrigger 2 else a).flushSnap) ∧
  (∀ (s w : State) (who : Requester) (v : BitVec 32), s.admitsStop ⟨.gcntSnap, 0, 0⟩ w →
    exec (.gcntSnap who v) s = .next ((w.each (List.range 16) fun t i => t.setReg ⟨.gcntShadow, i, 0⟩ (w.reg (gcnt i))).each (List.range 8)
      fun t r => t.each [(RegName.dlIssued, 0), (.dlDraws, 1), (.dlIdle, 2), (.dlRedispatch, 3), (.dlRecalls, 4)] fun t y =>
        t.setReg ⟨.dlShadow, r, y.2⟩ (w.reg ⟨y.1, r, 0⟩))) ∧
  (∀ (s w : State) (who : Requester) (v : BitVec 32) (size len : Nat) (body : List Byte), s.admitsStop ⟨.snapDumpCtrl, 0, 0⟩ w →
    w.ob.stop = .frozen ∨ w.ob.stop = .quiesced ∨ w.ob.stop = .snapped → w.ob.dumpBusy = false →
    size = w.fld ⟨.snapDumpSize, 0, 0⟩ 0 32 → 512 ≤ size → len = min w.imageLen (size / 64 * 64) →
    body = (List.range (len - 512)).map (fun i => w.imageByte (512 + i)) →
    exec (.snapDumpStart who v) s = .next { w with ob := { w.ob with
      dumpBusy := true, dumpAt := (w.reg ⟨.snapDumpAddr, 0, 0⟩).toNat
      dumpNext := (w.reg ⟨.snapDumpAddr, 0, 0⟩).toNat + 512, dumpBody := body
      dumpHeader := w.snapHeader (decide (len < w.imageLen)) (crc32c (w.snapHeader (decide (len < w.imageLen)) 0 ++ body)).toNat } }) ∧
  (∀ (s w a : State) (who : Requester) (i : Nat) (v : BitVec 64), i < 10 → s.admitsStop ⟨.inspSel, i, 0⟩ w → bits v 0 16 = 0 →
    a = w.plainWrite ⟨.inspSel, i, 0⟩ v →
    exec (.inspSelect who (i + 1) v) s = .next { a with ob := { a.ob with insp := a.ob.insp.filter fun x => decide (x.1 ≠ who) } }) ∧
  (∀ (s w : State) (who : Requester) (i j : Nat), i < 10 → j < 16384 → s.admitsStop ⟨.aperture, i, j⟩ w →
    exec (.inspectRead who (Reg.off ⟨.aperture, i, j⟩) false) s = .next ((w.inspRead who (i + 1) j).2.emit
      (.readData who (Reg.off ⟨.aperture, i, j⟩) ((w.inspRead who (i + 1) j).1.setWidth 64))).flushSnap)

/-- Accesses by offset (R8, R9, R11, R12, R314, R375, R422, R462). -/
def Obligations.AnyRegisterAccess : Prop :=
  (∀ (s w : State) (who : Requester) (r : Reg) (v : BitVec 64), s.admits r w → r.valid = true → r.name ≠ .aperture →
    exec (.registerWrite who r.off v) s = .next (w.writeReg who r v).flushSnap) ∧
  (∀ (s w : State) (who : Requester) (r : Reg) (v : BitVec 64), s.admits r w → r.valid = true →
    r.name ∈ [RegName.slowdownAddr, .podRegMem, .podRegLink, .syCfg, .dumpAddr, .dumpSize, .xlatBase, .tbBeatPorts, .trcSrc, .snapDumpAddr,
      .snapDumpSize, .liSystem, .tearDumpAddr, .tearDumpSize, .fwAddr, .tsuErr, .slotErr, .podErr, .gsErr, .syErr, .resErr, .roErr, .obErr,
      .liErr, .fcErr, .svErr, .tbErr, .tsuDisturb] →
    exec (.registerWrite who r.off v) s = .next (w.setReg r (((w.reg r &&& ~~~r.row.rw) ||| (v &&& r.row.rw)) &&& ~~~(v &&& r.row.w1c)))) ∧
  (∀ (s w : State) (who : Requester) (r : Reg) (v : BitVec 64), s.admits r w → r.valid = true →
    r.name ∈ [RegName.tsuIdent, .tsuLsTick, .tsuStart, .rqWr, .slotState, .slotDoneSeq, .slotOpen, .dlStatus, .roEpoch, .tbBeat, .tbTick,
      .tbStatus, .gcnt, .gcntShadow, .liCnt, .portStatus, .fcStatus, .mapSeq, .benchCells, .ctxFault, .fwStatus, .fwVersion, .ctxCnt] →
    exec (.registerWrite who r.off v) s = .next w) ∧
  (∀ (s w : State) (who : Requester) (r : Reg) (off : Nat), s.admitsStop r w → target off false = some (r, .low) →
    exec (.lowHalfRead who off) s = .next (((w.readReg who r).2.setHalves who
      { (w.readReg who r).2.halves who with rd := some (r.off, hiHalf (w.readReg who r).1) }).emit
        (.readData who off ((loHalf (w.readReg who r).1).setWidth 64))).flushSnap) ∧
  (∀ (s w : State) (who : Requester) (r : Reg) (off : Nat) (hi : BitVec 32), s.admitsStop r w → target off false = some (r, .high) →
    (w.halves who).rd = some (r.off, hi) →
    exec (.highHalfRead who off) s = .next ((w.setHalves who { w.halves who with rd := none }).emit (.readData who off (hi.setWidth 64)))) ∧
  (∀ (s w : State) (who : Requester) (r : Reg) (off : Nat), s.admitsStop r w → target off false = some (r, .high) →
    (w.halves who).rd = none →
    exec (.highHalfRead who off) s = .next (w.emit (.readData who off ((hiHalf (w.regValue r)).setWidth 64)))) ∧
  (∀ (s w : State) (who : Requester) (r : Reg) (off : Nat) (v : BitVec 32), s.admits r w → target off false = some (r, .low) →
    r.name ≠ .aperture → exec (.lowHalfWrite who off v) s = .next (w.setHalves who { w.halves who with wr := some (r.off, v) })) ∧
  (∀ (s w : State) (who : Requester) (r : Reg) (off : Nat) (v lo : BitVec 32), s.admits r w → target off false = some (r, .high) →
    r.name ≠ .aperture → (w.halves who).wr = some (r.off, lo) →
    exec (.highHalfWrite who off v) s = .next ((w.setHalves who { w.halves who with wr := none }).writeReg who r
      (joinHalves v lo)).flushSnap) ∧
  (∀ (s w : State) (who : Requester) (r : Reg) (off : Nat) (v : BitVec 32), s.admits r w → target off false = some (r, .high) →
    r.name ≠ .aperture → (w.halves who).wr = none →
    exec (.highHalfWrite who off v) s = .next (w.writeReg who r (joinHalves v (loHalf (w.regValue r &&& r.row.rw)))).flushSnap) ∧
  (∀ (s w : State) (who : Requester) (k : Nat), s.admitsStop ⟨.sliceRejects, k, 0⟩ w → k < 64 →
    exec (.sliceRejectsRead who k) s = .next ((if (w.port k).rejectArmed then w else w.updPort k fun x => { x with rejectArmed := true }).emit
      (.readData who (Reg.off ⟨.sliceRejects, k, 0⟩) (w.regValue ⟨.sliceRejects, k, 0⟩)))) ∧
  (∀ (s : State) (who : Requester) (bar off size : Nat) (write : Bool), s.legal bar off size write = false →
    exec (.accessAbort who bar off size write) s = .next (s.emit (.abort who)))

/-- The commands of the roster's registers, of RS_POD_PAGES and of the staged residency and release tables (R132, R143, R145, R153, R266, R277, R438, R454, R456, R466). -/
def Obligations.RosterAndTimebaseRegisterWrites : Prop :=
  (∀ (s w : State) (who : Requester) (k : Nat) (v : BitVec 32) (x : BitVec 64), s.admits ⟨.roCtrl, k, 0⟩ w → k < 16 →
    x = setBit (w64 v) 0 true → bit x 2 = false → (x ^^^ w.reg ⟨.roCtrl, k, 0⟩) &&& 0x30 = 0 → bit (w.reg ⟨.roCtrl, k, 0⟩) 0 = false →
    w.roEnableOk k = true →
    exec (.rosterEnable who k v) s = .next (((w.plainWrite ⟨.roCtrl, k, 0⟩ x).each
      [RegName.roRetireWr, .roRetireRd, .roLogWr, .roLogRd, .roReplayWr, .roReplayRd, .roAdmitSeq] fun t n => t.setReg ⟨n, k, 0⟩ 0).updRos k
      fun y => { y with wake := true })) ∧
  (∀ (s w a : State) (who : Requester) (k : Nat) (v : BitVec 32) (x : BitVec 64), s.admits ⟨.roCtrl, k, 0⟩ w → k < 16 →
    x = setBit (w64 v) 0 false → bit x 2 = false → (x ^^^ w.reg ⟨.roCtrl, k, 0⟩) &&& 0x30 = 0 → w.rosterHolds k = false →
    a = w.plainWrite ⟨.roCtrl, k, 0⟩ x →
    exec (.rosterDisable who k v) s = .next (a.updRos k fun y => { y with wake := true })) ∧
  (∀ (s w a : State) (who : Requester) (k : Nat) (v : BitVec 32) (x : BitVec 64), s.admits ⟨.roCtrl, k, 0⟩ w → k < 16 →
    x = setBit (w64 v) 1 true → bit x 2 = false → (x ^^^ w.reg ⟨.roCtrl, k, 0⟩) &&& 0x30 = 0 → bit x 0 = bit (w.reg ⟨.roCtrl, k, 0⟩) 0 →
    a = w.plainWrite ⟨.roCtrl, k, 0⟩ x →
    exec (.rosterClose who k v) s = .next (a.updRos k fun y => { y with wake := true })) ∧
  (∀ (s w b a : State) (who : Requester) (k : Nat) (v : BitVec 32) (x : BitVec 64) (t : Trick), s.admits ⟨.roCtrl, k, 0⟩ w → k < 16 →
    x = setBit (w64 v) 2 true → (w.ros k).trick = some t → t.folded = false → t.resulted = false →
    b = (w.dropTrick k).each (w.trickNodes t.anchor) (fun t y =>
      if (t.node y).st = .active ∧ (t.node y).d.kind = .loop then t else t.foldOne y) → (x ^^^ b.reg ⟨.roCtrl, k, 0⟩) &&& 0x30 = 0 →
    bit x 0 = bit (b.reg ⟨.roCtrl, k, 0⟩) 0 → a = b.plainWrite ⟨.roCtrl, k, 0⟩ x →
    exec (.foldTrick who k v) s = .next (a.updRos k fun y => { y with wake := true }).flushSnap) ∧
  (∀ (s w : State) (who : Requester) (p : Nat) (v : BitVec 64), s.admits ⟨.podPages, p, 0⟩ w → p < 16 → w.pagesOut p = false →
    bits v 0 24 + bits v 32 25 ≤ 2 ^ 24 →
    (∀ q, q < 16 → q ≠ p → bits v 0 24 + bits v 32 25 ≤ bits (w.reg ⟨.podPages, q, 0⟩) 0 24 ∨
      bits (w.reg ⟨.podPages, q, 0⟩) 0 24 + bits (w.reg ⟨.podPages, q, 0⟩) 32 25 ≤ bits v 0 24 ∨ bits v 32 25 = 0 ∨
      bits (w.reg ⟨.podPages, q, 0⟩) 32 25 = 0) → w.reserveSum p 16 0 ≤ bits v 32 25 →
    exec (.podPagesWrite who p v) s = .next ((w.plainWrite ⟨.podPages, p, 0⟩ v).updPod p fun x => { x with stack := [], deep := 0, nextPage := bits v 0 24 })) ∧
  (∀ (s w a : State) (who : Requester) (v : BitVec 32) (x : BitVec 64) (e : ResEnt), s.admits ⟨.resSel, 0, 0⟩ w → x = setBit (w64 v) 16 true →
    a = w.plainWrite ⟨.resSel, 0, 0⟩ x → e = resOf (a.staged .resData 0 4 false) → e.target = 2 ∨ e.target = 3 → e.st ≤ 4 →
    a.inPodRange e.fpod 0 e.flag = true → (e.st = 1 → (tget {} a.rs.resid (bits x 0 12) : ResEnt).st ≤ 1) →
    (e.st < 2 → a.resBusy (bits x 0 12) = false) →
    exec (.resCommit who v) s = .next (({ a with rs := { a.rs with resid := tput {} a.rs.resid (bits x 0 12) e } } : State).loadDone).unpark.flushSnap) ∧
  (∀ (s w a : State) (who : Requester) (v : BitVec 32) (x : BitVec 64), s.admits ⟨.tbRelSel, 0, 0⟩ w → x = setBit (w64 v) 16 true →
    a = w.plainWrite ⟨.tbRelSel, 0, 0⟩ x → a.relOk (a.staged .tbRelData 0 6 false) = true →
    exec (.relCommit who v) s = .next { a with tb := { a.tb with
      rel := tput [] a.tb.rel (bits x 0 8) (normWords (a.staged .tbRelData 0 6 false)) } })

/-- The commands of the Link Interface's registers (R121, R305, R306, R311, R354, R459). -/
def Obligations.LinkRegisterWrites : Prop :=
  (∀ (s w : State) (who : Requester) (k : Nat) (v : BitVec 32) (x : BitVec 64), s.admits ⟨.portCfg, k, 0⟩ w → k < 64 →
    x = setBit (w64 v) 0 true → (w.port k).st = .disabled → bit ((w.plainWrite ⟨.portCfg, k, 0⟩ x).reg ⟨.benchLe, 0, 0⟩) (k / 2) = false →
    exec (.portEnable who k v) s = .next ((w.plainWrite ⟨.portCfg, k, 0⟩ x).updPort k fun y =>
      { y with st := .training, since := w.now, sentSeen := false, gotSeen := false, gotAny := false, silentTold := false, helloAt := 0 })) ∧
  (∀ (s w : State) (who : Requester) (k : Nat) (v : BitVec 32) (x : BitVec 64), s.admits ⟨.portCfg, k, 0⟩ w → k < 64 →
    x = setBit (w64 v) 0 false → (w.port k).st ≠ .disabled →
    exec (.portDisable who k v) s = .next (((w.plainWrite ⟨.portCfg, k, 0⟩ x).toPortState k .disabled 2).cutBroken k).flushSnap) ∧
  (∀ (s w : State) (who : Requester) (k : Nat) (v : BitVec 32), s.admits ⟨.portCtrl, k, 0⟩ w → k < 64 → (w.port k).st = .mismatched →
    (w.port k).reason = 1 ∨ (w.port k).reason = 2 →
    exec (.linkAccept who k v) s = .next ((w.setReg ⟨.portExpect, k, 0⟩
      (BitVec.ofNat 64 (w.fld ⟨.portFound, k, 0⟩ 0 13 + w.fld ⟨.portFound, k, 0⟩ 16 6 * 2 ^ 16 + 2 ^ 31))).comeUp k).flushSnap) ∧
  (∀ (s w a : State) (who : Requester) (k : Nat) (v : BitVec 32), s.admits ⟨.portExpect, k, 0⟩ w → k < 64 →
    a = w.plainWrite ⟨.portExpect, k, 0⟩ (w64 v) →
    exec (.portExpectWrite who (some k) v) s = .next (if (a.port k).st = .mismatched ∨ (a.port k).st = .fenced then a.updPort k fun y =>
      { y with st := .hello, since := w.now, sentSeen := false, gotSeen := false, gotAny := false, silentTold := false, helloAt := 0 } else a)) ∧
  (∀ (s w : State) (who : Requester) (v : BitVec 32), s.admits ⟨.liRev, 0, 0⟩ w → liRevOk v.toNat = true →
    exec (.portExpectWrite who none v) s = .next ((w.plainWrite ⟨.liRev, 0, 0⟩ (w64 v)).each (List.range 64) State.judgeAgain).flushSnap) ∧
  (∀ (s w a : State) (who : Requester) (v : BitVec 32) (x : BitVec 64) (i : Nat) (e : List (BitVec 32)), s.admits ⟨.liServeSel, 0, 0⟩ w →
    x = setBit (w64 v) 16 true → i = bits x 0 12 → a = w.plainWrite ⟨.liServeSel, 0, 0⟩ x → e = serveClean (a.staged .liServeData 0 6 false) →
    (serveValid e && a.li.serve.any fun y => decide (y.1 ≠ i) && serveValid y.2 && decide (serveExpert y.2 = serveExpert e)) = false →
    normWords e = a.serveEnt i ∨ (a.li.calls.any fun y => decide (y.1 / 256 = i) && y.2.busy) = false → bits (wordAt e 3) 0 6 = 0 →
    exec (.serveCommit who v) s = .next { a with li := { a.li with serve := tput [] a.li.serve i (normWords e) } })

/-- R12, R167, R375, R416. Where BAR2 stands in the addresses of reads is the model's choice (log entry 85). -/
def Obligations.PageReadsAndReadsWhileSnapped : Prop :=
  (∀ (s w : State) (n : Nat), s.ready = true → s.inputsWait = false → s.gated 0 = false → (s.ob.snapHeld = [] ∨ s.ob.stop = .snapped) →
    w = s.wake 0 → n < 256 →
    exec (.lowHalfRead .host (bar2 + n * 0x1000)) s =
      .next (w.emit (.readData .host (bar2 + n * 0x1000) ((w.slot n).whost.setWidth 64))) ∧
    exec (.lowHalfRead .host (bar2 + n * 0x1000 + 4)) s =
      .next (w.emit (.readData .host (bar2 + n * 0x1000 + 4) ((w.slot n).wdev.setWidth 64))) ∧
    exec (.inspectRead .host (bar2 + n * 0x1000 + 8) true) s =
      .next (w.emit (.readData .host (bar2 + n * 0x1000 + 8) (w.slot n).doneSeq)) ∧
    exec (.lowHalfRead .host (bar2 + n * 0x1000 + 8)) s =
      .next ((w.setHalves .host { w.halves .host with rd := some (bar2 + n * 0x1000 + 8, hiHalf (w.slot n).doneSeq) }).emit
        (.readData .host (bar2 + n * 0x1000 + 8) ((loHalf (w.slot n).doneSeq).setWidth 64))) ∧
    (∀ hi, (w.halves .host).rd = some (bar2 + n * 0x1000 + 8, hi) → exec (.highHalfRead .host (bar2 + n * 0x1000 + 12)) s =
      .next ((w.setHalves .host { w.halves .host with rd := none }).emit (.readData .host (bar2 + n * 0x1000 + 12) (hi.setWidth 64)))) ∧
    ((w.halves .host).rd = none → exec (.highHalfRead .host (bar2 + n * 0x1000 + 12)) s =
      .next (w.emit (.readData .host (bar2 + n * 0x1000 + 12) ((hiHalf (w.slot n).doneSeq).setWidth 64)))) ∧
    (∀ o, 16 ≤ o → o < 0x1000 → exec (.lowHalfRead .host (bar2 + n * 0x1000 + o)) s = .next (s.emit (.abort .host))) ∧
    (∀ k o, exec (.lowHalfRead (.core k) (bar2 + o)) s = .next (s.emit (.abort (.core k))))) ∧
  (∀ (s : State) (who : Requester) (o : Nat), s.ready = false → s.inputsWait = false → (s.ob.snapHeld = [] ∨ s.ob.stop = .snapped) →
    exec (.lowHalfRead who (bar2 + o)) s = .next (s.emit (.abort who))) ∧
  (∀ (s w : State) (who : Requester) (r : Reg), s.ready = true → s.ob.stop = .snapped → s.unitGated r = false → w = s.wakeFor r →
    r.valid = true → r.off / 0x10000 ≠ 8 → r.off / 0x10000 ≠ 11 →
    r.name ∈ [RegName.tsuDisturb, .rqStalls, .slotDbIgnored, .liCnt, .portCfg, .tbBeat, .tbTick, .tbErr, .ctxSlice, .portStatus] →
    exec (.inspectRead who r.off r.row.wide) s = .next (w.emit (.readData who r.off (tget 0 s.ob.edgeRegs r.off))))

/-- R165, R168, R170, R172, R184, R196. The record of DESTROYED carries the sums over the open commands, in place of any the spec names (see NOTES.md). -/
def Obligations.SlotFetchEvents : Prop :=
  (∀ (s t : State) (n v : Nat), (s.slot n).st = .idle → s.slotShadow n = true → s.live 0 = true →
    (s.slot n).polledAt + s.fld ⟨.slotCfg, n, 0⟩ 25 7 ≤ s.now →
    s.atOnce (some (ctxSpace (s.slotCtx n), (s.reg ⟨.slotShadow, n, 0⟩).toNat)) = true →
    t = (s.updSlot n fun x => { x with polledAt := s.now }).noteHost (ctxSpace (s.slotCtx n)) (s.reg ⟨.slotShadow, n, 0⟩).toNat →
    t.readWord (ctxSpace (s.slotCtx n)) (s.reg ⟨.slotShadow, n, 0⟩).toNat 4 = some v →
    exec (.shadowPoll n) s = .next (t.offerValue n (BitVec.ofNat 32 v))) ∧
  (∀ (s a : State) (n : Nat) (es : List Entry), s.nextFetch = some n → s.fetchesOut.length < 8 → (s.slot n).st = .fetching →
    (s.slot n).idleCheck = false → s.live 0 = true → s.fetchCount n ≠ 0 →
    (∀ e, (s.slot n).buf.getLast? = some e → e.bytes ≠ none) →
    s.atOnce (some (ctxSpace (s.slotCtx n), (s.reg ⟨.slotRing, n, 0⟩).toNat + (s.slot n).wdev.toNat % s.ringSize n * 64)) = true →
    a = { s with fe := { s.fe with lastFetch := tput 255 s.fe.lastFetch (s.slotPrio n) n } } →
    es = a.readEntries n (s.slot n).wdev (s.fetchCount n) →
    exec (.ringFetch n) s = .next ((((a.noteHost (ctxSpace (s.slotCtx n)) ((s.reg ⟨.slotRing, n, 0⟩).toNat +
      (s.slot n).wdev.toNat % s.ringSize n * 64)).updSlot n fun x =>
        { x with buf := x.buf ++ es, wdev := x.wdev + BitVec.ofNat 32 es.length }).idleStep n).settleHead n)) ∧
  (∀ (s : State) (n : Nat), (s.slot n).st = .fetching → (s.slot n).idleCheck = true → s.live 0 = true →
    (s.slotShadow n = true → s.atOnce (some (ctxSpace (s.slotCtx n), (s.reg ⟨.slotShadow, n, 0⟩).toNat)) = true) →
    exec (.slotIdleCheck n) s = .next ((if s.slotShadow n then s.readShadow n else s).updSlot n fun x =>
      { x with
        idleCheck := false, st := if x.whost = x.wdev then .idle else x.st,
        polledAt := (if s.slotShadow n then s.readShadow n else s).now })) ∧
  (∀ (s a b : State) (n : Nat) (qs : List Nat), (s.slot n).st = .destroying → s.runs 0 = true → qs = s.openCmds n →
    qs.all (s.cmdSettled n) = true → (s.slot n).waiting.any CplRec.destroyed = false → s.latchOn n = false →
    a = (s.each qs fun t q => t.freeCmd n q).bump (gcnt 13) qs.length → a.latchOn n = false →
    b = a.fileRecord n {
      seq := (s.slot n).nextSeq.toNat - 1, status := 2,
      folded := (qs.map fun q => ((s.cmd n q).map Cmd.folded).getD 0).sum,
      drained := min (qs.map fun q => ((s.cmd n q).map Cmd.drained).getD 0).sum 65535,
      killed := min (qs.map fun q => ((s.cmd n q).map Cmd.killed).getD 0).sum 65535, ctx := s.slotCtx n, destroyed := true } →
    exec (.destroyFinish n) s = .next (if (b.slot n).waiting = [] then b.destroyEnd n else b)) ∧
  (∀ (s : State) (n t : Nat), (s.slot n).irqSince = some t → t + s.fld ⟨.slotIrq, n, 0⟩ 16 10 ≤ s.now → s.runs 0 = true →
    exec (.irqCoalesceTimeout n) s = .next ((s.updSlot n fun x => { x with irqCount := 0, irqSince := none }).msixNow n))

/-- R54, R56, R138 to R140, R174 to R177, R179. `settleHead` then refuses what stands next where no row names it. -/
def Obligations.DescriptorsApplied : Prop :=
  (∀ (s : State) (n : Nat) (e : Entry) (rest : List Entry) (bs : List Byte), (s.slot n).buf = e :: rest → e.bytes = some bs →
    (RingDesc.ofBytes bs).opcode = 0 → s.headOpen n (RingDesc.ofBytes bs) = true → s.live 0 = true →
    exec (.nop n) s = .next ((s.updSlot n fun x => { x with buf := x.buf.drop 1 }).settleHead n)) ∧
  (∀ (s a t : State) (n : Nat) (d : RingDesc) (g : List (List Byte) × List (BitVec 32)), s.heads n 1 d → s.atOnce (s.headArray n) = true → a = (s.taken n d).noteArrays n d →
    a.fetchArrays n d = some g → a.applyGraph (a.graphOf n d (n, (s.slot n).nextSeq.toNat) g) = .ok t →
    exec (.launchGraph n) s = .next ((t.updCmd n (s.slot n).nextSeq.toNat fun x => { x with applied := true }).settle.settleHead n)) ∧
  (∀ (s a t : State) (n : Nat) (d : RingDesc) (g : List (List Byte) × List (BitVec 32)) (c : Cmd), s.heads n 2 d → s.atOnce (s.headArray n) = true →
    (s.popHead n).cmd d.cmdSlot d.cmdSeq = some c → a = (s.popHead n).noteArrays n d →
    a.fetchArrays n d = some g → a.applyGraph (a.graphOf n d (d.cmdSlot, d.cmdSeq) g) = .ok t →
    exec (.appendNodes n) s = .next ((t.updCmd d.cmdSlot d.cmdSeq fun x => { x with applied := true }).settle.settleHead n)) ∧
  (∀ (s a : State) (n : Nat) (d : RingDesc), s.heads n 3 d → a = s.taken n d → a.nodesValid d.ctx = true →
    d.w10 + d.w14 ≤ a.nodeWin d.ctx → (∀ j, j < d.w14 → (a.node (nk d.ctx (d.w10 + j))).st = .template) →
    exec (.templateRelease n) s = .next (((a.each ((List.range d.w14).map fun j => nk d.ctx (d.w10 + j)) fun t k => t.setNode k {}).updCmd n
      (s.slot n).nextSeq.toNat fun x => { x with applied := true }).settleHead n)) ∧
  (∀ (s a : State) (n : Nat) (d : RingDesc) (bs : List Byte), s.heads n 4 d → s.atOnce (s.headArray n) = true →
    a = (s.taken n d).noteHost ((s.taken n d).arraySpace n d) d.addr →
    a.readBytes ((s.taken n d).arraySpace n d) d.addr (128 * d.w10) = some bs →
    exec (.rosterAdmit n) s = .next (((a.each (chunks 128 d.w10 bs) fun t r => t.admitRecord (d.w14 % 16) d.ctx r).updCmd n
      (s.slot n).nextSeq.toNat fun x => { x with applied := true }).settleHead n)) ∧
  (∀ (s a : State) (n : Nat) (d : RingDesc) (bs : List Byte), s.heads n 5 d → s.atOnce (s.headArray n) = true →
    a = (s.taken n d).noteHost ((s.taken n d).arraySpace n d) d.addr →
    a.readBytes ((s.taken n d).arraySpace n d) d.addr (16 * d.w10) = some bs →
    exec (.rosterExtend n) s = .next (((a.each (chunks 16 d.w10 bs) fun t r => t.extendRecord (d.w14 % 16) d.ctx r).updCmd n
      (s.slot n).nextSeq.toNat fun x => { x with applied := true }).settleHead n)) ∧
  (∀ (s a : State) (n : Nat) (d : RingDesc) (bs : List Byte), s.heads n 6 d → s.atOnce (s.headArray n) = true →
    a = (s.taken n d).noteHost ((s.taken n d).arraySpace n d) d.addr →
    a.readBytes ((s.taken n d).arraySpace n d) d.addr (4 * d.w10) = some bs →
    exec (.rosterFold n) s = .next (((a.each (chunks 4 d.w10 bs) fun t r => t.foldRecord (d.w14 % 16) r).updCmd n
      (s.slot n).nextSeq.toNat fun x => { x with applied := true }).settleHead n)) ∧
  (∀ (s a : State) (n : Nat) (d : RingDesc), s.heads n 7 d → a = s.taken n d →
    exec (.foldCommand n) s = .next (((if (a.cmd d.cmdSlot d.cmdSeq).isSome then
        (a.each (a.landingsWhere fun l => decide (l.owner = .command d.cmdSlot d.cmdSeq)) State.revoke).each
          ((a.each (a.landingsWhere fun l => decide (l.owner = .command d.cmdSlot d.cmdSeq)) State.revoke).cmdNodes d.cmdSlot d.cmdSeq)
            State.foldOne
      else a.bump ⟨.slotFoldLate, n, 0⟩ 1).updCmd n (s.slot n).nextSeq.toNat fun x => { x with applied := true }).settleHead n)) ∧
  (∀ (s a : State) (n : Nat) (d : RingDesc), s.heads n 8 d → a = s.taken n d →
    exec (.report n) s = .next (((a.report {
      typ := 0x02, source := 0x8000, ctx := some d.ctx,
      body := [d.addr, d.user, (s.slot n).nextSeq.toNat], cmd := some (n, (s.slot n).nextSeq.toNat) }).updCmd n
        (s.slot n).nextSeq.toNat fun x => { x with applied := true, owesPacket := true }).settleHead n))

/-- R57, R181 to R184, R186, R193, R194, R250. -/
def Obligations.CommandsRetireAndPointersResolve : Prop :=
  (∀ (s a0 a b : State) (n seq : Nat) (x : Cmd) (e : Nat × Nat), s.cmd n seq = some x → x.applied = true → x.owesPacket = false →
    (s.slot n).st ≠ .destroying → s.tearing x.ctx = false → s.away x.ctx = false → s.cmdSettled n seq = true → s.runs 0 = true →
    x.startLatched = false → e = x.ending.getD (stOK, 0) → a0 = (s.freeCmd n seq).bump (gcnt 13) 1 →
    a = (if a0.cmdsOfCtx x.ctx = [] then a0.unblockIdle x.ctx else a0) →
    b = (if e.1 ≠ stOK ∨ x.dflags.testBit 1 = true then a.updSlot n fun y => { y with notes := y.notes ++ [(seq, decide (e.1 ≠ stOK))] } else a) →
    exec (.commandRetire n seq) s = .next (((if e.1 ≠ stOK ∨ x.dflags.testBit 2 = true then b.fileRecord n {
        seq := seq, user := x.user, status := e.1, opcode := x.opcode, cause := e.2, folded := x.folded,
        drained := min x.drained 65535, killed := min x.killed 65535, ctx := x.ctx }
      else b).advanceDone n).settleHead n)) ∧
  (∀ (s t : State) (n : Nat) (r : CplRec) (rest : List CplRec), (s.slot n).waiting = r :: rest → s.cplFull n = false → s.runs 0 = true →
    (s.updSlot n fun x => { x with waiting := rest }).slotWrite n (bits (s.reg ⟨.slotCpl, n, 0⟩) 6 58 * 64 +
      (s.reg ⟨.slotCplWr, n, 0⟩).toNat % s.cplSize n * 32) (r.bytes n) = (t, true) →
    exec (.completionRecordWrite n) s = .next (if r.destroyed then
        (t.setReg ⟨.slotCplWr, n, 0⟩ (BitVec.ofNat 64 (((s.reg ⟨.slotCplWr, n, 0⟩).toNat + 1) % 2 ^ 32))).destroyEnd n
      else (t.setReg ⟨.slotCplWr, n, 0⟩ (BitVec.ofNat 64 (((s.reg ⟨.slotCplWr, n, 0⟩).toNat + 1) % 2 ^ 32))).advanceDone n)) ∧
  (∀ (s : State) (n seq : Nat) (x : Cmd), s.cmd n seq = some x → s.fld ⟨.cmdLimit, 0, 0⟩ 0 32 < x.age → x.ending = none →
    (s.ctx x.ctx).st = .resident → s.runs 0 = true → s.timersOn = true →
    exec (.commandWatchdog n seq) s = .next ((s.report {
      typ := 0x14, status := stWATCHDOG, source := 0x8000, ctx := some x.ctx,
      body := [seq, n + x.age % 2 ^ 56 * 2 ^ 8] }).endCmd n seq stWATCHDOG 0)) ∧
  (∀ (s t : State) (c i p : Nat), (s.node (nk c i)).st = .ready → (s.node (nk c i)).indirect = true → (s.node (nk c i)).ptr = none →
    ((s.node (nk c i)).d.kind = .task ∨ (s.node (nk c i)).d.kind = .sprout) → s.runs 1 = true →
    s.atOnce (some (ctxSpace (s.node (nk c i)).ptrCtx, (s.node (nk c i)).d.b.toNat)) = true →
    t = s.noteHost (ctxSpace (s.node (nk c i)).ptrCtx) (s.node (nk c i)).d.b.toNat →
    t.readWord (ctxSpace (s.node (nk c i)).ptrCtx) (s.node (nk c i)).d.b.toNat 8 = some p → p % 256 = 0 →
    exec (.indirectPointerRead c i) s = .next (t.updNode (nk c i) fun n => { n with ptr := some (BitVec.ofNat 64 p) })) ∧
  (∀ (s : State) (i : Nat), bit (s.reg ⟨.tileOwner, i, 0⟩) 5 = true → s.tileIdle i = true →
    exec (.tileDeparted i) s = .next (s.setReg ⟨.tileOwner, i, 0⟩ (setBit (s.reg ⟨.tileOwner, i, 0⟩) 5 false)))

/-- R221, R257, R258, R260, R261, R269, R271, R272. -/
def Obligations.ContextsSaveAndRestore : Prop :=
  (∀ (s a t : State) (c : Nat), s.saveSettled c = true → s.runs 1 = true → (s.ctx c).faultedInSave = false → (s.ctx c).st = .saving →
    a = (s.withdrawAll c).flushXlat c → (a.saveImage c).length ≤ (a.reg ⟨.ctxSaveSize, c, 0⟩).toNat →
    a.writeBytes devSpace (a.reg ⟨.ctxSaveAddr, c, 0⟩).toNat (a.saveImage c) = some t →
    exec (.saveImageWrite c) s = .next ((((t.leaveSaved c (a.saveImage c).length (leAt (a.saveImage c) 0x5C 4)).settlePend c).tellDonations c).swapNext (s.podOf c))) ∧
  (∀ (s a t : State) (c : Nat) (img : List Byte), (s.ctx c).st = .restoring → s.runs 1 = true →
    s.atOnce (some (devSpace, (s.reg ⟨.ctxSaveAddr, c, 0⟩).toNat)) = true → a = s.noteHost devSpace (s.reg ⟨.ctxSaveAddr, c, 0⟩).toNat →
    a.readImage c = .ok img → a.restoreCause c img = none → t = (a.restoreFrom c img).settlePend c → (t.pod (s.podOf c)).swapIn = none →
    exec (.restoreComplete c) s = .next t) ∧
  (∀ (s a b d : State) (e addr u : Nat) (q : Option Nat) (l : Launch), (s.eng e).job = some l → (s.eng e).susp = some (u, addr, q) →
    s.portHolds e = false → (s.eng e).reset = none → s.runs 2 = true →
    a = ((s.closeWatch e).updEng e fun x => { x with susp := none }).freeUp e →
    b = a.addEnt (engRegion e) l.key (some { launch := l, engine := e, addr := addr, since := a.now, claims := (s.eng e).claims }) →
    d = (b.bump (ctxCnt l.ctx 3) 1).traceNode 5 (engRegion e) l.key (some e) l.panel →
    exec (.suspendReport e) s = .next (((match q with | some t => d.holdFor e t | none => d).rehomeAnd false fun _ => false).checkDonations)) ∧
  (∀ (s : State) (e t addr : Nat) (q : Option Nat) (l : Launch), (s.eng e).job = some l → (s.eng e).susp = some (t, addr, q) →
    t + s.fld ⟨.podPreempt, s.podOf l.ctx, 0⟩ 16 10 ≤ s.now → s.runs 2 = true →
    exec (.suspendTimeout e) s = .next (((s.updCtx l.ctx fun c => { c with suspUsed := c.suspUsed.filter (· ≠ addr) }).updEng e
      fun y => { y with susp := none }).bump ⟨.podSuspLate, s.podOf l.ctx, 0⟩ 1)) ∧
  (∀ (s : State) (f : Nat) (d : Donation), s.sy.donations.find? (fun d => decide (d.flag = f)) = some d →
    d.since + s.fld ⟨.donateLimit, 0, 0⟩ 0 20 ≤ s.now → s.timersOn = true → s.runs 3 = true →
    exec (.donateTimeout f) s = .next ((s.endDonation f).ctxFault d.holder { status := stCLAIM_TIMEOUT, detail := f } 0x8003)) ∧
  (∀ (s a : State) (p t : Nat), (s.pod p).allSince = some t → s.allBlockedNow p = true → (s.pod p).allRaised = false →
    t + s.fld ⟨.stallWindow, 0, 0⟩ 0 16 ≤ s.now → s.timersOn = true → s.runs 1 = true →
    a = s.updPod p (fun x => { x with allRaised := true }) →
    exec (.allBlocked p) s = .next (
      if bit (s.reg ⟨.podSwap, p, 0⟩) 0 then
        (a.report { typ := 0x44, source := 0x8001, pod := some p, body := [(a.podBusy p).length] }).autoSwap p
      else a.report { typ := 0x44, source := 0x8001, pod := some p, body := [(a.podBusy p).length] })) ∧
  (∀ (s : State) (p o h : Nat) (q : List Nat), (s.pod p).swapOut = some o → (s.ctx o).st = .saved → (s.ctx o).faultedInSave = false →
    s.runs 1 = true → (s.pod p).swapq = h :: q → (s.ctx h).st = .saved → s.podOf h = p →
    exec (.autoSwapRestore p) s = .next (((((s.updPod p fun x => { x with swapOut := none }).updPod p
      fun x => { x with swapq := q }).startRestore h).updPod p fun x => { x with swapIn := some (o, h) }).swapNext p))

/-- R206 to R213, R217, R225, R246. An engine's WAIT with COND CLAIM acts as a CLAIM, the model's choice (log entry 32). -/
def Obligations.EngineSyncOperations : Prop :=
  (∀ (s a b : State) (e vid : Nat) (sc : Sys2Proof.Scope) (q : SyncReq) (w : BitVec 64) (key : Nat), s.asks a e vid sc .set q w key →
    b = (a.counted q.src.ctx).signalled key q →
    exec (.syncSet e vid sc) s = .next (if (b.obj key).value = 1 then
        ((b.setObj key { b.obj key with
          overset := if (b.obj key).overset = 255 then 255 else (b.obj key).overset + 1 }).misuse key 0 q.src.ctx).objTested key
      else (b.setObj key { b.obj key with value := 1 }).objChanged key)) ∧
  (∀ (s a b : State) (e vid : Nat) (sc : Sys2Proof.Scope) (q : SyncReq) (w : BitVec 64) (key : Nat), s.asks a e vid sc .clear q w key →
    b = (a.counted q.src.ctx).signalled key q →
    exec (.syncClear e vid sc) s = .next (if (b.obj key).value = 0 then b.objTested key
      else (b.updObj key fun o => { o with value := 0 }).objChanged key)) ∧
  (∀ (s a b : State) (e vid : Nat) (sc : Sys2Proof.Scope) (q : SyncReq) (w : BitVec 64) (key v p : Nat) (amt : BitVec 48), s.asks a e vid sc (.advance amt.toNat) q w key →
    b = (a.counted q.src.ctx).signalled key q → v = (b.obj key).value.toNat + amt.toNat →
    p = (b.obj (2 ^ 18 + (b.obj key).partner.toNat)).value.toNat →
    exec (.syncAdvance e vid sc amt) s = .next (
      if (b.obj key).role = 2 ∧ p < v then b.misuse key 2 q.src.ctx
      else if (b.obj key).role = 1 ∧ p + (b.obj key).depth.toNat < v then b.misuse key 3 q.src.ctx
      else if 2 ^ 48 ≤ v then
        ((b.setObj key { b.obj key with value := BitVec.ofNat 48 (2 ^ 48 - 1) }).misuse key 1 q.src.ctx).objChanged key
      else (b.setObj key { b.obj key with value := BitVec.ofNat 48 v }).objChanged key)) ∧
  (∀ (s a b t : State) (e vid : Nat) (sc : Sys2Proof.Scope) (q : SyncReq) (w : BitVec 64) (key : Nat), s.asks a e vid sc .release q w key →
    b = (a.counted q.src.ctx).signalled key q → (b.obj key).value ≠ 0 → (b.obj key).owner.toNat = q.src.ctx →
    t = (b.endDonation key).forgetClaim key →
    exec (.syncRelease e vid sc) s = .next (match (b.obj key).waiters.find? fun w => w.claimer with
      | some w => (((t.grant key w.ctx (if w.engine then some w.who else none)).mirrorAll key).releaseOk key w).checkDonation key
      | none => (t.updObj key fun o => { o with value := 0, owner := 0 }).objChanged key)) ∧
  (∀ (s a b : State) (e vid : Nat) (sc : Sys2Proof.Scope) (q : SyncReq) (w : BitVec 64) (key : Nat), s.asks a e vid sc .release q w key →
    b = (a.counted q.src.ctx).signalled key q → (b.obj key).value = 0 ∨ (b.obj key).owner.toNat ≠ q.src.ctx →
    exec (.syncRelease e vid sc) s = .next (b.misuse key 4 q.src.ctx)) ∧
  (∀ (s a : State) (e vid : Nat) (sc : Sys2Proof.Scope) (q : SyncReq) (w : BitVec 64) (key : Nat) (cond : Cond) (thr : BitVec 48), cond ≠ .claim →
    s.asks a e vid sc (.wait (condCode cond) thr.toNat) q w key →
    exec (.syncWait e vid sc cond thr) s = .next (if (a.obj key).holds (condCode cond) thr.toNat then
        ((a.counted q.src.ctx).acquire key q.scope q.src.ctx (.engine e)).emit (.answer e .ok 0)
      else (a.counted q.src.ctx).enlist key q w false (condCode cond) thr.toNat)) ∧
  (∀ (s : State) (e vid : Nat) (sc : Sys2Proof.Scope) (thr : BitVec 48),
    exec (.syncWait e vid sc .claim thr) s = exec (.syncClaim e vid sc) s) ∧
  (∀ (s a : State) (e vid : Nat) (sc : Sys2Proof.Scope) (q : SyncReq) (w : BitVec 64) (key : Nat), s.asks a e vid sc .claim q w key →
    exec (.syncClaim e vid sc) s = .next (if (a.obj key).value = 0 then
        ((((a.counted q.src.ctx).grant key q.src.ctx (some e)).objChanged key).acquire key q.scope q.src.ctx (.engine e)).emit (.answer e .ok 0)
      else ((a.counted q.src.ctx).enlist key q w true 3 0).checkDonation key)) ∧
  (∀ (s a : State) (e vid : Nat) (sc : Sys2Proof.Scope) (q : SyncReq) (w : BitVec 64) (key : Nat), s.asks a e vid sc .tryClaim q w key →
    exec (.syncTryClaim e vid sc) s = .next (if (a.obj key).value = 0 then
        ((((a.counted q.src.ctx).grant key q.src.ctx (some e)).objChanged key).acquire key q.scope q.src.ctx (.engine e)).emit (.answer e .ok 0)
      else (a.counted q.src.ctx).emit (.answer e .busy 0))) ∧
  (∀ (s a : State) (e vid : Nat) (sc : Sys2Proof.Scope) (q : SyncReq) (w : BitVec 64) (key : Nat), s.asks a e vid sc .read q w key →
    exec (.syncRead e vid sc) s = .next (((a.counted q.src.ctx).acquire key q.scope q.src.ctx (.engine e)).emit
      (.answer e .ok (BitVec.ofNat 64 (a.obj key).word))))

/-- R43, R202, R204, R212, R214, R216, R221, R227, R229, R241. -/
def Obligations.SyncNodesTranslationsAndInvalidations : Prop :=
  (∀ (s : State) (c i : Nat) (d : Desc), d = (s.node (nk c i)).d → (s.node (nk c i)).st = .ready → d.kind = .signal → s.runs 3 = true →
    exec (.signalNode c i) s = .next ((s.updNode (nk c i) fun n => { n with st := .active, startedAt := s.now, place := .unit }).syncOp {
      src := .node (nk c i), vid := d.syncId, scope := d.scope,
      op := if d.op = 0 then .set else if d.op = 1 then .clear else if d.op = 2 then .advance d.amount else .release })) ∧
  (∀ (s : State) (c i : Nat) (d : Desc), d = (s.node (nk c i)).d → (s.node (nk c i)).st = .ready → d.kind = .wait → s.runs 3 = true →
    s.saveHolds (nk c i) = false →
    exec (.waitNodeRegister c i) s = .next ((s.updNode (nk c i) fun n => { n with st := .active, startedAt := s.now, place := .unit }).syncOp {
      src := .node (nk c i), vid := d.syncId, scope := d.scope, op := if d.op = 3 then .claim else .wait d.op d.amount })) ∧
  (∀ (s t : State) (k : Nat) (w : BitVec 64) (rest : List (Nat × BitVec 64)), s.sy.recWait = (k, w) :: rest → s.nodeRecords < 126816 →
    s.runs 3 = true →
    t = (match s.entryCause (s.waitReq k) w with
      | some cause => s.syncFail (s.waitReq k) cause
      | none => s.applyOp (entryKey w) (s.waitReq k) w) →
    exec .waiterRecordGrant s = .next { t with sy := { t.sy with recWait := t.sy.recWait.filter fun x => decide (x.1 ≠ k) } }) ∧
  (∀ (s t : State) (c v a w : Nat) (qs : List SyncReq),
    qs = sortBy (fun x y => decide (s.reqRank x ≤ s.reqRank y)) (s.sy.xlatWait.filter fun q => decide (q.src.ctx = c) && decide (q.vid = v)) →
    qs ≠ [] → s.runs 3 = true → v < s.fld ⟨.xlatLimit, c, 0⟩ 0 25 → a = (s.reg ⟨.xlatBase, c, 0⟩).toNat + 8 * v →
    s.atOnce (some (ctxSpace c, a)) = true →
    t = ({ s with sy := { s.sy with xlatWait := s.sy.xlatWait.filter fun q => !(decide (q.src.ctx = c) && decide (q.vid = v)) } } :
      State).noteHost (ctxSpace c) a →
    t.readWord (ctxSpace c) a 8 = some w →
    exec (.xlatFill c v) s = .next ((if bit (BitVec.ofNat 64 w) 63 then
        { t with sy := { t.sy with
          cache := ((c, v, BitVec.ofNat 64 w) :: t.sy.cache.filter fun x => !(decide (x.1 = c) && decide (x.2.1 = v))).take 8192 } }
      else t).each qs fun u q => u.withEntry q (BitVec.ofNat 64 w))) ∧
  (∀ (s : State) (c v : Nat) (qs : List SyncReq),
    qs = sortBy (fun x y => decide (s.reqRank x ≤ s.reqRank y)) (s.sy.xlatWait.filter fun q => decide (q.src.ctx = c) && decide (q.vid = v)) →
    qs ≠ [] → s.runs 3 = true → s.fld ⟨.xlatLimit, c, 0⟩ 0 25 ≤ v →
    s.atOnce (some (ctxSpace c, (s.reg ⟨.xlatBase, c, 0⟩).toNat + 8 * v)) = true →
    exec (.xlatFill c v) s = .next (({ s with sy := { s.sy with
      xlatWait := s.sy.xlatWait.filter fun q => !(decide (q.src.ctx = c) && decide (q.vid = v)) } } : State).each qs fun u q => u.syncFail q 0x50)) ∧
  (∀ (s : State) (c : Nat) (v : Option Nat), s.sy.inv = some (c, v) → s.runs 3 = true →
    exec .xlatInvDone s = .next { s with sy := { s.sy with
      inv := none,
      cache := s.sy.cache.filter fun x => !(decide (x.1 = c) && decide (∀ i, v = some i → x.2.1 = i)) } }) ∧
  (∀ (s t : State), s.sy.dumpBusy = true → s.writeBytes devSpace s.sy.dumpAt s.sy.dumpHeader = some t →
    exec .syncDumpDone s = .next { t with sy := { t.sy with dumpBusy := false, dumpAt := 0, dumpHeader := [] } }) ∧
  (∀ (s : State) (e addr len : Nat), (s.eng e).job.isSome = true → (s.eng e).inval = false → addr % 64 = 0 → 1 ≤ len → len ≤ 2 ^ 24 →
    s.runs 2 = true →
    exec (.invalRequest e addr len) s = .next (
      if isLE e then (s.updEng e fun x => { x with inval := true }).emit (.inval e addr len)
      else ((s.updEng e fun x => { x with inval := true }).emit (.inval e addr len)).bump ⟨.dlInvals, engRegion e, 0⟩ 1)) ∧
  (∀ (s : State) (e : Nat), (s.eng e).inval = true → s.runs 2 = true →
    exec (.invalDone e) s = .next ((s.updEng e fun x => { x with inval := false }).emit (.invalAnswer e)))

/-- R365, R372, R374, R376, R379, R380, R384, R385, R388, R391, R392, R396. -/
def Obligations.StartResetAndServiceEvents : Prop :=
  (∀ (s t : State) (f : FlashRead), s.st.phase = .settings →
    t = (((s.each ((s.choose f).startCommands f) State.emit).noteBad (s.choose f)).setFld ⟨.tsuStart, 0, 0⟩ 4 2 (s.choose f).src).setFld ⟨.tsuStart, 0, 0⟩ 2 2 (s.choose f).why →
    exec (.settingsRead f) s = .next (if (s.choose f).src = 0 then
        { t.report { typ := 0x2D, source := 0x8009, body := [(s.choose f).why] } with st := { t.st with phase := .pll } }
      else { t.applyAtStart (s.choose f).recs with st := { (t.applyAtStart (s.choose f).recs).st with phase := .pll } })) ∧
  (∀ (s : State), s.ready = false → exec .gsInitDone s = .next { s with st := { s.st with gsDone := true } }) ∧
  (∀ (s : State) (d : Nat), s.st.phase = .pll → (s.clock d).pll = false →
    exec (.pllStable d) s = .next (s.updClock d fun x => { x with pll := true, step := 1, goal := 16 })) ∧
  (∀ (s t : State), s.st.phase = .pll → s.st.gsDone = true → (∀ d, d < 10 → (s.clock d).pll = true ∧ (s.clock d).step = 16) →
    t = s.align [0, 1, 2, 3, 4, 5, 6, 7] →
    exec .startReady s = .next (({ t with st := { t.st with phase := .ready, alignAt := (t.reg (gcnt 0)).toNat } } : State).setFld
      ⟨.tsuStart, 0, 0⟩ 0 2 3)) ∧
  (∀ (s t : State) (f : FlashRead), s.sv.reloading = true →
    t = (State.each { s with sv := { s.sv with reloading := false } } ((s.chooseCopy f).commands f) State.emit).noteBad (s.chooseCopy f) →
    exec (.reloadComplete f) s = .next (if (s.chooseCopy f).src = 0 then t.orReg ⟨.tsuSettings, 0, 0⟩ 0x200
      else ((t.setFld ⟨.tsuStart, 0, 0⟩ 4 2 (s.chooseCopy f).src).setFld ⟨.tsuStart, 0, 0⟩ 2 2 0).applyLive (s.chooseCopy f).recs)) ∧
  (∀ (s t : State) (rx bs : List Byte), s.sv.spiBusy = true →
    bs = (if bit (s.reg ⟨.spiCtrl, 0, 0⟩) 23 then s.spiBuf
      else fit (s.fld ⟨.spiCtrl, 0, 0⟩ 16 7) rx ++ s.spiBuf.drop (s.fld ⟨.spiCtrl, 0, 0⟩ 16 7)) →
    t = s.each (List.range 16) (fun t j => t.setReg ⟨.spiData, j, 0⟩ (BitVec.ofNat 64 (leAt bs (4 * j) 4))) →
    exec (.spiDone rx) s = .next { t with sv := { t.sv with
      spiBusy := false, reloading := t.sv.reloading || t.sv.reloadPending, reloadPending := false } }) ∧
  (∀ (s : State) (k : Nat), (s.core k).st = 1 →
    exec (.firmwareLoaded k) s = .next (match s.fwJudge k with
      | .inr (h, body) => ((s.updCore k fun c => { c with
          st := 2, reason := 0, kickedAt := s.now, mem := h ++ body, entry := leAt h 0x10 4 }).setReg ⟨.fwVersion, k, 0⟩
            (BitVec.ofNat 64 (leAt h 8 4))).emit (.coreStart k (leAt h 0x10 4))
      | .inl why => ((s.updCore k fun c => { c with st := 3, reason := why, mem := [], entry := 0 }).setReg ⟨.fwVersion, k, 0⟩ 0).report {
          typ := 0x2E, source := 0x8008, body := [k + why * 2 ^ 8] })) ∧
  (∀ (s : State) (u : Nat), s.unitBusy u = false → (s.compat = true → bit (s.reg ⟨.tsuClken, 0, 0⟩) u = false) →
    exec (.nativeGateStop u) s = .next (s.setReg ⟨.tsuClken, 0, 0⟩ (setBit (s.reg ⟨.tsuClken, 0, 0⟩) (16 + u) true))) ∧
  (∀ s : State, exec .chipReset s =
    .next { State.reset with pending := s.pending, mem := s.mem, poison := s.poison, mmu := s.mmu, out := s.out }) ∧
  (∀ s : State, exec .supplyReset s =
    .next { State.reset with pending := s.pending, mem := s.mem, poison := s.poison, mmu := s.mmu, out := Out.linkLost :: s.out })

/-- R319, R355, R368, R371, R406 to R408, R411, R415, R417, R460. -/
def Obligations.StopsDumpsTraceAndReturnsEnd : Prop :=
  (∀ s : State, s.ob.stop = .quiescing → s.enginesIdle = true →
    exec .quiesceReached s = .next (({ s with ob := { s.ob with stop := .quiesced, cut := (s.beat, s.ts) } } : State).report {
      typ := 0x82, source := 0x8007, body := [s.beat] })) ∧
  (∀ s t : State, s.ob.dumpBusy = true → s.ob.dumpBody = [] → 0 < s.dl.obsBucket → s.writeBytes devSpace s.ob.dumpAt s.ob.dumpHeader = some t →
    exec .snapDumpDone s = .next ((({ t with ob := { t.ob with dumpBusy := false, dumpAt := 0, dumpHeader := [], dumpNext := 0 } } : State).bump
      (gcnt 14) ((s.ob.dumpHeader.length + 63) / 64)).payObs ((s.ob.dumpHeader.length + 63) / 64))) ∧
  (∀ (s : State) (k : Nat), s.ob.stop = .snapped → (s.port k).cut = 4 → s.ob.snapAt + 100 ≤ s.now →
    exec (.cutMarkerTimeout k) s = .next ((s.updPort k fun x => { x with cut := 3, inCut := false }).cutCheck)) ∧
  (∀ s t : State, s.sinkOn = true → s.sinkDue = true → s.sinkReady = true →
    t = (({ s with ob := { s.ob with trace := s.ob.trace.drop 7, fseq := (s.ob.fseq + 1) % 2 ^ 32 } } : State).sinkPut s.ob.fseq
      (s.frame (s.ob.trace.take 7) (s.ob.draining.isSome && decide (s.ob.trace.length ≤ 7)))).traceEnter.lossResume →
    exec .traceFrameSend s = .next (match s.ob.draining with
      | some why => if s.ob.trace.length ≤ 7 then
          ({ t with ob := { t.ob with draining := none } } : State).report { typ := 0x81, source := 0x8007, body := [why] }
        else t
      | none => t)) ∧
  (∀ s : State, s.alignDue = true →
    exec .traceAlignSend s = .next (({ s with ob := { s.ob with alignedAt := some s.now } } : State).sendLanes fun lane =>
      [controlBlock 0xA1 lane s.ob.fseq])) ∧
  (∀ s : State, s.alignDue = false → exec .traceAlignSend s = .next s) ∧
  (∀ s : State, s.sv.uartOff = false →
    exec .uartRxFault s = .next ((({ s with sv := { s.sv with uartOff := true, session := false } } : State).bump ⟨.uartErr, 0, 0⟩
      (1 + Config.framingErrors s.now (s.reg ⟨.uartErr, 0, 0⟩).toNat)).report { typ := 0x2C, source := 0x8009, body := [1] })) ∧
  (∀ s : State, exec .uartRxRecover s = .next { s with sv := { s.sv with uartOff := false } }) ∧
  (∀ (s a b : State) (lv u : Nat) (rest : List (Nat × Nat)) (ok : Bool), s.fc.unbench = (lv, u) :: rest → s.hubOn = true →
    a = { s with fc := { s.fc with unbench := rest } } → b = (a.clearBench lv u).mapChange →
    exec (.unbenchComplete ok) s = .next (if ok = true ∧ s.benchedAt lv u = true then
        (b.report { typ := 0x24, source := 0x8009, body := [lv + u * 2 ^ 16, (b.reg ⟨.mapSeq, 0, 0⟩).toNat] }).rehome
      else a.fcErr 0))

/-- R23, R339, R343, R350, R352, R354, R357, R358, R371, R421. Path 8 of REGION_PATH_FAULT is the trace path, the model's choice (log
entry 49); so are a dealer number from 8 on and a count of resends below 8 (log entry 85). -/
def Obligations.FaultEventsTakeEffect : Prop :=
  (∀ (s : State) (c : Nat), (s.ctx c).st = .faulted → (s.ctx c).torn = false → (s.ctx c).faultedInSave = false → s.tearDrained c = true →
    s.hubOn = true → exec (.teardownContinue c) s = .next (s.tearOn c)) ∧
  (∀ (s : State) (e : Nat) (lines : List Nat), isCell e = true → s.benched e = false → s.hubOn = true →
    (s.canHang e = true → exec (.cellHang e lines) s = .next ((s.poisonLines lines).benchCell e 0)) ∧
    exec (.cellUncorrectable e lines) s = .next ((s.poisonLines lines).benchCell e 1) ∧
    exec (.cellPortParity e lines) s = .next ((s.poisonLines lines).benchCell e 2)) ∧
  (∀ (s : State) (i : Nat) (lines : List Nat), i < 384 → bit (s.reg ⟨.benchCells, i, 0⟩) 15 = false →
    bit (s.reg ⟨.benchRegions, 0, 0⟩) (i / 48) = false → s.hubOn = true →
    exec (.mirrorParity i lines) s = .next ((s.poisonLines lines).benchTile i 2)) ∧
  (∀ (s : State) (k reason : Nat), k < 32 → (reason = 0 ∨ reason = 1 ∨ reason = 8) → s.hubOn = true → s.benched (leId k) = false →
    exec (.leBench k reason) s = .next (((s.bench [{ level := 3, unit := leId k, reason := reason, cells := [leId k] }]).toPortState
      (2 * k) .disabled 3).toPortState (2 * k + 1) .disabled 3)) ∧
  (∀ (s : State) (r : Nat), s.regionIn r = true → s.hubOn = true →
    exec (.dealerParity r) s = .next (if (s.dealer r).rebuild then s.loseRegion r 7 else s.startRebuild r)) ∧
  (∀ (s : State) (r : Nat), 8 ≤ r → exec (.dealerParity r) s = .next (s.enterFatal (hubPart r))) ∧
  (∀ (s : State) (r seq n : Nat), n < 8 → exec (.regionPathFault r ⟨seq, n⟩) s = .next (if 2 ≤ n then s.disturb 2 else s)) ∧
  (∀ (s : State) (r : Nat), (s.dealer r).rebuild = true → s.hubOn = true →
    exec (.dealerRebuilt r) s = .next ((s.updDealer r fun d => { d with rebuild := false }).report {
      typ := 0x27, source := 0x8002, body := [r % 8 + (s.dealer r).hands.length % 2 ^ 16 * 2 ^ 16] })) ∧
  (∀ (s t a : State) (r seq n : Nat), 8 ≤ n → t = s.disturb 2 → t.regionIn r = true → t.hubOn = true →
    a = (t.report { typ := 0x25, source := 0x8009, body := [pathArg 0 r seq] }).updDealer r (fun d => { d with lastPathFault := some t.now }) →
    exec (.regionPathFault r ⟨seq, n⟩) s = .next (if (t.dealer r).pathDown = true ∨ (∃ w, (t.dealer r).lastPathFault = some w ∧ t.now ≤ w + 1000) then
        a.loseRegion r 6
      else (a.updDealer r fun d => { d with pathDown := true, pathDownAt := t.now, pathSeq := seq }).disturb 2)) ∧
  (∀ (s t a : State) (seq n : Nat), 8 ≤ n → t = s.disturb 2 → t.ob.traceDown = false → a = t.report { typ := 0x25, source := 0x8009, body := [pathArg 2 0 seq] } →
    exec (.regionPathFault 8 ⟨seq, n⟩) s = .next (
      if t.trcMode = 0 ∧ t.ob.draining = none then { a with ob := { a.ob with traceDown := true, draining := none } }
      else ({ a with ob := { a.ob with traceDown := true, draining := none } } : State).report {
        typ := 0x81, source := 0x8007, body := [1] })) ∧
  (∀ (s : State) (r : Nat) (ok : Bool), (s.dealer r).pathDown = true → s.hubOn = true →
    exec (.pathResetDone r ok) s = .next (if ok = true ∧ s.now ≤ (s.dealer r).pathDownAt + 20 then
        ((s.updDealer r fun d => { d with pathDown := false }).align [r]).report {
          typ := 0x26, source := 0x8009, body := [pathArg 0 r (s.dealer r).pathSeq, s.now - (s.dealer r).pathDownAt] }
      else s.loseRegion r 6))

/-- R359, R363, R364, R366, R376, R377, R379, R396. LEVEL of SUPPLY_RECOVERED as steps below nominal is the model's reading (see NOTES.md);
that a dealer has no lead while its clock is off nominal is the model's choice (log entry 26). -/
def Obligations.ServiceCoresAndSupply : Prop :=
  (∀ (s : State) (k : Nat), k < 9 → (s.core k).st = 2 → (s.core k).kickedAt + 100000 ≤ s.now →
    exec (.serviceWatchdogExpiry k) s = .next ((((if k = 8 then { s with sv := { s.sv with session := false } } else s).updCore k fun c => { c with
      st := 4, mem := [], entry := 0 }).emit (.coreReset k)).report { typ := 0x2B, source := 0x8009, body := [k] })) ∧
  (∀ (s : State) (k : Nat), k < 9 → (s.core k).st ≠ 4 →
    exec (.servicePathParity k) s = .next ((((if k = 8 then { s with sv := { s.sv with session := false } } else s).updCore k fun c => { c with
      st := 4, mem := [], entry := 0 }).emit (.coreReset k)).report { typ := 0x2B, source := 0x8009, body := [k + 16] })) ∧
  (∀ (s a : State) (d : Nat), d ≤ 8 → (s.supply d).warn = false → (s.supply d).dipped = false →
    a = (((s.updSupply d fun x => { x with
      warn := true, clearFor := none, dipped := true, us := 0,
      lowest := if s.ready ∨ (s.clock d).pll = false then 0 else 16 - (s.clock d).step }).bump ⟨.supplyDips, 0, 0⟩ 1).pinEvent 3).report {
        typ := 0x28, source := 0x8009, body := [d] } →
    exec (.supplyWarn d) s = .next (if d < 8 ∧ a.lockstep = false ∧ a.ready then a.updClock d fun x => { x with goal := 8 } else a)) ∧
  (∀ (s a : State) (d : Nat), d ≤ 8 → (s.supply d).warn = false → (s.supply d).dipped = true →
    a = s.updSupply d (fun x => { x with warn := true, clearFor := none, dipped := true }) →
    exec (.supplyWarn d) s = .next (if d < 8 ∧ s.lockstep = false ∧ s.ready then a.updClock d fun x => { x with goal := 8 } else a)) ∧
  (∀ (s : State) (d : Nat), (s.supply d).warn = true →
    exec (.supplyClear d) s = .next (s.updSupply d fun x => { x with warn := false, clearFor := some 0 })) ∧
  (∀ (s : State) (d t : Nat), (s.supply d).dipped = true → (s.supply d).clearFor = some t → 50 ≤ t →
    (s.lockstep = true → ∀ x, x < 9 → (s.supply x).dipped = true → ∃ u, (s.supply x).clearFor = some u ∧ 50 ≤ u) →
    exec (.supplyRecover d) s = .next (
      if d < 8 ∧ s.lockstep = false ∧ s.ready ∧ (s.clock d).pll = true ∧ (s.clock d).step ≠ 16 then s.updClock d fun x => { x with goal := 16 }
      else (s.updClock d fun x => { x with goal := 16 }).dipOver d)) ∧
  (∀ (s : State) (d : Nat), (s.clock d).pll = true → (s.clock d).step < (s.clock d).goal → (s.supply (min d 8)).dipped = false →
    exec (.clockRampStep d) s = .next (if d < 8 then
        (s.updClock d fun x => { x with step := (s.clock d).step + 1 }).updDealer d fun y => { y with lead := none }
      else s.updClock d fun x => { x with step := (s.clock d).step + 1 })) ∧
  (∀ (s a b : State) (d n : Nat), d < 8 → s.ready = true → (s.clock d).pll = true → (s.clock d).step ≠ (s.clock d).goal →
    (s.supply d).dipped = true → n = (if (s.clock d).step < (s.clock d).goal then (s.clock d).step + 1 else (s.clock d).step - 1) →
    a = (s.updClock d (fun x => { x with step := n })).updDealer d (fun y => { y with lead := none }) → b = a.updSupply d (fun y => { y with lowest := max y.lowest (16 - n) }) →
    b.dipped d = true →
    exec (.clockRampStep d) s = .next (if n = 16 ∧ (s.clock d).goal = 16 then b.dipOver d else b))

/-- R184, R187 to R190, R253, R274, R280, R281, R283, R286, R326. -/
def Obligations.QueueWriterVectorsAndTicks : Prop :=
  (∀ (s a u : State) (p : Packet) (rest : List Packet) (pad : Nat), s.rqGood = true → s.fe.fifo = p :: rest → s.writerOn = true →
    pad = s.padFor p.length → s.rqFill + pad + p.length ≤ s.rqSize →
    (if pad = 0 then some s else s.rqPut (s.padBytes pad)) = some a → a.rqPut (p.bytes a.fe.pktSeq.toNat) = some u →
    exec .rqPacketWrite s = .next ((({ u with fe := { u.fe with fifo := rest } } : State).refillFifo.packetDone p a.fe.pktSeq.toNat).highCheck)) ∧
  (∀ (s : State) (v : Nat), v ∈ s.fe.vecHeld → tget 0 s.fe.vecLast v ≤ s.now →
    exec (.vectorSignal v) s = .next (({ s with fe := { s.fe with
      vecHeld := s.fe.vecHeld.filter (· ≠ v), vecLast := tput 0 s.fe.vecLast v (s.now + 1) } } : State).msixNow v)) ∧
  (∀ (s a : State) (v : Nat), v ∈ s.fe.msixMask → a = { s with fe := { s.fe with msixMask := s.fe.msixMask.filter (· ≠ v) } } →
    exec (.msixUnmask v) s = .next (if v ∈ s.fe.msixPend then
      ({ a with fe := { a.fe with msixPend := s.fe.msixPend.filter (· ≠ v) } } : State).emit (.msix v) else a)) ∧
  (∀ s : State, s.st.resetDue = true → exec .deadlineTick s = .next (s.chipReset.emit .linkLost)) ∧
  (∀ s : State, s.st.resetDue = false → s.lockstep = false → s.gated 5 = false →
    exec .deadlineTick s = .next s.supplyTick.tickCore) ∧
  (∀ s t : State, s.inputsWait = true → s.gated 5 = false → (∀ d, d < 9 → s.dipped d = false) →
    t = (s.tickCore.bump ⟨.tsuLsTick, 0, 0⟩ 1).admitAll s.holding →
    exec .lockstepTick s = .next (if t.lockstep = false ∨ (t.reg ⟨.tsuLsTick, 0, 0⟩ = 0 ∧ t.holding = false) then t.admitAll false else t)) ∧
  (∀ (s a b : State) (c i e r : Nat) (lim : Int) (n : Node), n = s.node (nk c i) → n.gst = .armed → n.left ≠ [] → n.unmon = false →
    n.evaluatedAt < s.now → (s.ctx (nkCtx (nk c i))).st = .resident → s.runs 5 = true → e = s.gateAge (nk c i) → r = s.remaining (nk c i) →
    lim = (n.d.deadline : Int) - n.d.margin → a = s.updNode (nk c i) (fun n => { n with evaluatedAt := s.now }) →
    b = ((a.report { typ := 0x64, source := 0x8005, ctx := some (nkCtx (nk c i)), body := [a.nodeArg (nk c i), e, r, (lim % 2 ^ 64).toNat] }).bump
      ⟨.tbFallbacks, 0, 0⟩ 1).fallbackTaken (nk c i) →
    exec (.monitorEvaluate c i) s = .next (
      if ((e * 1350 + r : Nat) : Int) ≤ lim * 1350 ∨ n.predicted = true then a
      else if a.det = 0 then b.settle
      else (a.report {
        typ := 0x65, source := 0x8005, ctx := some (nkCtx (nk c i)),
        body := [a.nodeArg (nk c i), e, r, (lim % 2 ^ 64).toNat] }).updNode (nk c i) fun n => { n with predicted := true })) ∧
  (∀ s t : State, s.dl.slowAt + 1000 ≤ s.now → s.hubOn = true → s.reg ⟨.slowdownAddr, 0, 0⟩ ≠ 0 →
    s.writeBytes devSpace (s.reg ⟨.slowdownAddr, 0, 0⟩).toNat (s.slowBlock (s.dl.slowSeq + 1)) = some t →
    exec .slowdownReport s = .next { t with dl := { t.dl with slow := [], slowSeq := s.dl.slowSeq + 1, slowAt := s.dl.slowAt + 1000 } })

/-- R273 to R276, R328, R367, R368. An INTERNAL tick counting as accepted and the inverted receiver seen again
as inversion are the model's readings (log entry 56). -/
def Obligations.BeatTicksAndPins : Prop :=
  (∀ s : State, s.beatSource = 0 → s.beatPeriod ≤ s.beatTick → s.gated 5 = false → s.ready = true →
    exec .beatTick s = .next (s.beatNow (s.beat + 1) true)) ∧
  (∀ s t : State, s.gated 5 = false → (∀ x ∈ s.st.atGate, x.1 ≠ 5) → t = s.wake 5 →
    (t.lockstep = true → exec .beatPinEdge s = .next (t.holdInput .beatPin)) ∧
    (t.lockstep = false → t.beatSource = 1 → t.gated 5 = false → t.ready = true →
      (t.beatTick + t.beatWindow < t.beatPeriod → exec .beatPinEdge s = .next t.noisy) ∧
      (t.beatPeriod ≤ t.beatTick + t.beatWindow → t.beatTick ≤ t.beatPeriod + t.beatWindow →
        exec .beatPinEdge s = .next (t.beatNow (t.beat + 1) true)))) ∧
  (∀ s : State, s.gated 5 = true →
    exec .beatPinEdge s = .next { s with st := { s.st with atGate := s.st.atGate ++ [(5, .beatPinEdge)] } }) ∧
  (∀ s : State, s.beatSource ≠ 0 → s.beatPeriod + s.beatWindow ≤ s.beatTick → s.tb.remote = none → s.gated 5 = false → s.ready = true →
    exec .beatFlywheel s = .next (s.beatNow (s.beat + 1) false)) ∧
  (∀ (s : State) (v : Nat), s.tb.remote = some v → s.gated 5 = false → s.tb.remoteAt + s.fld ⟨.tbBeatCfg, 0, 0⟩ 32 16 / 100 ≤ s.now →
    exec .beatRemoteApply s = .next (({ s with tb := { s.tb with remote := none } } : State).beatNow v true)) ∧
  (∀ (s a b : State) (v : Nat) (acc : Bool),
    a = (((s.setReg ⟨.tbBeat, 0, 0⟩ (BitVec.ofNat 64 (v % 2 ^ 48))).setReg ⟨.tbTick, 0, 0⟩ 0).emit .beatPulse).traceUnit 3 {
      typ := 0x0B, source := 13, arg := s.beatTick, tag := v % 2 ^ 48 } →
    b = (if acc then a.tickAccepted else a.tickMissed).sendBeats →
    s.beatNow v acc = (if s.tb.inForce = none then b else ({ b with tb := { b.tb with inForce := none } } : State).lockAfresh.adjustPin).releases) ∧
  (∀ (s a : State) (want : Bool), a = s.setFld ⟨.tbStatus, 0, 0⟩ 2 1 (if s.tb.rxInverted then 0 else 1) →
    want = (bit (a.reg ⟨.tbStatus, 0, 0⟩) 2 && bit (a.reg ⟨.tbBeatCfg, 0, 0⟩) 4) →
    exec .beatPinInverted s = .next (
      if a.beatSource = 1 ∧ s.tb.rxInverted ≠ want then
        (if want then ({ a with tb := { a.tb with rxInverted := true } } : State).lockAfresh.report { typ := 0x67, source := 0x8005, body := [] }
         else { a with tb := { a.tb with rxInverted := false } })
      else a)) ∧
  (∀ s : State, exec .beatInFailsafe s = .next (s.setFld ⟨.tbStatus, 0, 0⟩ 1 1 1)) ∧
  (∀ s : State, exec .beatInFailsafeClear s = .next (s.setFld ⟨.tbStatus, 0, 0⟩ 1 1 0)) ∧
  (∀ s : State, bit (s.reg ⟨.tbStatus, 0, 0⟩) 3 = false →
    exec .beatOutShort s = .next ((s.setFld ⟨.tbStatus, 0, 0⟩ 3 1 1).report { typ := 0x2C, source := 0x8005, body := [0] })) ∧
  (∀ s : State, exec .beatOutShortEnd s = .next (s.setFld ⟨.tbStatus, 0, 0⟩ 3 1 0))

/-- R49, R120, R121, R124, R220, R274, R296, R297, R299, R308, R315, R318. Numbers 27 and 36 of the log are the model's own choices
about HELLO. -/
def Obligations.ParcelsTakeEffect : Prop :=
  (∀ (s u : State) (k q n c cnt : Nat) (p : Parcel), s.arrives k q 1 p → s.accepts p u → p.body = .decrement n c cnt →
    (u.ctx c).st = .resident → p.slice = u.ctxTag c → u.nodesValid c = true → n < u.nodeWin c →
    exec (.decrementReceive k q) s = .next (((({ u with gs := { u.gs with resIn := u.gs.resIn ++ [{ inc := false, node := nk c n, n := cnt }] } } :
      State).settle.answerReq p.e2eOf 0 0).popParcel k q false))) ∧
  (∀ (s u : State) (k q v op c amt : Nat) (o : SyncOp) (p : Parcel), s.arrives k q 2 p → s.accepts p u → p.body = .signal v op c amt →
    p.slice = u.ctxTag c → ((op = 0 ∧ o = .set) ∨ (op = 1 ∧ o = .clear) ∨ (op = 2 ∧ o = .advance amt)) →
    exec (.signalReceive k q) s = .next ((u.syncOp {
      src := .remote p.src p.ctx c, vid := v, scope := 3, op := o, e2e := some p.e2eOf }).popParcel k q false)) ∧
  (∀ (s u t : State) (k q x rows rb l g ep e : Nat) (p : Parcel), s.arrives k q 3 p → s.accepts p u → p.body = .call x rows rb l g ep →
    u.callRefusal p x = none → u.serving x = some e → (u.callSlot (u.nextCall e)).busy = false →
    (∀ w, w ∈ u.li.callWait → w.entry ≠ e) → u.serve e p = some t →
    exec (.expertCallReceive k q) s = .next (t.popParcel k q false)) ∧
  (∀ (s u t : State) (k q l g ep off n : Nat) (data : List Byte) (p : Parcel) (x : Landing), s.arrives k q 4 p → p.body = .ret l g ep off data →
    x = s.landing l → n = data.length → x.st = .isOpen → x.gen.toNat = g → x.epoch = ep → x.received = off → 0 < n → off + n ≤ x.expect →
    (s.bump (gcnt 7) 1).writeBytes (ctxSpace x.ctx) (x.base + off) data = some u →
    t = u.updLanding l (fun y => { y with
      received := off + n, st := if off + n = x.expect then .filled else y.st,
      leftAt := if off + n = x.expect then u.now else y.leftAt }) →
    exec (.returnReceive k q) s = .next (((match x.owner with
      | .sequence r _ _ => if off + n = x.expect then t.wakeRoster r else t
      | _ => t) : State).popParcel k q false)) ∧
  (∀ (s : State) (k q n st why : Nat) (p : Parcel), s.arrives k q 5 p → p.body = .ack n st why →
    exec (.ackReceive k q) s = .next ((match s.unanswered p.src n with
      | some u => ((s.bump (gcnt 7) 1).dropUnanswered u).answered u st why
      | none => s.bump (gcnt 7) 1).popParcel k q false)) ∧
  (∀ (s : State) (k q far lo hi sys : Nat) (seen : Bool) (cr : List Nat) (p : Parcel), s.arrives k q 0x10 p → p.body = .hello far seen lo hi sys cr →
    exec (.helloReceive k q) s = .next (((s.bump (gcnt 7) 1).takeHello k p far seen lo hi sys cr).popParcel k q false)) ∧
  (∀ (s a : State) (k q v : Nat) (p : Parcel), s.arrives k q 0x11 p → p.body = .beat v → a = s.bump (gcnt 7) 1 → a.beatSource = 2 →
    a.beatPort = some k → a.ready = true → a.beatPeriod ≤ a.beatTick + a.beatWindow → a.beatTick ≤ a.beatPeriod + a.beatWindow →
    exec (.beatParcelReceive k q) s = .next (({ a with tb := { a.tb with remote := some v, remoteAt := a.now } } : State).popParcel k q false)) ∧
  (∀ (s : State) (k q id : Nat) (p : Parcel), s.arrives k q 0x12 p → p.body = .cutMarker id → s.ob.stop ≠ .snapped →
    higher32 id ((s.bump (gcnt 7) 1).fld ⟨.snapLast, 0, 0⟩ 0 32) = true →
    exec (.cutMarkerReceive k q) s = .next (((s.bump (gcnt 7) 1).takeSnap id (some k)).popParcel k q false)) ∧
  (∀ (s a : State) (k q id : Nat) (bs : List RxBlock), s.ob.stop = .snapped → dropMarkers (tget [] (s.port k).rx q) = some (id, bs) →
    a = s.updPort k (fun x => { x with rx := tput [] x.rx q bs }) → id = s.fld ⟨.snapLast, 0, 0⟩ 0 32 → (a.port k).cut = 4 →
    exec (.cutMarkerReceive k q) s = .next ((a.updPort k fun x => { x with cut := 1, inCut := false }).cutCheck))

/-- R23, R123, R283, R290 to R292, R298, R304, R307 to R309. HELLO blocks carry no sequence number, the model's choice (log entry 27). -/
def Obligations.PortsBlocksAndRequests : Prop :=
  (∀ (s w a : State) (k : Nat) (bytes : List Byte) (b : Block), s.gated 6 = false → (∀ x ∈ s.st.atGate, x.1 ≠ 6) → w = s.wake 6 →
    (w.port k).st = .up → Block.ofBytes bytes = some b → b.hello = false → a = w.blockBack k b → b.parcels ≠ [] → a.portUp k = true → (b.seq + 65536 - (a.port k).rxNext) % 65536 = 0 →
    exec (.blockReceive k bytes) s = .next ((a.updPort k fun x =>
      { x.credit b with rxNext := (b.seq + 1) % 65536, ackOwed := true, nakOwed := false }).queueBlock k b bytes)) ∧
  (∀ (s w : State) (k : Nat) (bytes : List Byte), s.gated 6 = false → (∀ x ∈ s.st.atGate, x.1 ≠ 6) → w = s.wake 6 → (w.port k).st = .up →
    Block.ofBytes bytes = none → exec (.blockReceive k bytes) s = .next (w.updPort k fun x => { x with nakOwed := true })) ∧
  (∀ (s w : State) (k : Nat) (bytes : List Byte) (b : Block) (p : Parcel), s.gated 6 = false → (∀ x ∈ s.st.atGate, x.1 ≠ 6) → w = s.wake 6 →
    ((w.port k).st = .hello ∨ (w.port k).st = .mismatched ∨ (w.port k).st = .fenced) → Block.ofBytes bytes = some b → b.parcels = [p] →
    p.body.typ = 0x10 → exec (.blockReceive k bytes) s = .next (w.updPort k fun x => { x with
      rx := tput [] x.rx 10 (tget [] x.rx 10 ++ [{ seq := b.seq, parcels := [p], old := true, raw := bytes }]) })) ∧
  (∀ (s : State) (k seq : Nat) (bytes : List Byte), s.gated 6 = true →
    exec (.blockReceive k bytes) s = .next { s with st := { s.st with atGate := s.st.atGate ++ [(6, .blockReceive k bytes)] } } ∧
    exec (.nakReceive k seq) s = .next { s with st := { s.st with atGate := s.st.atGate ++ [(6, .nakReceive k seq)] } }) ∧
  (∀ (s a : State) (k : Nat) (keep again : List Sent) (b : Sent), s.portUp k = true → s.liOn = true → s.ob.stop ≠ .snapped →
    b.tries < 8 → (s.port k).replay.find? (fun c => decide (c.blk.seq = b.blk.seq)) = some b →
    keep = (s.port k).replay.takeWhile (fun c => decide (c.blk.seq ≠ b.blk.seq)) →
    again = ((s.port k).replay.drop keep.length).map (fun c => { c with tries := c.tries + 1, sentAt := (s.reg (gcnt 0)).toNat }) →
    a = (s.updPort k fun x => { x with replay := keep ++ again }).each again (fun t c => t.emit (.block k c.blk)) →
    (∀ z : State, b.blk.seq < 65536 → z.gated 6 = false → (∀ x ∈ z.st.atGate, x.1 ≠ 6) → s = z.wake 6 →
      exec (.nakReceive k b.blk.seq) z = .next a) ∧
    (∀ rest, (s.port k).replay = b :: rest → 4096 ≤ (s.reg (gcnt 0)).toNat - b.sentAt → exec (.hopAckTimeout k) s = .next a)) ∧
  (∀ (s t : State) (k q : Nat) (l : List Parcel), (s.port k).st = .up → s.liOn = true → s.hubOn = true → (s.port k).replay.length < 2048 →
    t = s.refuseTx k → (t.port k).serves = some (q, l) →
    exec (.transmitSlot k) s = .next ((t.updPort k fun x => if q = 10 then { x with ctl := l.drop (fillBlock 236 l).length }
      else { x with tx := tput [] x.tx q (l.drop (fillBlock 236 l).length) }).sendBlock k q (fillBlock 236 l))) ∧
  (∀ (s t a : State) (k : Nat), (s.port k).st = .up → s.liOn = true → s.hubOn = true → (s.port k).replay.length < 2048 →
    t = s.refuseTx k → (t.port k).serves = none → a = t.refuseStart k → a.sendStarting k ≠ a → exec (.transmitSlot k) s = .next (a.sendStarting k)) ∧
  (∀ (s : State) (k : Nat) (b : Block), (s.port k).st = .up → s.liOn = true → s.ob.stop = .running → 2048 ≤ (s.port k).replay.length →
    ((s.port k).ackOwed = true ∨ (s.port k).nakOwed = true ∨ (s.port k).owed ≠ []) → b = (s.port k).header false →
    exec (.transmitSlot k) s = .next ((s.updPort k fun x => x.sent b).emit (.block k b))) ∧
  (∀ (s : State) (d n : Nat) (u : Unanswered), s.unanswered d n = some u → u.sentAt + s.fld ⟨.liE2eCfg, 0, 0⟩ 0 14 ≤ s.now → s.runs 6 = true →
    (u.queued = true → s.route u.parcel.rset u.dst = none) →
    exec (.e2eResend d n) s = .next (if u.resends < s.fld ⟨.liE2eCfg, 0, 0⟩ 16 4 then
        ({ s with li := { s.li with
          unanswered := updFirst (fun v => decide (v = u)) (fun v => { v with resends := v.resends + 1, sentAt := s.now, queued := true })
            s.li.unanswered } } : State).bump (liCnt 5) 1
      else s.giveUp u)) ∧
  (∀ (s : State) (k : Nat), ((s.port k).st = .hello ∨ (s.port k).st = .mismatched ∨ (s.port k).st = .fenced) → (s.port k).helloAt ≤ s.now → s.liOn = true → s.ob.stop ≠ .snapped →
    exec (.helloSend k) s = .next ((((s.updPort k fun x => { x with helloAt := s.now + 10, sentSeen := x.sentSeen || x.gotAny }).emit (.block k {
      queue := 10,
      parcels := [{
        hops := 0, src := s.chipId, incarn := s.fld ⟨.liIncarn, 0, 0⟩ 0 16,
        body := .hello k (s.port k).gotAny (s.fld ⟨.liRev, 0, 0⟩ 0 8) (s.fld ⟨.liRev, 0, 0⟩ 8 8) (s.fld ⟨.liSystem, 0, 0⟩ 0 32)
          [24, 24, 24, 24, 24, 24, 24, 24, 24, 24, 16] }] })).bump (gcnt 6) 1).judgePort k)) ∧
  (∀ (s : State) (k : Nat), (s.port k).st = .hello → (s.port k).gotAny = false → (s.port k).silentTold = false → (s.port k).since + 1000 ≤ s.now →
    s.liOn = true →
    exec (.linkSilent k) s = .next ((s.updPort k fun x => { x with silentTold := true }).report { typ := 0x74, source := 0x8006, body := [k] })) ∧
  (∀ (s w : State) (k : Nat), s.gated 6 = false → (∀ x ∈ s.st.atGate, x.1 ≠ 6) → w = s.wake 6 →
    ((w.port k).st = .training → exec (.phyReady k) s = .next (w.toPortState k .hello 0)) ∧
    ((w.port k).st = .up ∨ (w.port k).st = .mismatched ∨ (w.port k).st = .fenced ∨ (w.port k).st = .hello →
      exec (.phyLost k) s = .next ((w.toPortState k .retrain 0).cutBroken k))) ∧
  (∀ (s : State) (k : Nat), (s.port k).st = .retrain → (s.port k).since + 1000 ≤ s.now → s.liOn = true →
    exec (.retrainExpiry k) s = .next (s.toPortState k .training 0)) ∧
  (∀ (s w : State) (e x off y : Nat) (data : List Byte) (l : Launch), s.gated 6 = false → (∀ z ∈ s.st.atGate, z.1 ≠ 6) → w = s.wake 6 →
    (w.eng e).job = some l → (w.node l.key).call = some y → isLE e = true → y % 256 = x % 256 → off % 64 = 0 →
    (data.length = 64 ∨ data.length = 128 ∨ data.length = 192) → w.takes 6 = true →
    exec (.returnParcelSend e x off data) s = .next { w with li := { w.li with retWait := w.li.retWait ++ [(e, {
      rset := (w.callSlot y).rset, dst := (w.callSlot y).srcChip, src := w.chipId, slice := (w.callSlot y).slice, ctx := l.ctx,
      incarn := w.fld ⟨.liIncarn, 0, 0⟩ 0 16,
      body := .ret (w.callSlot y).landing (w.callSlot y).gen (w.callSlot y).epoch off data })] } }) ∧
  (∀ (s : State) (e addr g b : Nat) (data : List Byte) (l : Launch), (s.eng e).job = some l → isLE e = false → 1 ≤ g → g ≤ 64 →
    data.length ≤ 64 * g → s.ob.stop ≠ .snapped → b = s.podOf l.ctx * 8 + engRegion e →
    exec (.deviceMemoryRequest e addr g data) s = .next (
      if s.memOpen (s.podOf l.ctx) (engRegion e) = true ∧ tget [] s.dl.memWait b = [] then
        s.passMem { e := e, ctx := l.ctx, addr := addr, granules := g, data := data }
      else { s with dl := { s.dl with
        memWait := tput [] s.dl.memWait b
          (tget [] s.dl.memWait b ++ [{ e := e, ctx := l.ctx, addr := addr, granules := g, data := data }]) } }))

/-- R29, R51, R52, R74 to R79. What a scrub meets as an operand of its row is the model's choice (log entry 85). -/
def Obligations.DispatchAndOfferRounds : Prop :=
  (∀ s : State, s.runs 1 = true → exec .resolverUpdate s = .next s.resolverCycle) ∧
  (∀ (s t : State) (c i k : Nat) (u : Upset), s.runs 1 = true → k = nk c i →
    t = (match u with
      | .none => s
      | .primary => s.updNode k fun n => { n with pri := { n.pri with ok := false } }
      | .shadow => s.updNode k fun n => { n with shd := { n.shd with ok := false } }
      | .nodeWord fixed => { s with gs := { s.gs with
          nodeFix := if fixed then insertNat k s.gs.nodeFix else s.gs.nodeFix,
          nodeBad := if fixed then s.gs.nodeBad else insertNat k s.gs.nodeBad } }
      | .edgeWord j fixed => if fixed then s.bump ⟨.gsCorrected, 0, 0⟩ 1 else s.edgeLost c j
      | .object kind x => s.objectLost (objKey kind x)) →
    exec (.scrub c ⟨i, u⟩) s = .next (if (t.node k).armed = true ∨ k ∈ t.gs.nodeBad ∨ k ∈ t.gs.nodeFix then (t.checkNode k).1 else t)) ∧
  (∀ (s : State) (c i k : Nat) (el : List Nat), k = nk c i → s.dispatchable k = true → s.live 1 = true → el = s.eligibleOf k →
    (el = [] → exec (.nodeDispatch c i) s = .next ((s.updNode k fun n => { n with place := .held }).report
      { typ := 0x12, source := 0x8002, ctx := some (nkCtx k), body := [s.nodeArg k, (s.node k).d.tileset] })) ∧
    (el ≠ [] → (s.node k).d.cls = 3 → exec (.nodeDispatch c i) s = .next ((({ s with
      dl := { s.dl with leHand := s.dl.leHand ++
        [{ key := k, pod := s.nodePod k, cls := 3, slot := (s.node k).slot, arrive := s.gs.order }] },
      gs := { s.gs with order := s.gs.order + 1 } } : State).bump (gcnt 2) 1).updNode k fun n => { n with place := .hand })) ∧
    (el ≠ [] → (s.node k).d.cls ≠ 3 → (s.node k).d.isKitty = true → exec (.nodeDispatch c i) s = .next (s.dispatchKitty k el)) ∧
    (∀ e, el ≠ [] → (s.node k).d.cls ≠ 3 → (s.node k).d.isKitty = false → s.lockstep = true → s.assigned k 0 = some e →
      exec (.nodeDispatch c i) s = .next (s.toDealer (engRegion e) k)) ∧
    (∀ r, el ≠ [] → (s.node k).d.cls ≠ 3 → (s.node k).d.isKitty = false → s.lockstep = false → regionsOf el = [r] →
      exec (.nodeDispatch c i) s = .next (s.toDealer r k)) ∧
    (∀ r1 r2 rs, el ≠ [] → (s.node k).d.cls ≠ 3 → (s.node k).d.isKitty = false → s.lockstep = false → regionsOf el = r1 :: r2 :: rs →
      exec (.nodeDispatch c i) s = .next (s.openOffer k (r1 :: r2 :: rs)))) ∧
  (∀ (s : State) (r c i k : Nat) (free : List Nat), k = nk c i →
    s.dl.offers.any (fun o => decide (o.key = k) && decide (r ∈ o.asked)) = true → s.dealerOn r = true → s.open = true →
    free = s.freeIn r k →
    (pickFrom (s.pickPtr r (s.nodePod k) (s.node k).d.cls) free = none → exec (.offerAnswer r c i) s = .next (
      s.updOffer (fun o => decide (o.key = k) && decide (r ∈ o.asked)) fun o =>
        { o with asked := o.asked.filter (· ≠ r), transit := o.transit ++ [(r, none)] })) ∧
    (∀ e, pickFrom (s.pickPtr r (s.nodePod k) (s.node k).d.cls) free = some e → exec (.offerAnswer r c i) s = .next (
      ((s.movePtr r (s.nodePod k) (s.node k).d.cls e).updEng e fun x => { x with held := some k }).updOffer
        (fun o => decide (o.key = k) && decide (r ∈ o.asked)) fun o =>
          { o with asked := o.asked.filter (· ≠ r), transit := o.transit ++ [(r, some (e, free.length))] }))) ∧
  (∀ (s : State) (r c i : Nat) (o : Offer) (a : Nat × Option (Nat × Nat)),
    s.dl.offers.find? (fun o => decide (o.key = nk c i) && o.transit.any fun a => decide (a.1 = r)) = some o → s.runs 1 = true →
    (s.dealer r).pathDown = false → o.transit.find? (fun a => decide (a.1 = r)) = some a →
    exec (.answerArrival r c i) s = .next (
      (s.updOffer (fun o => decide (o.key = nk c i) && o.transit.any fun a => decide (a.1 = r)) fun o =>
        { o with
          transit := dropRegion r o.transit
          got := if o.closed then o.got else o.got ++ [a]
          withdraw := if o.closed then o.withdraw ++ (a.2.map fun h => (r, h.1)).toList else o.withdraw }).pruneOffers)) ∧
  (∀ (s : State) (c i : Nat) (o : Offer), s.dl.offers.find? (fun o => decide (o.key = nk c i) && !o.closed) = some o →
    s.live 1 = true →
    (bestYes o.got = none → exec (.collectWindowClose c i) s = .next (
      ((s.updOffer (fun o => decide (o.key = nk c i) && !o.closed) fun o => { o with closed := true, got := [] }).toLargest
        (nk c i)).pruneOffers)) ∧
    (∀ y, bestYes o.got = some y → exec (.collectWindowClose c i) s = .next (
      ((s.updOffer (fun o => decide (o.key = nk c i) && !o.closed) fun x =>
        { x with
          closed := true
          got := []
          confirm := some y
          withdraw := x.withdraw ++ (o.got.filterMap fun a => a.2.map fun h => (a.1, h.1)).filter fun w => decide (w.1 ≠ y.1) }).bump
        (gcnt 2) 1).pruneOffers))) ∧
  (∀ (s t : State) (r c i e : Nat) (o : Offer),
    s.dl.offers.find? (fun o => o.confirms (nk c i) r) = some o →
    o.confirm = some (r, e) → s.runs 2 = true → (s.dealer r).pathDown = false →
    t = s.updOffer (fun o => o.confirms (nk c i) r)
      (fun o => { o with confirm := none }) →
    ((t.eng e).held = some (nk c i) → t.benched e = false → exec (.offerConfirm r c i) s = .next
      (t.updDealer r fun d => { d with confirmed := d.confirmed ++ [(nk c i, e)] }).pruneOffers) ∧
    ((t.eng e).held ≠ some (nk c i) → exec (.offerConfirm r c i) s = .next
      (((t.updNode (nk c i) fun n => { n with place := .hub }).dispatch (nk c i)).pruneOffers))) ∧
  (∀ (s t : State) (r c i e : Nat) (o : Offer),
    s.dl.offers.find? (fun o => decide (o.key = nk c i) && o.withdraw.any fun w => decide (w.1 = r)) = some o →
    o.withdraw.find? (fun w => decide (w.1 = r)) = some (r, e) → s.runs 2 = true → (s.dealer r).pathDown = false →
    t = s.updOffer (fun o => decide (o.key = nk c i) && o.withdraw.any fun w => decide (w.1 = r))
      (fun o => { o with withdraw := dropRegion r o.withdraw }) → (t.eng e).held = some (nk c i) →
    exec (.offerWithdraw r c i) s = .next (t.updEng e fun x => { x with held := none }).pruneOffers) ∧
  (∀ (s : State) (p r k : Nat) (rest : List Nat), s.live 1 = true → (s.dealer r).pathDown = false →
    tget [] s.dl.backlog (p * 8 + r) = k :: rest → s.quotaOk r p (s.node k).slot (s.node k).d.isKitty = true →
    exec (.backlogDispatch p r) s = .next ((({ s with dl := { s.dl with backlog := tput [] s.dl.backlog (p * 8 + r) rest } } :
      State).insertEnt r k none).updNode k fun n => { n with place := .hand }))

/-- R32, R82, R84, R85, R87, R90, R93, R95, R96, R195, R220, R350. -/
def Obligations.IssueSlotsStartsCombinesAndEnds : Prop :=
  (∀ (s : State) (r : Nat), s.runs 2 = true → s.ob.lossStop = false → (s.dealer r).rebuild = false →
    bit (s.reg ⟨.benchRegions, 0, 0⟩) r = false →
    (∀ c, s.confirmedHead r = some c → exec (.issueSlot r) s = .next ((s.dealConfirmed r c).updDealer r fun d =>
      { d with slotNo := d.slotNo + 1 })) ∧
    (∀ h x e, s.confirmedHead r = none → s.dealChoice r = some (h, x, e) → s.lockstep = false →
      exec (.issueSlot r) s = .next ((((s.movePtr r x.pod x.cls e).dealEnt r x e).updDealer r fun d => { d with last := h }).updDealer r
        fun d => { d with slotNo := d.slotNo + 1 })) ∧
    (s.confirmedHead r = none → s.dealChoice r = none → exec (.issueSlot r) s = .next ((s.bump ⟨.dlIdle, r, 0⟩ 1).updDealer r
      fun d => { d with slotNo := d.slotNo + 1 }))) ∧
  (∀ (s a b : State) (p e : Nat) (h : HandEnt), s.live 6 = true → s.leChoice = some (p, h, e) → s.lockstep = false →
    a = ({ s with dl := { s.dl with
      leHand := eraseFirst (fun x => decide (x = h)) s.dl.leHand, leLast := p, lePtr := tput 0 s.dl.lePtr p ((e - 8192 + 1) % 32) } } : State) →
    b = (((a.launch e h.key 0 12).updNode h.key fun n => { n with st := .active, startedAt := (a.launch e h.key 0 12).now }).applyStart
      h.key).settle →
    exec .leIssueSlot s = .next { b with dl := { b.dl with leSlotNo := b.dl.leSlotNo + 1 } }) ∧
  (∀ (s a : State) (e : Nat) (l : Launch), s.dl.starts.find? (fun x => decide (x.1 = e)) = some (e, l) → s.runs 1 = true →
    s.pathUp e = true → a = ({ s with dl := { s.dl with starts := eraseFirst (fun x => decide (x = (e, l))) s.dl.starts } } : State) →
    (s.node l.key).st = .ready → (s.eng e).job = some l →
    exec (.startReport e) s = .next ((a.updNode l.key fun n =>
      { n with st := .active, startedAt := (s.eng e).startTick }).applyStart l.key).settle) ∧
  (∀ (s : State) (r c i : Nat), (s.dealer r).shares.any (fun h => decide (h.key = nk c i) && h.reported) = true → s.runs 1 = true →
    (s.dealer r).pathDown = false → (∀ x, x ∈ s.dl.starts → x.2.key ≠ nk c i) →
    exec (.shareDone r c i) s = .next ((s.updDealer r fun d =>
      { d with shares := eraseFirst (fun h => decide (h.key = nk c i) && h.reported) d.shares }).kittyEnd (nk c i))) ∧
  (∀ (s : State) (e : Nat) (l : Launch), (s.eng e).job = some l → s.runs 2 = true →
    exec (.combineRequest e) s = .next ((s.updEng e fun x => { x with turnAsk := true }).grantTurns l.key) ∧
    exec (.combineDone e) s = .next ((s.updEng e fun x => { x with turnAsk := false, turnHeld := false }).passPanels l.key [l.panel])) ∧
  (∀ (s a : State) (e : Nat) (l : Launch) (st z : CellStatus) (w : BitVec 32), (s.eng e).job = some l → isLE e = false →
    (s.eng e).drain = none → (s.eng e).reset = none → s.portHolds e = false → z = (if (s.eng e).postedLost then .error else st) → s.hubOn = true →
    s.gated 2 = false → a = (s.leftovers e l.ctx).freeUp e →
    ((s.node l.key).d.isKitty = true → z = .ok → exec (.engineCompletion e st w) s = .next
      ((a.panelEnd (engRegion e) l.key l.panel true).accepted e l .ok)) ∧
    (∀ b, (s.node l.key).d.isKitty = true → z ≠ .ok → b = a.panelEnd (engRegion e) l.key l.panel false →
      exec (.engineCompletion e st w) s = .next { b with dl := { b.dl with reports := b.dl.reports ++ [EngReport.mk e l z w] } }) ∧
    ((s.node l.key).d.isKitty = false → exec (.engineCompletion e st w) s = .next
      { a with dl := { a.dl with reports := a.dl.reports ++ [EngReport.mk e l z w] } })) ∧
  (∀ (s a : State) (e : Nat) (r : EngReport), s.dl.reports.find? (fun r => decide (engRegion r.e = engRegion e)) = some r → r.e = e → s.runs 1 = true →
    s.pathUp e = true → (∀ x, x ∈ s.dl.starts → x ≠ (e, r.job)) →
    a = (({ s with dl := { s.dl with reports := eraseFirst (fun x => decide (x = r)) s.dl.reports } } : State).accepted e r.job r.st) →
    (r.st = .ok → exec (.completionAccept e) s = .next (a.singleOk r.job.key)) ∧
    (r.st = .error → exec (.completionAccept e) s = .next (a.endError r.job.key (errorRec e r.job r.word) e).settle)) ∧
  (∀ (z s : State) (k : Nat) (l : Launch) (st y : CellStatus) (w : BitVec 32), z.gated 6 = false → (∀ x ∈ z.st.atGate, x.1 ≠ 6) → s = z.wake 6 →
    (s.eng (leId k)).job = some l → (s.eng (leId k)).drain = none →
    (s.eng (leId k)).reset = none → s.portHolds (leId k) = false → y = (if (s.eng (leId k)).postedLost then .error else st) → s.takes 6 = true →
    (y = .ok → exec (.leCompletion k st w) z = .next ((((s.leftovers (leId k) l.ctx).freeUp (leId k)).accepted (leId k) l .ok).singleOk l.key)) ∧
    (y ≠ .ok → exec (.leCompletion k st w) z = .next
      ((((s.leftovers (leId k) l.ctx).freeUp (leId k)).accepted (leId k) l y).endError l.key (errorRec (leId k) l w) (leId k)).settle)) ∧
  (∀ (s a b : State) (e : Nat) (st : CellStatus) (l : Launch), (s.eng e).job = some l → (s.eng e).drain ≠ none → (s.eng e).reset = none →
    s.portHolds e = false → s.hubOn = true →
    a = (if (s.node l.key).d.isKitty then s else s.dropStarts e).updCmdOf l.key (fun c => { c with drained := c.drained + 1 }) →
    b = ((a.leftovers e l.ctx).freeUp e).accepted e l st →
    exec (.drainReport e st) s = .next (if (b.node l.key).d.isKitty then b.panelEnd (engRegion e) l.key l.panel (decide (st = .ok))
      else if st = .ok then b.singleOk l.key
      else if (b.node l.key).st = .active ∨ (b.node l.key).st = .ready then b.setFolded l.key
      else b)) ∧
  (∀ (s a b : State) (e t : Nat) (l : Launch) (lines : List Nat), (s.eng e).job = some l → (s.eng e).drain = some t →
    (s.eng e).reset = none → t + s.fld ⟨.drainLimit, 0, 0⟩ 0 16 ≤ s.now → s.hubOn = true →
    a = s.killCell e l lines →
    ((a.node l.key).d.isKitty = true → b = a.countKilled l.key → (b.node l.key).d.isKitty = true →
      exec (.drainLimitExpiry e lines) s = .next (b.panelEnd (engRegion e) l.key l.panel false)) ∧
    ((a.node l.key).d.isKitty = false → b = (a.dropStarts e).countKilled l.key → (b.node l.key).d.isKitty = false →
      ((b.node l.key).st = .active ∨ (b.node l.key).st = .ready) → exec (.drainLimitExpiry e lines) s = .next (b.setFolded l.key))) ∧
  (∀ (s : State) (e : Nat), (s.eng e).reset ≠ none → s.hubOn = true →
    exec (.cellResetDone e) s = .next ((s.freeUp e).updEng e fun x => { x with reset := none, drain := none })) ∧
  (∀ (s a : State) (e t : Nat), (s.eng e).reset = some t → t + 2 ≤ s.now → s.hubOn = true →
    a = (s.freeUp e).updEng e (fun x => { x with reset := none, drain := none }) →
    exec (.cellResetTimeout e) s = .next (if isLE e then a.benchLE (e - 8192) 3 else a.benchCell e 3))

/-- R61, R63, R64, R68 to R70, R144. -/
def Obligations.LoopsSproutsSendsAndRetries : Prop :=
  (∀ (s a : State) (c i k t : Nat), k = nk c i → (s.node k).st = .ready → (s.node k).d.kind = .loop → s.live 1 = true →
    s.saveHolds k = false → s.atOnce (some (ctxSpace c, (s.node k).d.t.toNat)) = true →
    a = ((s.updNode k fun n => { n with st := .active, startedAt := s.now, loopEnd := false }).noteHost (ctxSpace c) (s.node k).d.t.toNat) →
    i < 2 ^ 20 → a.readWord (ctxSpace c) (s.node k).d.t.toNat 4 = some t →
    (t = 0 → exec (.loopStart c i) s = .next (a.completeLoop k).settle) ∧
    (t ≠ 0 → t ≤ (s.node k).d.tripMax →
      exec (.loopStart c i) s = .next ((a.updNode k fun n => { n with trip := some t }).armBody k 0).settle)) ∧
  (∀ (s : State) (c i k t : Nat), k = nk c i → (s.node k).trip = some t → (s.node k).st = .active → (s.node k).d.kind = .loop →
    s.runs 1 = true → s.iterationOver k = true →
    (((s.node k).iterNo + 1 < t ∧ (s.node k).loopEnd = false) →
      exec (.loopIterationEnd c i) s = .next (s.armBody k ((s.node k).iterNo + 1)).settle) ∧
    ((t ≤ (s.node k).iterNo + 1 ∨ (s.node k).loopEnd = true) → exec (.loopIterationEnd c i) s = .next (s.completeLoop k).settle)) ∧
  (∀ (s a t : State) (c i k nc ec b : Nat) (h : List Byte) (ns : List (List Byte)) (es : List (BitVec 32)), k = nk c i → i < 2 ^ 20 →
    (s.node k).st = .active → (s.node k).d.kind = .sprout → (s.node k).place = .unit → s.runs 1 = true →
    b = (s.node k).constAddr + 0x100 → s.atOnce (some (ctxSpace c, b)) = true → a = s.noteHost (ctxSpace c) b → a.readBytes (ctxSpace c) b 16 = some h →
    sproutHead h = (nc, ec, 0) → 1 ≤ nc → nc ≤ (s.node k).d.resNodes → ec ≤ (s.node k).d.resEdges →
    a.sproutArrays (ctxSpace c) b nc ec = some (ns, es) → ns.all sproutNodeOk = true →
    ns.all (sproutEdgesOk ec) = true → (∀ w, w ∈ es → edgeTarget w < nc) →
    a.applyGraph {
      ctx := c, first := ((s.node k).res.getD (0, 0)).1, nodes := ns.map (moveEdgeBase ((s.node k).res.getD (0, 0)).2),
      efirst := ((s.node k).res.getD (0, 0)).2,
      edges := es.map fun w => setBits w 0 20 (edgeTarget w + ((s.node k).res.getD (0, 0)).1), cmd := (s.node k).cmd, sprout := some k } =
        .ok t →
    exec (.sproutRead c i) s = .next (t.updNode k fun n => { n with place := .hub }).settle) ∧
  (∀ (s a : State) (c i k : Nat), k = nk c i → i < 2 ^ 20 → (s.node k).st = .ready → (s.node k).d.kind = .remote →
    s.live 6 = true → s.saveHolds k = false →
    a = s.updNode k (fun n => { n with st := .active, startedAt := s.now, place := .unit, sent := true }) →
    ((s.node k).d.destChip ≠ s.chipId → exec (.remoteSend c i) s = .next
      (a.sendReq c (s.node k).d.destChip (.decrement (s.node k).d.destNode (s.node k).d.destCtx (s.node k).d.count) (.node k))) ∧
    ((s.node k).d.destChip = s.chipId → exec (.remoteSend c i) s = .next (a.decJudge {
      node := some k, slice := a.ctxTag c, ctx := (s.node k).d.destCtx, dest := (s.node k).d.destNode, count := (s.node k).d.count }))) ∧
  (∀ (s t : State) (c : Nat), s.runs 1 = true → s.away c = false → t = (s.ctx c).dynWait.foldl State.dynTry s →
    exec (.dynRetry c) s = .next ((t.callsFor c).foldl State.retryCall t)) ∧
  (∀ (s : State) (k : Nat), k ∈ (s.ctx (nkCtx k)).dynWait →
    (∀ r, (s.node k).d.kind = .anchor → s.trickOf k = some r → s.dynTry k = s.instantiateTrick r) ∧
    (∀ w, (s.node k).d.kind ≠ .anchor → s.gs.fanHeld.find? (fun w => decide (w.node = k)) = some w → s.dynTry k = s.fanInstances w))

/-- R104 to R111, R114 to R119, R121, R126. Which local template a FANOUT with only remote experts needs is the model's choice (log
entry 82). -/
def Obligations.FanOutAndLandingEntries : Prop :=
  (∀ (s a b u : State) (t : State × FanWork) (k : Nat) (bs : List Byte) (h : FanHead) (p : Pass) (rs : List (Nat × Nat × Nat)) (w : FanWork),
    s.nextFanout = some k → s.gs.fan = none → s.live 1 = true → s.atOnce s.expandPlace = true →
    a = (s.updNode k (fun n => { n with st := .active, startedAt := s.now, place := .unit })).noteHost (ctxSpace (nkCtx k))
      (s.node k).d.b.toNat →
    a.readBytes (ctxSpace (nkCtx k)) (s.node k).d.b.toNat 64 = some bs → h = FanHead.ofBytes bs → h.bad (s.node k).d = false →
    h.epoch = a.fanEpoch k → p = a.fanPass (nkCtx k) (a.node k).d (decide (h.mode = 1)) h.tokens → p.unread = false → p.bad = none →
    w = { node := k, outAddr := h.out, epoch := h.epoch, tokens := h.tokens, sized := decide (h.mode = 1), retAddr := h.ret,
          rowBytes := h.rowBytes, remoteTpl := h.tpl, req := p.req, kept := p.kept, entries := p.entries, masks := p.masks } →
    b = a.imbalance k w → (fanOffsets (a.node k).d h.tokens).2.2 ≤ h.size →
    (if h.place = 0 ∨ w.sized then some [] else b.placements (ctxSpace (nkCtx k)) h.place (tkeys p.kept)) = some rs →
    fanTooBig (b.node (nk (nkCtx k) (a.node k).d.fanTemplate)).d { w with remote := rs } = false →
    t = b.openAll { w with remote := rs } rs → u = (if t.2.waiting then t.1.bump (liCnt 2) 1 else t.1) →
    exec .fanoutExpand s = .next { u with gs := { u.gs with fan := some t.2 } }) ∧
  (∀ (s : State) (w : FanWork) (t : State × FanWork), s.gs.fan = some w → w.waiting = true →
    (s.li.landings.filter fun x => decide (x.2.st ≠ .free)).length + (w.remote.length - w.opened.length) ≤ 16384 → s.runs 1 = true →
    t = s.openAll { w with waiting := false } w.remote →
    exec .landingWaitResume s = .next { t.1 with gs := { t.1.gs with fan := some t.2 } }) ∧
  (∀ (s t a b : State) (w : FanWork) (k c : Nat), s.gs.fan = some w → w.waiting = false → s.runs 1 = true → s.atOnce s.rowsPlace = true →
    s.fanPassTwo w = (t, none) → k = w.node → c = nkCtx k →
    a = ((((t.bump (gcnt 12) 1).bump (ctxCnt c 7) 1).bump (ctxCnt c 8) (tabSum w.req - tabSum w.kept)).updNode k fun n =>
      { n with fanOut := [w.outAddr, (fanOffsets (s.node k).d w.tokens).1, (fanOffsets (s.node k).d w.tokens).2.1, w.retAddr,
                          w.rowBytes] }) →
    a.remoteTplBad w = false → ((a.node (nk c (a.node k).d.fanTemplate)).st = .template ∨ w.kept.length = w.remote.length) →
    b = ({ a with gs := { a.gs with fan := none, fanHeld := a.gs.fanHeld.filter fun h => decide (h.node ≠ k) } } : State) →
    (lowestFree (tkeys (a.ctx c).dynN) (a.nodeBlocks c) (ceilDiv w.kept.length 64) = none → exec .fanoutInstantiate s = .next
      (({ b with gs := { b.gs with fanHeld := b.gs.fanHeld ++ [{ w with written := true }] } } : State).noRoomFor k)) ∧
    ∀ bs, lowestFree (tkeys (a.ctx c).dynN) (a.nodeBlocks c) (ceilDiv w.kept.length 64) = some bs →
    exec .fanoutInstantiate s = .next (((((b.each bs fun s b => s.takeNodes c b 1 (.node (nkIdx k))).each (List.range w.kept.length)
      fun s j => match w.kept[j]? with
        | some (e, n) => s.fanInstance w (s.nodePool c + 64 * bs.getD (j / 64) 0 + j % 64) e n
        | none => s).traceUnit 1
      { typ := 9, source := 9, ctx := some c, node := nkIdx k, arg := w.kept.length % 2 ^ 16, tag := tabSum w.kept }).dynServed
        k).settle)) ∧
  (∀ (s : State) (c i k : Nat), k = nk c i → (s.node k).st = .active → (s.node k).d.kind = .fanout → s.fanSettled k = true →
    s.runs 1 = true →
    exec (.fanoutComplete c i) s = .next ((s.updNode k fun n => { n with fanOut := [] }).complete k).settle) ∧
  (∀ (s : State) (x : Nat), (s.callSlot x).busy = true → s.callOver x = true → s.runs 6 = true →
    s.away (s.callSlot x).ctx = false → exec (.callSlotFree x) s = .next ((s.freeCall x).retryCall (x / 256))) ∧
  (∀ (s : State) (l t0 : Nat), (s.landing l).callAt = some t0 → (s.landing l).st = .isOpen → s.fld ⟨.liLandCfg, 0, 0⟩ 0 20 ≠ 0 →
    t0 + s.fld ⟨.liLandCfg, 0, 0⟩ 0 20 ≤ s.now → s.runs 6 = true → exec (.landingTimeout l) s = .next (s.landFail l 0x27)) ∧
  (∀ (s a : State) (l : Nat), ((s.landing l).st = .filled ∨ (s.landing l).st = .revoked ∨ (s.landing l).st = .broken) →
    s.openerDone (s.landing l) = true → (s.landing l).leftAt + s.fld ⟨.liLandCfg, 0, 0⟩ 32 16 ≤ s.now → s.runs 6 = true →
    a = s.updLanding l (fun x => { gen := x.gen, ctx := x.ctx, dropTold := x.dropTold }) →
    exec (.landingFree l) s = .next (match a.importsWaiting with
      | q :: _ => a.startImport q
      | [] => a))

/-- R131, R141, R143, R150 to R156. The pad before a log record is the model's reading (log entry 33). -/
def Obligations.TricksRecordsAndImports : Prop :=
  (∀ (s a u : State) (c i x k : Nat) (q : Comp), x = nk c i → k = (s.node x).d.roster → (s.ctx (nkCtx x)).st = .resident → s.live 4 = true →
    ((s.node x).st = .ready ∧ (s.node x).d.kind = .anchor ∧ s.nextAnchor = some x ∧ s.atOnce (s.replayPlace x) = true ∧
        a = s.updNode x (fun n => { n with st := .active, startedAt := s.now, place := .unit }) ∨
      (s.node x).st = .active ∧ s.atOnce (s.replayPlace x) = true ∧ x ∈ (s.ros k).anchors ∧ (s.ros k).wake = true ∧ a = s) →
    (a.node x).d.roster = k → a.roEnabled k = true → a.roCtx k = nkCtx x → (a.ros k).trick = none →
    (a.roClosed k = false ∨ a.rosterHolds k = true) → a.roReplayEn k = false → q = a.composePass k → q.bad = false →
    (q.taken ≠ [] →
      ((s.node x).st = .ready → exec (.trickCompose c i) s = .next ((q.s.noteFamine k q.skipped).formTrick k x q.taken)) ∧
      ((s.node x).st = .active → exec (.composeRetry c i) s = .next ((q.s.noteFamine k q.skipped).formTrick k x q.taken))) ∧
    (q.taken = [] →
      u = (if q.skipped ≠ 0 ∧ q.skipped = ([0, 1, 2, 3].map fun j => (a.roList k j).length).sum ∧
          (((q.s.noteFamine k q.skipped).anchorWaits k x).ros k).stallTold = false then
        (((q.s.noteFamine k q.skipped).anchorWaits k x).updRos k fun y => { y with stallTold := true }).report {
          typ := 0x52, source := 0x8004, ctx := some (nkCtx x), body := [k] }
        else (q.s.noteFamine k q.skipped).anchorWaits k x) →
      ((s.node x).st = .ready → exec (.trickCompose c i) s = .next u) ∧
      ((s.node x).st = .active → exec (.composeRetry c i) s = .next u))) ∧
  (∀ (s : State) (k : Nat) (t : Trick) (r : InstResult), (s.ros k).trick = some t → t.instantiated = false → t.folded = false →
    (s.node t.anchor).st = .active → t.anchor ∉ (s.ctx (nkCtx t.anchor)).dynWait → s.runs 4 = true →
    r = s.instantiate (nkCtx t.anchor) (s.node t.anchor).d.tplBase (s.node t.anchor).d.tplCount
      { cmd := (s.node t.anchor).cmd, parent := some t.anchor, epoch := t.epoch, owner := .node (nkIdx t.anchor) }
      (stepChange t.tokens t.capFactor) →
    exec (.trickInstantiate k) s = .next (match r with
      | .ok u => ((u.updRos k fun x => { x with trick := some { t with instantiated := true } }).dynServed t.anchor).settle
      | .noRoom => s.noRoomFor t.anchor
      | .bad => (s.dynServed t.anchor).failNode t.anchor { cause := 0x09, detail := (s.node t.anchor).d.tplBase } 0x8001)) ∧
  (∀ (s : State) (k : Nat) (t : Trick) (r : Option State), (s.ros k).trick = some t → t.resulted = false → s.trickSettled t = true →
    s.runs 4 = true → s.atOnce (s.resultPlace k) = true →
    r = (if t.folded then some ((s.restoreSeqs k t).dynServed t.anchor) else s.seqEnds k t 0 t.seqs) →
    exec (.trickEnd k) s = .next (match r with
      | none => s.failNode t.anchor { cause := 0x96 } 0x8004
      | some u => if u.roLogEn k then u.updRos k fun x => { x with trick := some { t with resulted := true } } else u.trickOver k t)) ∧
  (∀ (s a u : State) (k wr : Nat) (r : RetRec) (rest : List RetRec), (s.ros k).retire = r :: rest → s.retireFull k = false →
    s.runs 4 = true → wr = (s.reg ⟨.roRetireWr, k, 0⟩).toNat →
    s.writeBytes (ctxSpace (s.roCtx k)) ((s.reg ⟨.roRetireAddr, k, 0⟩).toNat + wr % 2 ^ s.fld ⟨.roRetireShift, k, 0⟩ 0 5 * 32)
      (s.retireBytes k r) = some u →
    a = (({ (s.updRos k fun x => { x with retire := rest }).updSeq r.slot fun e => { epoch := e.epoch } with
      mem := u.mem, poison := u.poison } : State).setReg ⟨.roRetireWr, k, 0⟩ (BitVec.ofNat 64 ((wr + 1) % 2 ^ 32))) →
    exec (.retireRecordWrite k) s = .next (if bit (a.reg ⟨.roCtrl, k, 0⟩) 6 then a.vector 274 else a)) ∧
  (∀ (s u v : State) (k size wr base pad n : Nat) (t : Trick), (s.ros k).trick = some t → t.resulted = true → s.logFull k t = false →
    s.runs 4 = true → size = 2 ^ s.fld ⟨.roLogShift, k, 0⟩ 0 5 → wr = (s.reg ⟨.roLogWr, k, 0⟩).toNat →
    base = (s.reg ⟨.roLogAddr, k, 0⟩).toNat → (pad, n) = s.logNeed k t →
    (if pad = 0 then some s else s.writeBytes (ctxSpace (s.roCtx k)) (base + wr % size * 64) padBlock) = some u →
    u.writeBytes (ctxSpace (s.roCtx k)) (base + (wr + pad) % size * 64) (t.logBytes k) = some v →
    exec (.logRecordWrite k) s = .next ((v.setReg ⟨.roLogWr, k, 0⟩ (BitVec.ofNat 64 ((wr + pad + n) % 2 ^ 32))).trickOver k t)) ∧
  (∀ (s a : State) (q l k need : Nat), s.importLanding q = some l → (s.seqEnt q).st = .importing → (s.landing l).st = .filled →
    s.runs 4 = true → k = (s.seqEnt q).roster →
    need = ceilDiv (s.seqEnt q).impTokens (s.pageTokens k) - (s.seqEnt q).pages.length → need ≤ s.grantable k →
    (s.givePages k q need).2 = true →
    a = (s.givePages k q need).1.updSeq q (fun e => { e with
      kvLen := e.impTokens, imported := true, starved := false,
      st := if e.prefillLeft = 0 then .ready else .pending }) →
    exec (.importLanded q) s = .next ((a.joinTail q).wakeRoster k))

/-- R418 to R420, R443. The form of the answers is the model's own choice (log entries 52 and 53). -/
def Obligations.MonitorCommandsAreAnswered : Prop :=
  (∀ s a : State, s.console 1 a →
    exec .draoftHelp s = .next (a.say (draoftHelpWords (a.fld ⟨.svDraoft, 0, 0⟩ 0 2))).endSession ∧
    exec .draoftStatus s = .next (a.say a.draoftStatusWords).endSession ∧
    (a.gated 6 = false → exec .draoftId s = .next (a.say a.draoftIdWords).endSession) ∧
    (∀ t, a.gated 7 = false → t = a.gcntSnapCmd 1 →
      exec .draoftCnt s = .next (t.say ((List.range 16).flatMap fun j =>
        [loHalf (t.regValue ⟨.gcntShadow, j, 0⟩), hiHalf (t.regValue ⟨.gcntShadow, j, 0⟩)])).endSession.flushSnap)) ∧
  (∀ s a : State, s.console 2 a →
    (∀ off n ws t, a.draoftWords off n = some (ws, t) → exec (.draoftRd off n) s = .next (t.say ws).endSession.flushSnap) ∧
    (∀ kind idx, a.gated 3 = false → exec (.draoftObj kind idx) s = .next (a.say (words32 (a.viewBytes (objKey kind idx)))).endSession) ∧
    (∀ c i, a.gated 1 = false → exec (.draoftNode c i) s = .next (a.say (words32 (a.nodeRecord (nk c i) 0))).endSession) ∧
    (∀ byCtx id, a.gated 3 = false → exec (.draoftDump byCtx id) s = .next (a.say (words32
      ((a.dumpBytes (a.draoftObjs byCtx id) (2 ^ 32)).1 ++ (a.dumpBytes (a.draoftObjs byCtx id) (2 ^ 32)).2))).endSession)) ∧
  (∀ s a : State, s.console 3 a →
    (∀ off v r h, target off false = some (r, h) → draoftBarred r.name = false → r.name ≠ .aperture → a.unitGated r = false →
      a.snapHolds off = false →
      exec (.draoftWr off v) s = .next ((a.accessWrite (.core 8) off false (v.setWidth 64)).say []).endSession.flushSnap) ∧
    (a.gated 7 = false →
      exec .draoftTrig s = .next ((a.trigger 3).say []).endSession.flushSnap ∧
      (∀ t, t = a.writeReg (.core 8) ⟨.obStop, 0, 0⟩ 1 → t.ob.stop ≠ a.ob.stop →
        exec .draoftFreeze s = .next (t.say []).endSession.flushSnap) ∧
      (∀ t, t = a.writeReg (.core 8) ⟨.obStop, 0, 0⟩ 2 → t.ob.stop ≠ a.ob.stop →
        exec .draoftQuiesce s = .next (t.say []).endSession.flushSnap) ∧
      (∀ b t (id : BitVec 32), b = a.setReg ⟨.snapId, 0, 0⟩ (id.setWidth 64) → t = b.writeReg (.core 8) ⟨.obStop, 0, 0⟩ 3 → t.ob.stop ≠ a.ob.stop →
        exec (.draoftSnap id) s = .next (t.say []).endSession.flushSnap) ∧
      (∀ t, t = a.writeReg (.core 8) ⟨.obStop, 0, 0⟩ 4 → t.ob.stop ≠ a.ob.stop →
        exec .draoftResume s = .next (t.say []).endSession.flushSnap))) ∧
  (∀ (s t : State) (off : Nat) (v : BitVec 32), s.gated 8 = false → (∀ x ∈ s.st.atGate, x.1 ≠ 8) → t = s.wake 8 → (t.core 8).st = 2 →
    t.sv.uartOff = false → t.ready = true → 1 ≤ t.fld ⟨.svDraoft, 0, 0⟩ 0 2 → t.fld ⟨.svDraoft, 0, 0⟩ 0 2 < 3 →
    exec (.draoftWr off v) s = .next (t.sayErr 1)) ∧
  (∀ (s : State) (off n kind idx c i id : Nat) (by_ : Bool) (v w : BitVec 32), s.gated 8 = true →
    ∀ r ∈ [.draoftHelp, .draoftId, .draoftStatus, .draoftCnt, .draoftRd off n, .draoftObj kind idx, .draoftNode c i, .draoftDump by_ id,
      .draoftWr off v, .draoftFreeze, .draoftQuiesce, .draoftSnap w, .draoftResume, .draoftTrig],
    exec r s = .next { s with st := { s.st with atGate := s.st.atGate ++ [(8, r)] } })

/-- R49, R121, R220, R262, R297, R299, R328. The hypotheses are on the state and the parcel at the head alone. -/
def Obligations.RequestParcelsComplete : Prop :=
  (∀ (s w : State) (k q n c cnt : Nat) (p : Parcel), s.arrives k q 1 p → s.fresh p → w = s.tookReq p → p.body = .decrement n c cnt →
    ((w.ctx c).st = .resident → p.slice = w.ctxTag c → w.nodesValid c = true → n < w.nodeWin c →
      exec (.decrementReceive k q) s = .next (((({ w with gs := { w.gs with
        resIn := w.gs.resIn ++ [{ inc := false, node := nk c n, n := cnt }] } } : State).settle.answerReq p.e2eOf 0 0).popParcel k q false))) ∧
    ((w.ctx c).st = .saving ∨ (w.ctx c).st = .restoring → w.li.pend.length < 256 →
      exec (.decrementReceive k q) s = .next (({ w with li := { w.li with
        pend := w.li.pend ++ [{ parcel := some p, localNode := none, ctx := c, node := n, count := cnt }] } } : State).popParcel k q false))) ∧
  (∀ (s w : State) (k q v op c amt : Nat) (o : SyncOp) (p : Parcel), s.arrives k q 2 p → s.fresh p → w = s.tookReq p → p.body = .signal v op c amt →
    p.slice = w.ctxTag c → sigOp op amt = some o →
    exec (.signalReceive k q) s = .next ((w.syncOp {
      src := .remote p.src p.ctx c, vid := v, scope := 3, op := o, e2e := some p.e2eOf }).popParcel k q false)) ∧
  (∀ (s w u v : State) (k q x rows rb l g ep e blk : Nat) (p : Parcel), s.arrives k q 3 p → s.headParcel k q = some (p, blk) → s.fresh p → w = s.tookReq p → p.body = .call x rows rb l g ep →
    w.callRefusal p x = none → w.serving x = some e →
    u = (if (w.callSlot (w.nextCall e)).busy = true ∧ w.callOver (w.nextCall e) = true then w.freeCall (w.nextCall e) else w) →
    v = u.popParcel k q true →
    ((u.callSlot (w.nextCall e)).busy = false → (∀ y ∈ u.li.callWait, y.entry ≠ e) →
      exec (.expertCallReceive k q) s = .next (match u.serve e p with
        | some t => t.popParcel k q false
        | none => { v with li := { v.li with callWait := u.li.callWait ++ [⟨e, p, k, q, blk⟩] } })) ∧
    ((u.callSlot (w.nextCall e)).busy = true → exec (.expertCallReceive k q) s = .next ({ v with li := { v.li with callWait := u.li.callWait ++ [⟨e, p, k, q, blk⟩] } }))) ∧
  (∀ (s : State) (k q : Nat), s.lockstep = true →
    exec (.decrementReceive k q) s = .next s ∧ exec (.signalReceive k q) s = .next s ∧ exec (.expertCallReceive k q) s = .next s)

/-- R124, R274, R296, R308, R309, R315, R318, R328. Entries 27 and 36 of the log are the model's own choices about HELLO, entry 56 that
a late BEAT does nothing. -/
def Obligations.AnswersAndControlParcelsComplete : Prop :=
  (∀ (s w : State) (k q l g ep off n : Nat) (data : List Byte) (p : Parcel) (x : Landing), s.arrives k q 4 p → p.body = .ret l g ep off data →
    w = s.bump (gcnt 7) 1 → x = w.landing l → n = data.length → x.st = .isOpen → x.gen.toNat = g → x.epoch = ep → x.received = off → 0 < n →
    off + n ≤ x.expect →
    exec (.returnReceive k q) s = .next (((match w.writeBytes (ctxSpace x.ctx) (x.base + off) data, x.owner with
      | none, _ => w.ctxFault x.ctx { cause := 0x95, node := x.node.map nkIdx, detail := l } (sourceUnit 6)
      | some t, .sequence r _ _ =>
        if off + n = x.expect then (t.updLanding l fun y => { y with received := off + n, st := .filled, leftAt := t.now }).wakeRoster r
        else t.updLanding l fun y => { y with received := off + n }
      | some t, _ =>
        if off + n = x.expect then t.updLanding l fun y => { y with received := off + n, st := .filled, leftAt := t.now }
        else t.updLanding l fun y => { y with received := off + n }) : State).popParcel k q false)) ∧
  (∀ (s w : State) (k q n st why : Nat) (p : Parcel), s.arrives k q 5 p → p.body = .ack n st why → w = s.bump (gcnt 7) 1 →
    exec (.ackReceive k q) s = .next ((match w.unanswered p.src n with
      | some u => (w.dropUnanswered u).answered u st why
      | none => w).popParcel k q false)) ∧
  (∀ (s w a b : State) (k q far lo hi sys rev : Nat) (seen : Bool) (cr : List Nat) (p : Parcel), s.arrives k q 0x10 p →
    p.body = .hello far seen lo hi sys cr → w = s.bump (gcnt 7) 1 → rev = min hi (w.fld ⟨.liRev, 0, 0⟩ 8 8) →
    a = (w.setReg ⟨.portFound, k, 0⟩ (BitVec.ofNat 64 (p.src + far * 2 ^ 16 + sys * 2 ^ 32))).updPort k (fun y => { y with
      gotAny := true, gotSeen := y.gotSeen || seen, farCredits := cr, farRev := (lo, hi) }) →
    b = (if (w.port k).st ≠ .hello then w
      else if rev < lo ∨ rev < a.fld ⟨.liRev, 0, 0⟩ 0 8 then
        ((a.toPortState k .fenced 0).updPort k fun y => { y with reason := 5 }).portEvent k 0x73 5
      else (a.updPort k fun y => { y with rev := rev }).judgePort k) →
    exec (.helloReceive k q) s = .next (b.popParcel k q false)) ∧
  (∀ (s w b : State) (k q v : Nat) (p : Parcel), s.arrives k q 0x11 p → p.body = .beat v → w = s.bump (gcnt 7) 1 →
    b = (if w.beatSource = 2 ∧ w.beatPort = some k ∧ w.ready then
        if w.beatTick + w.beatWindow < w.beatPeriod then w.glitch
        else if w.beatTick ≤ w.beatPeriod + w.beatWindow then { w with tb := { w.tb with remote := some v, remoteAt := w.now } }
        else w
      else w.bump (liCnt 10) 1) →
    exec (.beatParcelReceive k q) s = .next (b.popParcel k q false)) ∧
  (∀ (s w b : State) (k q id : Nat) (p : Parcel), s.arrives k q 0x12 p → p.body = .cutMarker id → s.ob.stop ≠ .snapped →
    w = s.bump (gcnt 7) 1 → b = (if higher32 id (w.fld ⟨.snapLast, 0, 0⟩ 0 32) then w.takeSnap id (some k) else w) →
    exec (.cutMarkerReceive k q) s = .next (b.popParcel k q false)) ∧
  (∀ (s : State) (k q : Nat), s.lockstep = true →
    exec (.returnReceive k q) s = .next s ∧ exec (.ackReceive k q) s = .next s ∧ exec (.helloReceive k q) s = .next s ∧
    exec (.beatParcelReceive k q) s = .next s ∧ (s.ob.stop ≠ .snapped → exec (.cutMarkerReceive k q) s = .next s))

/-- The queue of waiting commands, first in first out, is the model's form of the block's outside (log entry 3). -/
def Obligations.StepRunsTheFrontCommand : Prop :=
  ∀ (s : State) (c : Instr) (cs : List Instr), s.pending = c :: cs → step s = exec c { s with pending := cs }

/-- A step on an empty queue is the model's own choice (log entry 3); the counters are those of R401. -/
def Obligations.AnEmptyQueueIsOneHubCycle : Prop :=
  ∀ s : State, s.pending = [] → ∃ t, step s = .next t ∧ t = s.hubCycle ∧ t.pending = [] ∧ t.mmu = s.mmu ∧
    (∀ u, u = (s.bump (gcnt 0) 1).settleShort → (∀ x ∈ u.st.atGate, u.gated x.1 = true) → t.mem = s.mem)

/-- The canonical form of memory, on every state and every command, and on the hub cycle of an empty queue. -/
def Obligations.EveryStepKeepsMemoryCanonical : Prop :=
  ∀ s t : State, s.Wf → step s = .next t → t.Wf

/-- R16, R37, R163, R199, R374, R415; a reset value the spec does not give is the model's own choice (log entries 1 and 2). -/
def Obligations.ResetLeavesNothingStanding : Prop :=
  State.reset.Wf ∧ State.reset.mem = [] ∧ State.reset.pending = [] ∧ State.reset.ready = false ∧ State.reset.ob.stop = .running ∧
  State.reset.det = 0 ∧ (∀ r : Reg, State.reset.reg r = r.row.reset) ∧ (∀ k, (State.reset.node k).st = .free) ∧
  (∀ k, (State.reset.obj k).alloc = false) ∧ (∀ k, (State.reset.seqEnt k).st = .free) ∧ (∀ n, (State.reset.slot n).st = .disabled) ∧
  State.reset.fe.fifo = [] ∧ State.reset.fe.stalled = []

/-- The chip MMU is not Tsuica's (R17); the boundary's history only grows. -/
def Obligations.CommandsKeepQueueMapAndWhatWasDriven : Prop :=
  ∀ (c : Instr) (s t : State), exec c s = .next t → t.pending = s.pending ∧ t.mmu = s.mmu ∧ ∃ new, t.out = new ++ s.out

/-- The frame of the commands that store nothing, over all of memory; mayStore names the others. -/
def Obligations.StorelessCommandsLeaveMemory : Prop :=
  ∀ (c : Instr) (s t : State), mayStore c = false → exec c s = .next t → t.mem = s.mem

/-- R34, R35, R40 to R42: decoding an encoded descriptor gives it back, and encoding a decoded one gives its bytes back. -/
def Obligations.NodeDescriptorsRoundTrip : Prop :=
  (∀ d : Desc, d.encode.length = 32 ∧ Desc.decode d.encode = some d) ∧
  (∀ (bs : List Byte) (d : Desc), bs.length = 32 → leAt bs 4 4 < 2 ^ 22 → Desc.decode bs = some d → d.encode = bs)

/-- R11, R12, R422, R445. -/
def Obligations.EveryRegisterIsReachedAtItsOffset : Prop :=
  ∀ r : Reg, r.valid = true →
    target r.off false = some (r, if r.row.wide then .low else .whole) ∧
    (r.row.wide = true → target r.off true = some (r, .whole) ∧ target (r.off + 4) false = some (r, .high)) ∧
    (r.row.wide = false → target r.off true = none)

/-- R343 step 8. -/
def Obligations.TeardownLeavesNothingOfTheContext : Prop :=
  ∀ (c : Nat) (s t : State), (s.ctx c).st = .faulted → (s.ctx c).torn = false → (s.ctx c).faultedInSave = false →
    s.tearDrained c = true → s.hubOn = true → exec (.teardownContinue c) s = .next t →
    t.ctxNodes c = [] ∧ (∀ e, e ∈ t.gs.edges → e.1 / 2 ^ 22 ≠ c) ∧
    (∀ r d, (r, d) ∈ t.dl.dealers → (∀ h, h ∈ d.hands → nkCtx h.key ≠ c) ∧ (∀ h : Share, h ∈ d.shares → nkCtx h.key ≠ c) ∧
      (∀ x, x ∈ d.confirmed → nkCtx x.1 ≠ c)) ∧
    (∀ x, x ∈ t.dl.starts → x.2.ctx ≠ c)

/-- R328, R375, R416. -/
def Obligations.AccessesWaitOrAreAborted : Prop :=
  (∀ (s t : State) (who : Requester) (r : Reg) (v : BitVec 64), s.ob.stop = .snapped → r.valid = true → r.off / 0x10000 ≠ 8 →
    r.off / 0x10000 ≠ 0xB → t = { s with ob := { s.ob with snapHeld := s.ob.snapHeld ++ [.write who r.off r.row.wide v] } } →
    exec (.registerWrite who r.off v) s = .next
      (if s.lockstep = true ∧ 64 ≤ s.ob.snapHeld.length then t.orReg ⟨.tsuDisturb, 0, 0⟩ 2 else t)) ∧
  (∀ (s t : State) (n : Nat) (v : BitVec 32), s.ob.stop = .snapped →
    t = { s with ob := { s.ob with snapHeld := s.ob.snapHeld ++ [.doorbell n v] } } →
    exec (.doorbellWrite n v) s = .next
      (if s.lockstep = true ∧ 64 ≤ s.ob.snapHeld.length then t.orReg ⟨.tsuDisturb, 0, 0⟩ 2 else t)) ∧
  (∀ s : State, s.lockstep = true → s.ob.stop ≠ .snapped →
    (∀ who r v, Reg.valid r = true → exec (.registerWrite who r.off v) s = .next (s.holdInput (.write who r.off r.row.wide v))) ∧
    (∀ who off, exec (.lowHalfRead who off) s = .next (s.holdInput (.read who off false))) ∧
    (∀ n v, exec (.doorbellWrite n v) s = .next (s.holdInput (.doorbell n v))) ∧
    (∀ h t, t = ({ s with ob := { s.ob with inputs := s.ob.inputs ++ [h] } } : State) →
      s.holdInput h = (if s.holding ∧ 4096 ≤ (t.ob.inputs.filter fun h => !h.free).length + t.heldParcels then
        t.orReg ⟨.tsuDisturb, 0, 0⟩ 2 else t))) ∧
  (∀ (s : State), s.ready = false → s.inputsWait = false → s.ob.snapHeld = [] → s.ob.stop ≠ .snapped →
    (∀ who off v, exec (.registerWrite who off v) s = .next (s.emit (.abort who))) ∧
    (∀ n v, exec (.doorbellWrite n v) s = .next (s.emit (.abort .host))) ∧
    (∀ who r h off, target off false = some (r, h) → r.name ≠ .tsuIdent → r.name ≠ .tsuStart →
      exec (.lowHalfRead who off) s = .next (s.emit (.abort who))))

/-- R154, R195, R231, R351: the frame of a store, and of the retire record's store at the address the roster's registers give. -/
def Obligations.WritesStayInTheirBytes : Prop :=
  (∀ (s t : State) (sp a : Nat) (bs : List Byte), s.Wf → s.writeBytes sp a bs = some t →
    t.Wf ∧
    (∀ p, (∀ i, i < bs.length → s.phys sp (a + i) ≠ some p) → tget 0 t.mem p = tget 0 s.mem p) ∧
    (∀ i p, i < bs.length → s.phys sp (a + i) = some p → (∀ j, j < bs.length → s.phys sp (a + j) = some p → j = i) →
      tget 0 t.mem p = bs.getD i 0)) ∧
  (∀ (s t : State) (k p : Nat), s.Wf → exec (.retireRecordWrite k) s = .next t →
    (∀ i, i < 32 → s.phys (ctxSpace (s.roCtx k)) ((s.reg ⟨.roRetireAddr, k, 0⟩).toNat +
      (s.reg ⟨.roRetireWr, k, 0⟩).toNat % 2 ^ s.fld ⟨.roRetireShift, k, 0⟩ 0 5 * 32 + i) ≠ some p) →
    tget 0 t.mem p = tget 0 s.mem p)

/-- R81. -/
def Obligations.PicksTakeTheFirstFreeTileFromThePointer : Prop :=
  (∀ (ptr e : Nat) (es : List Nat), ptr < 48 → (∀ x, x ∈ es → engTile x < 48) → pickFrom ptr es = some e →
    e ∈ es ∧ ∀ x, x ∈ es →
      (engTile e + 48 - ptr) % 48 < (engTile x + 48 - ptr) % 48 ∨ (engTile e = engTile x ∧ engCell e ≤ engCell x)) ∧
  (∀ (ptr : Nat) (es : List Nat), pickFrom ptr es = none ↔ es = [])

/-- R83. -/
def Obligations.SharesDivideThePanels : Prop :=
  ∀ (es : List Nat) (n : Nat), es ≠ [] →
    (∀ p, p < n → ∃ b, b ∈ shareBounds es n ∧ b.2.1 ≤ p ∧ p < b.2.2) ∧
    (∀ b c p, b ∈ shareBounds es n → c ∈ shareBounds es n → b.2.1 ≤ p → p < b.2.2 → c.2.1 ≤ p → p < c.2.2 → b = c) ∧
    (∀ b, b ∈ shareBounds es n → b.2.2 ≤ n ∧ (∃ e, e ∈ es ∧ engRegion e = b.1) ∧
      b.2.1 = n * (es.filter fun e => decide (engRegion e < b.1)).length / es.length)

/-- R347. What a fault then does is `ctxFault`, shared by every fault. -/
def Obligations.DriverTeardownFaultsTheContext : Prop :=
  ∀ (s w : State) (who : Requester) (v : BitVec 32) (c : Nat), s.admits ⟨.fcTeardown, 0, 0⟩ w → c = bits v 0 9 →
    ((w.ctx c).st ≠ .unused → (w.ctx c).st ≠ .faulted →
      exec (.driverTeardown who v) s = .next (w.ctxFault c { cause := 0x94, status := 1 } 0x8009).flushSnap) ∧
    ((w.ctx c).st = .unused ∨ (w.ctx c).st = .faulted → exec (.driverTeardown who v) s = .next w)

/-- The layouts of R91, R182 and R405. -/
def Obligations.LaunchCompletionAndTraceRecordsAreLaidOut : Prop :=
  (∀ (l : Launch) (r : List Byte), r = l.bytes →
    r.length = 32 ∧ leAt r 0x00 8 = l.const % 2 ^ 64 ∧
    leAt r 0x08 4 = (l.node % 2 ^ 20 + l.ctx % 512 * 2 ^ 20) % 2 ^ 32 ∧
    leAt r 0x0C 4 = (l.slot % 256 + l.pod % 16 * 2 ^ 8 + l.det % 4 * 2 ^ 12 + l.trace.toNat * 2 ^ 14 + l.sprout.toNat * 2 ^ 15) % 2 ^ 32 ∧
    leAt r 0x10 2 = l.panel % 2 ^ 16 ∧ leAt r 0x12 2 = l.panels % 2 ^ 16 ∧ leAt r 0x14 4 = l.iter % 2 ^ 32 ∧
    leAt r 0x18 4 = l.route % 2 ^ 32 ∧ leAt r 0x1C 2 = l.epoch % 2 ^ 16) ∧
  (∀ (c : CplRec) (n : Nat) (r : List Byte), r = c.bytes n →
    r.length = 32 ∧ leAt r 0x00 8 = c.seq % 2 ^ 64 ∧ leAt r 0x08 8 = c.user % 2 ^ 64 ∧ leAt r 0x10 1 = c.status % 2 ^ 8 ∧
    leAt r 0x11 1 = c.opcode % 2 ^ 8 ∧ leAt r 0x12 1 = c.cause % 2 ^ 8 ∧ leAt r 0x14 4 = c.folded % 2 ^ 21 % 2 ^ 32 ∧
    leAt r 0x18 2 = c.drained % 2 ^ 16 ∧ leAt r 0x1A 2 = c.killed % 2 ^ 16 ∧ leAt r 0x1C 1 = n % 2 ^ 8 ∧
    leAt r 0x1E 2 = c.ctx % 512 % 2 ^ 16) ∧
  (∀ (t : TraceRec) (r : List Byte), r = t.bytes →
    r.length = 32 ∧ leAt r 0x00 1 = t.typ % 2 ^ 8 ∧ leAt r 0x01 1 = t.source % 16 % 2 ^ 8 ∧ leAt r 0x08 8 = t.ts % 2 ^ 56 % 2 ^ 64 ∧
    leAt r 0x10 4 = t.node % 2 ^ 20 % 2 ^ 32 ∧ leAt r 0x14 4 = t.arg % 2 ^ 32 ∧ leAt r 0x18 8 = t.tag % 2 ^ 64)

/-- R122. -/
def Obligations.CallRecordsAreLaidOut : Prop :=
  ∀ (p : Parcel) (x rows rb l gen ep : Nat) (r : List Byte), r = callRecord p x rows rb l gen ep →
    r.length = 64 ∧ leAt r 0x00 2 = p.src % 2 ^ 16 ∧ leAt r 0x02 2 = l % 2 ^ 16 ∧ leAt r 0x04 2 = ep % 2 ^ 16 ∧
    leAt r 0x06 1 = gen % 2 ^ 8 ∧ leAt r 0x07 1 = 0 ∧ leAt r 0x08 4 = rows % 2 ^ 32 ∧ leAt r 0x0C 4 = x % 2 ^ 32 ∧
    leAt r 0x10 4 = rb % 2 ^ 32 ∧ leAt r 0x14 2 = p.ctx % 2 ^ 16 ∧ r.drop 0x16 = zeros 42

/-- R103 and R107. -/
def Obligations.TheFanOutAreaIsLaidOut : Prop :=
  ∀ (d : Desc) (w : FanWork) (tokens e k cap b : Nat), e = d.expertsM1 + 1 → k = d.topk →
    cap = (if d.capacity ≠ 0 then d.capacity else tokens) → b = min (tokens * k) (e * cap) →
    fanCap d tokens = cap ∧ (fanOffsets d tokens).1 = 0x40 + 16 * e ∧
    (fanOffsets d tokens).2.1 = (fanOffsets d tokens).1 + roundUp (4 * b) 64 ∧
    (fanOffsets d tokens).2.2 = (fanOffsets d tokens).2.1 + roundUp tokens 64 ∧
    (∀ skipped, (w.record d skipped).length = 64) ∧ (∀ x, (w.summary x).length = 16)

/-- R328. The row as the completion of its read is the model's form (log entry 87). -/
def Obligations.HostReadsWaitInLockstep : Prop :=
  ∀ s : State, s.lockstep = true → s.hubOn = true →
    (∀ n, s.hostAt (ctxSpace (s.slotCtx n)) (s.reg ⟨.slotShadow, n, 0⟩).toNat = true → .completion (.shadowPoll n) ∉ s.ob.inputs → exec (.shadowPoll n) s = .next (s.holdInput (.completion (.shadowPoll n)))) ∧
    (∀ n, s.slotShadow n = true → s.hostAt (ctxSpace (s.slotCtx n)) (s.reg ⟨.slotShadow, n, 0⟩).toNat = true → .completion (.slotIdleCheck n) ∉ s.ob.inputs → exec (.slotIdleCheck n) s = .next (s.holdInput (.completion (.slotIdleCheck n)))) ∧
    (∀ c i, s.hostAt (ctxSpace c) (s.node (nk c i)).d.t.toNat = true → .completion (.loopStart c i) ∉ s.ob.inputs → exec (.loopStart c i) s = .next (s.holdInput (.completion (.loopStart c i)))) ∧
    (∀ c i, s.hostAt (ctxSpace c) ((s.node (nk c i)).constAddr + 0x100) = true → .completion (.sproutRead c i) ∉ s.ob.inputs → exec (.sproutRead c i) s = .next (s.holdInput (.completion (.sproutRead c i)))) ∧
    (∀ c i, s.hostAt (ctxSpace (s.node (nk c i)).ptrCtx) (s.node (nk c i)).d.b.toNat = true → .completion (.indirectPointerRead c i) ∉ s.ob.inputs → exec (.indirectPointerRead c i) s = .next (s.holdInput (.completion (.indirectPointerRead c i)))) ∧
    (∀ c vid, s.hostAt (ctxSpace c) ((s.reg ⟨.xlatBase, c, 0⟩).toNat + 8 * vid) = true → .completion (.xlatFill c vid) ∉ s.ob.inputs → exec (.xlatFill c vid) s = .next (s.holdInput (.completion (.xlatFill c vid)))) ∧
    (∀ c, s.hostAt devSpace (s.reg ⟨.ctxSaveAddr, c, 0⟩).toNat = true → .completion (.restoreComplete c) ∉ s.ob.inputs → exec (.restoreComplete c) s = .next (s.holdInput (.completion (.restoreComplete c)))) ∧
    (∀ x, s.expandPlace = some x → s.hostAt x.1 x.2 = true → .completion .fanoutExpand ∉ s.ob.inputs → exec .fanoutExpand s = .next (s.holdInput (.completion .fanoutExpand))) ∧
    (∀ x, s.rowsPlace = some x → s.hostAt x.1 x.2 = true → .completion .fanoutInstantiate ∉ s.ob.inputs → exec .fanoutInstantiate s = .next (s.holdInput (.completion .fanoutInstantiate))) ∧
    (∀ n x, s.headArray n = some x → s.hostAt x.1 x.2 = true → .completion (.launchGraph n) ∉ s.ob.inputs → exec (.launchGraph n) s = .next (s.holdInput (.completion (.launchGraph n)))) ∧
    (∀ n x, s.headArray n = some x → s.hostAt x.1 x.2 = true → .completion (.appendNodes n) ∉ s.ob.inputs → exec (.appendNodes n) s = .next (s.holdInput (.completion (.appendNodes n)))) ∧
    (∀ n x, s.headArray n = some x → s.hostAt x.1 x.2 = true → .completion (.rosterAdmit n) ∉ s.ob.inputs → exec (.rosterAdmit n) s = .next (s.holdInput (.completion (.rosterAdmit n)))) ∧
    (∀ n x, s.headArray n = some x → s.hostAt x.1 x.2 = true → .completion (.rosterExtend n) ∉ s.ob.inputs → exec (.rosterExtend n) s = .next (s.holdInput (.completion (.rosterExtend n)))) ∧
    (∀ n x, s.headArray n = some x → s.hostAt x.1 x.2 = true → .completion (.rosterFold n) ∉ s.ob.inputs → exec (.rosterFold n) s = .next (s.holdInput (.completion (.rosterFold n)))) ∧
    (∀ c i x, s.replayPlace (nk c i) = some x → s.hostAt x.1 x.2 = true → .completion (.trickCompose c i) ∉ s.ob.inputs → exec (.trickCompose c i) s = .next (s.holdInput (.completion (.trickCompose c i)))) ∧
    (∀ c i x, s.replayPlace (nk c i) = some x → s.hostAt x.1 x.2 = true → .completion (.composeRetry c i) ∉ s.ob.inputs → exec (.composeRetry c i) s = .next (s.holdInput (.completion (.composeRetry c i)))) ∧
    (∀ k x, s.resultPlace k = some x → s.hostAt x.1 x.2 = true → .completion (.trickEnd k) ∉ s.ob.inputs → exec (.trickEnd k) s = .next (s.holdInput (.completion (.trickEnd k)))) ∧
    (∀ n, s.nextFetch = some n → s.fetchesOut.length < 8 → s.hostAt (ctxSpace (s.slotCtx n))
        ((s.reg ⟨.slotRing, n, 0⟩).toNat + (s.slot n).wdev.toNat % s.ringSize n * 64) = true → .completion (.ringFetch n) ∉ s.ob.inputs →
      exec (.ringFetch n) s = .next (({ s with fe := { s.fe with lastFetch := tput 255 s.fe.lastFetch (s.slotPrio n) n } } : State).holdInput
        (.completion (.ringFetch n))))

/-- The frame of R77's messages. -/
def Obligations.OfferMessagesTouchOnlyTheDealing : Prop :=
  ∀ (s t : State) (r c i : Nat) (x : Instr), (x = .offerAnswer r c i ∨ x = .answerArrival r c i ∨ x = .offerWithdraw r c i) →
    exec x s = .next t →
    t.gs = s.gs ∧ t.sy = s.sy ∧ t.rs = s.rs ∧ t.tb = s.tb ∧ t.li = s.li ∧ t.fe = s.fe ∧ t.fc = s.fc ∧ t.regs = s.regs ∧
    t.mem = s.mem ∧ t.out = s.out ∧ t.dl.backlog = s.dl.backlog ∧ t.dl.leHand = s.dl.leHand ∧ t.dl.starts = s.dl.starts

/-- The frame of R306 to R309's port events. -/
def Obligations.PortEventsTouchOnlyTheLinks : Prop :=
  (∀ (s w t : State) (k : Nat) (x : Instr), s.gated 6 = false → (∀ y ∈ s.st.atGate, y.1 ≠ 6) →
    (x = .phyReady k ∧ w = s.wake 6 ∨ (x = .retrainExpiry k ∨ x = .linkSilent k ∨ x = .helloSend k) ∧ w = s) →
    exec x s = .next t →
    t.gs = s.gs ∧ t.dl = s.dl ∧ t.sy = s.sy ∧ t.rs = s.rs ∧ t.tb = s.tb ∧ t.fc = s.fc ∧ t.st = s.st ∧ t.ob = s.ob ∧ t.sv = s.sv ∧
    t.mem = s.mem ∧ t.now = s.now ∧
    (∃ rs : List Reg, (∀ r ∈ rs, r.name = .sliceRejects ∨ r = gcnt 6) ∧ t.regs = (w.each rs fun a r => a.bump r 1).regs)) ∧
  (∀ (s : State) (k : Nat), s.gated 6 = true →
    exec (.phyReady k) s = .next { s with st := { s.st with atGate := s.st.atGate ++ [(6, .phyReady k)] } })

/-- R364, R415: what FROZEN, SNAPPED and a LOCKSTEP supply warning stop. -/
def Obligations.AStoppedHubDoesNothing : Prop :=
  ∀ s : State, s.hubOn = false →
    exec .resolverUpdate s = .next s ∧ exec .leIssueSlot s = .next s ∧ exec .fanoutExpand s = .next s ∧
    exec .landingWaitResume s = .next s ∧ exec .fanoutInstantiate s = .next s ∧
    (∀ c i u, exec (.scrub c ⟨i, u⟩) s = .next s ∧ exec (.nodeDispatch c i) s = .next s ∧ exec (.collectWindowClose c i) s = .next s ∧
      exec (.loopStart c i) s = .next s ∧ exec (.loopIterationEnd c i) s = .next s ∧ exec (.sproutRead c i) s = .next s ∧
      exec (.fanoutComplete c i) s = .next s ∧ exec (.trickCompose c i) s = .next s ∧ exec (.composeRetry c i) s = .next s ∧
      exec (.remoteSend c i) s = .next s) ∧
    (∀ r c i, exec (.offerAnswer r c i) s = .next s ∧ exec (.answerArrival r c i) s = .next s ∧ exec (.offerConfirm r c i) s = .next s ∧
      exec (.offerWithdraw r c i) s = .next s ∧ exec (.shareDone r c i) s = .next s ∧ exec (.backlogDispatch r c) s = .next s) ∧
    (∀ k, exec (.issueSlot k) s = .next s ∧ exec (.startReport k) s = .next s ∧ exec (.completionAccept k) s = .next s ∧
      exec (.trickInstantiate k) s = .next s ∧ exec (.trickEnd k) s = .next s ∧ exec (.retireRecordWrite k) s = .next s ∧
      exec (.logRecordWrite k) s = .next s ∧ exec (.importLanded k) s = .next s ∧ exec (.landingTimeout k) s = .next s ∧
      exec (.landingFree k) s = .next s ∧ exec (.ringFetch k) s = .next s ∧ exec (.completionRecordWrite k) s = .next s) ∧
    (∀ e st w, exec (.engineCompletion e st w) s = .next s ∧
      (s.gated 6 = false → (∀ x ∈ s.st.atGate, x.1 ≠ 6) → (s.wake 6).hubOn = false → exec (.leCompletion e st w) s = .next (s.wake 6)) ∧
      exec (.drainReport e st) s = .next s) ∧
    (∀ n q, exec (.commandRetire n q) s = .next s)
end

