-- ==== Sys2Proof/Laws/Regs.lean ====
section
/-! SUPPORT. The register map is unambiguous: every register is found at its own offset (R11, R422). -/
namespace Sys2Proof.Machine

/-- The highest offset of a map row. -/
def RegRow.top (x : RegRow) : Nat := x.base + (x.count - 1) * x.stride + (x.count2 - 1) * x.stride2

/-- Two map rows name no offset in common: one lies above the other, or they share a stride and lie apart in it. -/
def RegRow.apart (x y : RegRow) : Bool :=
  Nat.blt x.top y.base || Nat.blt y.top x.base ||
  (Nat.beq x.stride y.stride && Nat.blt (x.base % x.stride + (x.count2 - 1) * x.stride2) x.stride &&
    Nat.blt (y.base % x.stride + (y.count2 - 1) * y.stride2) x.stride &&
    (Nat.blt (x.base % x.stride + (x.count2 - 1) * x.stride2) (y.base % x.stride) ||
     Nat.blt (y.base % x.stride + (y.count2 - 1) * y.stride2) (x.base % x.stride)))

/-- The elements of one map row lie apart. -/
def RegRow.inner (x : RegRow) : Bool :=
  ((Nat.ble x.count 1 && Nat.beq x.stride 0) || Nat.blt ((x.count2 - 1) * x.stride2) x.stride) &&
  ((Nat.ble x.count2 1 && Nat.beq x.stride2 0) || Nat.blt 0 x.stride2)

def allApart : List RegRow → Bool
  | [] => true
  | x :: l => x.inner && l.all x.apart && allApart l

/-- The rows of the register map lie apart. -/
theorem map_apart : allApart (regNames.map regRow) = true := by decide

theorem mem_regNames (n : RegName) : n ∈ regNames := by cases n <;> decide

/-- The offset of element (i, j) of a row. -/
def RegRow.at (x : RegRow) (i j : Nat) : Nat := x.base + i * x.stride + j * x.stride2

theorem RegRow.at_le_top {x : RegRow} {i j : Nat} (hi : i < x.count) (hj : j < x.count2) : x.at i j ≤ x.top := by
  have h1 : i * x.stride ≤ (x.count - 1) * x.stride := Nat.mul_le_mul_right _ (by omega)
  have h2 : j * x.stride2 ≤ (x.count2 - 1) * x.stride2 := Nat.mul_le_mul_right _ (by omega)
  unfold RegRow.at RegRow.top
  omega

theorem RegRow.base_le_at (x : RegRow) (i j : Nat) : x.base ≤ x.at i j := by
  unfold RegRow.at
  omega

/-- Where a row lies inside its stride, the remainder of an offset says which element of the inner array it is. -/
theorem RegRow.at_mod {x : RegRow} {i j : Nat} (hj : j < x.count2) (h : x.base % x.stride + (x.count2 - 1) * x.stride2 < x.stride) :
    x.at i j % x.stride = x.base % x.stride + j * x.stride2 := by
  have h2 : j * x.stride2 ≤ (x.count2 - 1) * x.stride2 := Nat.mul_le_mul_right _ (by omega)
  have e : x.at i j = x.base + j * x.stride2 + x.stride * i := by
    unfold RegRow.at
    rw [Nat.mul_comm i]
    omega
  rw [e, Nat.add_mul_mod_self_left, Nat.add_mod]
  have h3 : j * x.stride2 % x.stride = j * x.stride2 := Nat.mod_eq_of_lt (by omega)
  rw [h3]
  exact Nat.mod_eq_of_lt (by omega)

theorem RegRow.apart_ne {x y : RegRow} (h : x.apart y = true) {i j i' j' : Nat} (hi : i < x.count) (hj : j < x.count2)
    (hi' : i' < y.count) (hj' : j' < y.count2) : x.at i j ≠ y.at i' j' := by
  intro e
  have hx := RegRow.at_le_top hi hj
  have hy := RegRow.at_le_top hi' hj'
  have bx := x.base_le_at i j
  have bY := y.base_le_at i' j'
  simp only [RegRow.apart, Bool.or_eq_true, Bool.and_eq_true, Nat.blt_eq, Nat.beq_eq] at h
  obtain (h | h) | ⟨⟨⟨hs, h1⟩, h2⟩, h3⟩ := h
  · omega
  · omega
  · have ex := RegRow.at_mod (i := i) hj h1
    have ey := RegRow.at_mod (x := y) (i := i') hj' (by rw [← hs]; exact h2)
    rw [← hs, ← e, ex] at ey
    have m1 : j * x.stride2 ≤ (x.count2 - 1) * x.stride2 := Nat.mul_le_mul_right _ (by omega)
    have m2 : j' * y.stride2 ≤ (y.count2 - 1) * y.stride2 := Nat.mul_le_mul_right _ (by omega)
    omega

theorem RegRow.at_inj {x : RegRow} (h : x.inner = true) {i j i' j' : Nat} (hi : i < x.count) (hj : j < x.count2)
    (hi' : i' < x.count) (hj' : j' < x.count2) (e : x.at i j = x.at i' j') : i = i' ∧ j = j' := by
  simp only [RegRow.inner, Bool.or_eq_true, Bool.and_eq_true, Nat.blt_eq, Nat.ble_eq, Nat.beq_eq] at h
  unfold RegRow.at at e
  have m1 : j * x.stride2 ≤ (x.count2 - 1) * x.stride2 := Nat.mul_le_mul_right _ (by omega)
  have m2 : j' * x.stride2 ≤ (x.count2 - 1) * x.stride2 := Nat.mul_le_mul_right _ (by omega)
  have hii : i = i' := by
    rcases h.1 with h1 | h1
    · omega
    · rcases Nat.lt_trichotomy i i' with h2 | h2 | h2
      · have := Nat.mul_le_mul_right x.stride (Nat.succ_le_of_lt h2)
        rw [Nat.succ_mul] at this
        omega
      · exact h2
      · have := Nat.mul_le_mul_right x.stride (Nat.succ_le_of_lt h2)
        rw [Nat.succ_mul] at this
        omega
  subst hii
  refine ⟨rfl, ?_⟩
  rcases h.2 with h1 | h1
  · omega
  · exact Nat.eq_of_mul_eq_mul_right h1 (by omega)

theorem allApart_row {l : List RegRow} (h : allApart l = true) {x : RegRow} (hx : x ∈ l) : x.inner = true := by
  induction l with
  | nil => cases hx
  | cons y l ih =>
    simp only [allApart, Bool.and_eq_true] at h
    rcases List.mem_cons.1 hx with rfl | hx
    · exact h.1.1
    · exact ih h.2 hx

theorem RegRow.apart_symm_ne {x y : RegRow} (h : x.apart y = true ∨ y.apart x = true) {i j i' j' : Nat} (hi : i < x.count)
    (hj : j < x.count2) (hi' : i' < y.count) (hj' : j' < y.count2) : x.at i j ≠ y.at i' j' := by
  rcases h with h | h
  · exact RegRow.apart_ne h hi hj hi' hj'
  · exact fun e => RegRow.apart_ne h hi' hj' hi hj e.symm

theorem allApart_pair {l : List RegName} (h : allApart (l.map regRow) = true) {a b : RegName} (ha : a ∈ l) (hb : b ∈ l)
    (hab : a ≠ b) : (regRow a).apart (regRow b) = true ∨ (regRow b).apart (regRow a) = true := by
  induction l with
  | nil => cases ha
  | cons c l ih =>
    simp only [List.map_cons, allApart, Bool.and_eq_true, List.all_eq_true, List.mem_map, forall_exists_index, and_imp,
      forall_apply_eq_imp_iff₂] at h
    rcases List.mem_cons.1 ha with ha | ha
    · rcases List.mem_cons.1 hb with hb | hb
      · exact absurd (ha.trans hb.symm) hab
      · exact .inl (ha ▸ h.1.2 _ hb)
    · rcases List.mem_cons.1 hb with hb | hb
      · exact .inr (hb ▸ h.1.2 _ ha)
      · exact ih h.2 ha hb

theorem Reg.valid_iff {n : RegName} {i j : Nat} :
    Reg.valid ⟨n, i, j⟩ = true ↔ i < (regRow n).count ∧ j < (regRow n).count2 := by
  unfold Reg.valid
  rw [Bool.and_eq_true, decide_eq_true_eq, decide_eq_true_eq]
  exact Iff.rfl

/-- Two registers at one offset are the same register. -/
theorem Reg.off_inj {r r' : Reg} (h : r.valid = true) (h' : r'.valid = true) (e : r.off = r'.off) : r = r' := by
  obtain ⟨n, i, j⟩ := r
  obtain ⟨n', i', j'⟩ := r'
  rw [Reg.valid_iff] at h h'
  change (regRow n).at i j = (regRow n').at i' j' at e
  by_cases hn : n = n'
  · subst hn
    have hin := allApart_row map_apart (List.mem_map_of_mem (mem_regNames n))
    obtain ⟨rfl, rfl⟩ := RegRow.at_inj hin h.1 h.2 h'.1 h'.2 e
    rfl
  · exact absurd e (RegRow.apart_symm_ne (allApart_pair map_apart (mem_regNames n) (mem_regNames n') hn) h.1 h.2 h'.1 h'.2)

theorem rowAt_some {n : RegName} {off : Nat} {r : Reg} (h : rowAt n off = some r) : r.valid = true ∧ r.off = off := by
  unfold rowAt at h
  extract_lets w d i d2 j r' at h
  clear_value r'
  split at h
  · cases h
  · split at h
    · rename_i hv
      cases h
      exact hv
    · cases h

theorem rowAt_own {r : Reg} (h : r.valid = true) : rowAt r.name r.off = some r := by
  have hv := h
  obtain ⟨n, i, j⟩ := r
  rw [Reg.valid_iff] at h
  have hin := allApart_row map_apart (List.mem_map_of_mem (mem_regNames n))
  simp only [RegRow.inner, Bool.or_eq_true, Bool.and_eq_true, Nat.blt_eq, Nat.ble_eq, Nat.beq_eq] at hin
  have hj : j * (regRow n).stride2 ≤ ((regRow n).count2 - 1) * (regRow n).stride2 := Nat.mul_le_mul_right _ (by omega)
  have e : Reg.off ⟨n, i, j⟩ = (regRow n).base + i * (regRow n).stride + j * (regRow n).stride2 := rfl
  have e1 : Reg.off ⟨n, i, j⟩ - (regRow n).base = j * (regRow n).stride2 + i * (regRow n).stride := by omega
  have ei : (if (regRow n).stride = 0 then 0 else (Reg.off ⟨n, i, j⟩ - (regRow n).base) / (regRow n).stride) = i := by
    split
    · rcases hin.1 with h1 | h1 <;> omega
    · rw [e1, Nat.add_mul_div_right _ _ (by omega), Nat.div_eq_of_lt (by omega), Nat.zero_add]
  have e2 : Reg.off ⟨n, i, j⟩ - (regRow n).base - i * (regRow n).stride = j * (regRow n).stride2 := by omega
  have ej : (if (regRow n).stride2 = 0 then 0 else
      (Reg.off ⟨n, i, j⟩ - (regRow n).base - i * (regRow n).stride) / (regRow n).stride2) = j := by
    split
    · rcases hin.2 with h1 | h1 <;> omega
    · rw [e2, Nat.mul_div_cancel _ (by omega)]
  unfold rowAt
  dsimp only
  rw [if_neg (by omega), ei, ej, if_pos ⟨hv, rfl⟩]

theorem findSome_unique {α β : Type} {f : α → Option β} {b : β} {l : List α} (h : ∀ x ∈ l, f x = none ∨ f x = some b)
    (he : ∃ x ∈ l, f x = some b) : l.findSome? f = some b := by
  induction l with
  | nil => obtain ⟨_, hx, _⟩ := he; cases hx
  | cons y l ih =>
    rcases h y (List.mem_cons_self ..) with hy | hy
    · simp only [List.findSome?_cons, hy]
      refine ih (fun x hx => h x (List.mem_cons_of_mem _ hx)) ?_
      obtain ⟨x, hx, hb⟩ := he
      rcases List.mem_cons.1 hx with rfl | hx
      · rw [hy] at hb; cases hb
      · exact ⟨x, hx, hb⟩
    · simp only [List.findSome?_cons, hy]

/-- Every register is found at its own offset. -/
theorem regAt_off {r : Reg} (h : r.valid = true) : regAt r.off = some r := by
  refine findSome_unique (fun n _ => ?_) ⟨r.name, mem_regNames _, rowAt_own h⟩
  cases hr : rowAt n r.off with
  | none => exact .inl rfl
  | some r' => exact .inr (by rw [Reg.off_inj (rowAt_some hr).1 h (rowAt_some hr).2])

/-- What is found at an offset lies there. -/
theorem regAt_some {off : Nat} {r : Reg} (h : regAt off = some r) : r.valid = true ∧ r.off = off := by
  obtain ⟨n, _, hn⟩ := List.exists_of_findSome?_eq_some h
  exact rowAt_some hn

/-- A map row moved to the high halves of its elements. -/
def RegRow.high (x : RegRow) : RegRow := { x with base := x.base + 4 }

set_option maxRecDepth 20000 in
/-- No 32-bit register stands at the high half of a 64-bit one. -/
theorem high_apart : (regNames.all fun a => !(regRow a).wide || regNames.all fun b => (regRow b).wide ||
    (regRow a).high.apart (regRow b) || (regRow b).apart (regRow a).high) = true := by decide

theorem off_high_ne {r r' : Reg} (h : r.valid = true) (h' : r'.valid = true) (hw : r.row.wide = true) (hw' : r'.row.wide = false) :
    r.off + 4 ≠ r'.off := by
  obtain ⟨n, i, j⟩ := r
  obtain ⟨n', i', j'⟩ := r'
  rw [Reg.valid_iff] at h h'
  have k := List.all_eq_true.mp high_apart n (mem_regNames n)
  rw [show (regRow n).wide = true from hw, Bool.not_true, Bool.false_or] at k
  have k := List.all_eq_true.mp k n' (mem_regNames n')
  rw [show (regRow n').wide = false from hw', Bool.false_or, Bool.or_eq_true] at k
  have m := RegRow.apart_symm_ne k (i := i) (j := j) (i' := i') (j' := j') h.1 h.2 h'.1 h'.2
  intro e
  apply m
  simp only [Reg.off, Reg.row] at e
  simp only [RegRow.at, RegRow.high]
  omega

end Sys2Proof.Machine
end

