-- ==== Sys2Proof/Laws/Tab.lean ====
section
/-! SUPPORT. The laws of the sorted tables: what a read after a write gives, and that a write keeps the canonical form. -/
namespace Sys2Proof.Machine

variable {α : Type}

/-- The keys rise strictly, from `lo` on. -/
def tsorted : Nat → Tab α → Prop
  | _, [] => True
  | lo, (k, _) :: t => lo ≤ k ∧ tsorted (k + 1) t

theorem tsorted_mono {t : Tab α} {a b : Nat} (h : tsorted b t) (hab : a ≤ b) : tsorted a t := by
  cases t with
  | nil => trivial
  | cons e t => exact ⟨Nat.le_trans hab h.1, h.2⟩

theorem tsorted_of_twfFrom [DecidableEq α] {d : α} {t : Tab α} : ∀ {lo : Nat}, twfFrom d lo t = true → tsorted lo t := by
  induction t with
  | nil => exact fun _ => trivial
  | cons e t ih =>
    intro lo h
    simp only [twfFrom, Bool.and_eq_true, decide_eq_true_eq] at h
    exact ⟨h.1.1, ih h.2⟩

theorem tsorted_of_twf [DecidableEq α] {d : α} {t : Tab α} (h : twf d t = true) : tsorted 0 t := tsorted_of_twfFrom h

/-- Below its first key a sorted table lists nothing. -/
theorem tfind_lt {t : Tab α} {lo k : Nat} (h : tsorted lo t) (hk : k < lo) : tfind t k = none := by
  cases t with
  | nil => rfl
  | cons e t =>
    have := h.1
    simp only [tfind]
    rw [if_neg (by omega), if_pos (by omega)]

/-! ### Reading after writing -/

@[simp] theorem tfind_tinsert_same (t : Tab α) (k : Nat) (v : α) : tfind (tinsert t k v) k = some v := by
  induction t with
  | nil => simp [tinsert, tfind]
  | cons e t ih =>
    simp only [tinsert]
    split
    · simp [tfind]
    · split
      · simp [tfind]
      · simp [tfind, *]

theorem tfind_tinsert_ne (t : Tab α) {k k' : Nat} (h : k ≠ k') (v : α) : tfind (tinsert t k' v) k = tfind t k := by
  induction t with
  | nil => simp [tinsert, tfind, h]
  | cons e t ih =>
    simp only [tinsert]
    split
    · subst_vars; simp [tfind, h]
    · split
      · simp only [tfind, h, if_false]
        split
        · rw [if_neg (by omega), if_pos (by omega)]
        · rfl
      · simp only [tfind, ih]

theorem tfind_terase_same {t : Tab α} {lo : Nat} (h : tsorted lo t) (k : Nat) : tfind (terase t k) k = none := by
  induction t generalizing lo with
  | nil => rfl
  | cons e t ih =>
    simp only [terase]
    split
    · exact tfind_lt h.2 (by omega)
    · split
      · simp [tfind, *]
      · simp [tfind, *, ih h.2]

theorem tfind_terase_ne {t : Tab α} {lo : Nat} (h : tsorted lo t) {k k' : Nat} (hk : k ≠ k') :
    tfind (terase t k') k = tfind t k := by
  induction t generalizing lo with
  | nil => rfl
  | cons e t ih =>
    simp only [terase]
    split
    · subst_vars
      simp only [tfind, hk, if_false]
      split
      · exact tfind_lt h.2 (by omega)
      · rfl
    · split
      · rfl
      · simp only [tfind, ih h.2]

/-- What a table reads at the key just written. -/
theorem tget_tput_same [DecidableEq α] {d : α} {t : Tab α} (h : tsorted 0 t) (k : Nat) (v : α) :
    tget d (tput d t k v) k = v := by
  unfold tput tget
  split
  · rw [tfind_terase_same h]; simp [*]
  · simp

/-- A write leaves every other key as it was. -/
theorem tget_tput_ne [DecidableEq α] {d d' : α} {t : Tab α} (h : tsorted 0 t) {k k' : Nat} (hk : k ≠ k') (v : α) :
    tget d' (tput d t k' v) k = tget d' t k := by
  unfold tput tget
  split
  · rw [tfind_terase_ne h hk]
  · rw [tfind_tinsert_ne _ hk]

@[simp] theorem tget_nil {d : α} (k : Nat) : tget d [] k = d := rfl

/-! ### The canonical form -/

theorem tsorted_terase {t : Tab α} (k : Nat) : ∀ {lo : Nat}, tsorted lo t → tsorted lo (terase t k) := by
  induction t with
  | nil => exact fun _ => trivial
  | cons e t ih =>
    intro lo h
    simp only [terase]
    split
    · exact tsorted_mono h.2 (Nat.le_succ_of_le h.1)
    · split
      · exact h
      · exact ⟨h.1, ih h.2⟩

theorem tsorted_tinsert {t : Tab α} (k : Nat) (v : α) : ∀ {lo : Nat}, lo ≤ k → tsorted lo t → tsorted lo (tinsert t k v) := by
  induction t with
  | nil => exact fun hl _ => ⟨hl, trivial⟩
  | cons e t ih =>
    intro lo hl h
    simp only [tinsert]
    split
    · subst_vars; exact ⟨h.1, h.2⟩
    · split
      · exact ⟨hl, by omega, h.2⟩
      · exact ⟨h.1, ih (by omega) h.2⟩

theorem tsorted_tput [DecidableEq α] {d : α} {t : Tab α} (h : tsorted 0 t) (k : Nat) (v : α) : tsorted 0 (tput d t k v) := by
  unfold tput
  split
  · exact tsorted_terase k h
  · exact tsorted_tinsert k v (Nat.zero_le k) h

theorem twfFrom_terase [DecidableEq α] {d : α} {t : Tab α} (k : Nat) :
    ∀ {lo : Nat}, twfFrom d lo t = true → twfFrom d lo (terase t k) = true := by
  induction t with
  | nil => exact fun _ => rfl
  | cons e t ih =>
    intro lo h
    obtain ⟨a, v⟩ := e
    simp only [twfFrom, Bool.and_eq_true, decide_eq_true_eq] at h
    simp only [terase]
    split
    · cases t with
      | nil => rfl
      | cons e t =>
        have h2 := h.2
        simp only [twfFrom, Bool.and_eq_true, decide_eq_true_eq] at h2 ⊢
        exact ⟨⟨by omega, h2.1.2⟩, h2.2⟩
    · split
      · simp only [twfFrom, Bool.and_eq_true, decide_eq_true_eq]; exact h
      · simp only [twfFrom, Bool.and_eq_true, decide_eq_true_eq]; exact ⟨h.1, ih h.2⟩

theorem twfFrom_tinsert [DecidableEq α] {d : α} {t : Tab α} {v : α} (hv : v ≠ d) (k : Nat) :
    ∀ {lo : Nat}, lo ≤ k → twfFrom d lo t = true → twfFrom d lo (tinsert t k v) = true := by
  induction t with
  | nil => intro lo hl _; simp [tinsert, twfFrom, hl, hv]
  | cons e t ih =>
    intro lo hl h
    obtain ⟨a, w⟩ := e
    simp only [twfFrom, Bool.and_eq_true, decide_eq_true_eq] at h
    simp only [tinsert]
    split
    · subst_vars; simp only [twfFrom, Bool.and_eq_true, decide_eq_true_eq]; exact ⟨⟨hl, hv⟩, h.2⟩
    · split
      · simp only [twfFrom, Bool.and_eq_true, decide_eq_true_eq]; exact ⟨⟨hl, hv⟩, ⟨by omega, h.1.2⟩, h.2⟩
      · simp only [twfFrom, Bool.and_eq_true, decide_eq_true_eq]; exact ⟨h.1, ih (by omega) h.2⟩

/-- A write keeps the canonical form. -/
theorem twf_tput [DecidableEq α] {d : α} {t : Tab α} (h : twf d t = true) (k : Nat) (v : α) : twf d (tput d t k v) = true := by
  unfold tput
  split
  · exact twfFrom_terase k h
  · exact twfFrom_tinsert ‹_› k (Nat.zero_le k) h

end Sys2Proof.Machine
end

