-- ==== Sys2Proof/Laws/Kept.lean ====
section
/-! SUPPORT. What every operation of the machine keeps: the queue of commands, the MMU's map, what the block has driven at its
boundary so far, and, of memory, any property that storing one byte keeps. An operation that stores nothing keeps every property of
memory, so it leaves memory as it was. One lemma per operation, `kept_` and its name. -/
namespace Sys2Proof.Machine

/-- The queue is `q`, the MMU's map `u`, what was driven at the boundary ends with `o`, and memory has the property `P`. -/
def Kept (P : List Host.Cell → Prop) (q : List Instr) (u : List MmuRange) (o : List Out) (s : State) : Prop :=
  s.pending = q ∧ s.mmu = u ∧ o <:+ s.out ∧ P s.mem

/-- Storing a byte keeps `P`. -/
class PokeClosed (P : List Host.Cell → Prop) : Prop where
  poke : ∀ (m : List Host.Cell) (a : Nat) (b : Byte), P m → P (tput 0 m a b)

variable {P : List Host.Cell → Prop} {q : List Instr} {u : List MmuRange} {o : List Out}

@[simp] theorem kept_ite {c : Prop} [Decidable c] {a b : State} :
    Kept P q u o (if c then a else b) ↔ (c → Kept P q u o a) ∧ (¬ c → Kept P q u o b) := by split <;> simp [*]

@[simp] theorem kept_mk {s : State} (h : Kept P q u o s) (n r po la fe gs dl sy rs tb li fc st ob sv) :
    Kept P q u o (State.mk s.pending n r s.mem po s.mmu la fe gs dl sy rs tb li fc st ob sv s.out) := h
@[simp] theorem kept_emit {s : State} (h : Kept P q u o s) (x : Out) : Kept P q u o (s.emit x) :=
  ⟨h.1, h.2.1, h.2.2.1.trans (List.suffix_cons _ _), h.2.2.2⟩
theorem kept_foldl {α : Type} (l : List α) (f : State → α → State) (hf : ∀ s x, Kept P q u o s → Kept P q u o (f s x)) :
    ∀ {s : State}, Kept P q u o s → Kept P q u o (l.foldl f s) := by
  induction l with
  | nil => exact fun h => h
  | cons x l ih => exact fun h => ih (hf _ _ h)
@[simp] theorem kept_each {α : Type} {s : State} (l : List α) (f : State → α → State)
    (hf : ∀ s x, Kept P q u o s → Kept P q u o (f s x)) (h : Kept P q u o s) : Kept P q u o (s.each l f) := kept_foldl l f hf h
theorem kept_poke [PokeClosed P] : ∀ (l : List (Nat × Byte)) {m : List Host.Cell}, P m → P (pokes m l)
  | [], _, h => h
  | x :: l, m, h => kept_poke l (PokeClosed.poke m x.1 x.2 h)
theorem kept_writeBytes [PokeClosed P] {s t : State} {sp a : Nat} {bs : List Byte}
    (e : s.writeBytes sp a bs = some t) (h : Kept P q u o s) :
    Kept P q u o t := by
  unfold State.writeBytes at e
  split at e
  · cases e
  · cases e
    exact ⟨h.1, h.2.1, h.2.2.1, kept_poke _ h.2.2.2⟩
@[simp] theorem kept_writeBytes_getD [PokeClosed P] {s : State} (h : Kept P q u o s) {d : State} (hd : Kept P q u o d) (sp a : Nat) (bs : List Byte) :
    Kept P q u o ((s.writeBytes sp a bs).getD d) := by
  cases e : s.writeBytes sp a bs with
  | none => exact hd
  | some t => exact kept_writeBytes e h

theorem kept_iter {f : State → State} (hf : ∀ s, Kept P q u o s → Kept P q u o (f s)) : ∀ (n : Nat) {s : State}, Kept P q u o s → Kept P q u o (iter f n s) := by
  intro n
  induction n with
  | zero => exact fun h => h
  | succ n ih => exact fun h => ih (hf _ h)

@[simp] theorem kept_setReg {s : State} (h : Kept P q u o s) (r : Reg) (v : BitVec 64) : Kept P q u o (State.setReg s r v) := by
  simp +contextual (maxDischargeDepth := 60) [State.setReg, h]

@[simp] theorem kept_report {s : State} (h : Kept P q u o s) (p : Packet) : Kept P q u o (State.report s p) := by
  simp +contextual (maxDischargeDepth := 60) [State.report, h]

@[simp] theorem kept_portEvent {s : State} (h : Kept P q u o s) (k typ reason : Nat) :
    Kept P q u o (State.portEvent s k typ reason) := by
  simp +contextual (maxDischargeDepth := 60) [State.portEvent, h]

@[simp] theorem kept_updPort {s : State} (h : Kept P q u o s) (k : Nat) (f : Port → Port) :
    Kept P q u o (State.updPort s k f) := by
  simp +contextual (maxDischargeDepth := 60) [State.updPort, h]

@[simp] theorem kept_leaveUp {s : State} (h : Kept P q u o s) (k cause : Nat) : Kept P q u o (State.leaveUp s k cause) := by
  simp +contextual (maxDischargeDepth := 60) [State.leaveUp, h]

@[simp] theorem kept_bump {s : State} (h : Kept P q u o s) (r : Reg) (n : Nat) : Kept P q u o (State.bump s r n) := by
  simp +contextual (maxDischargeDepth := 60) [State.bump, h]

@[simp] theorem kept_sliceReject {s : State} (h : Kept P q u o s) (k slice : Nat) :
    Kept P q u o (State.sliceReject s k slice) := by
  simp +contextual (maxDischargeDepth := 60) [State.sliceReject, h]

@[simp] theorem kept_respond {s : State} (h : Kept P q u o s) (p : Parcel) : Kept P q u o (State.respond s p) := by
  (unfold State.respond; repeat' split) <;> simp +contextual (maxDischargeDepth := 60) [*]

@[simp] theorem kept_placeResponses {s : State} (h : Kept P q u o s)  : Kept P q u o (State.placeResponses s) := by
  simp +contextual (maxDischargeDepth := 60) [State.placeResponses, h]

@[simp] theorem kept_toPortState {s : State} (h : Kept P q u o s) (k : Nat) (st : PortState) (cause : Nat) :
    Kept P q u o (State.toPortState s k st cause) := by
  simp +contextual (maxDischargeDepth := 60) [State.toPortState, h]

@[simp] theorem kept_comeUp {s : State} (h : Kept P q u o s) (k : Nat) : Kept P q u o (State.comeUp s k) := by
  simp +contextual (maxDischargeDepth := 60) [State.comeUp, h]

@[simp] theorem kept_orReg {s : State} (h : Kept P q u o s) (r : Reg) (m : BitVec 64) : Kept P q u o (State.orReg s r m) := by
  simp +contextual (maxDischargeDepth := 60) [State.orReg, h]

@[simp] theorem kept_liErr {s : State} (h : Kept P q u o s) (b : Nat) : Kept P q u o (State.liErr s b) := by
  simp +contextual (maxDischargeDepth := 60) [State.liErr, h]

@[simp] theorem kept_acceptPort {s : State} (h : Kept P q u o s) (k : Nat) : Kept P q u o (State.acceptPort s k) := by
  simp +contextual (maxDischargeDepth := 60) [State.acceptPort, h]

@[simp] theorem kept_storeRec {s : State} (h : Kept P q u o s) (r : TraceRec) : Kept P q u o (State.storeRec s r) := by
  simp +contextual (maxDischargeDepth := 60) [State.storeRec, h]

@[simp] theorem kept_disturb {s : State} (h : Kept P q u o s) (b : Nat) : Kept P q u o (State.disturb s b) := by
  simp +contextual (maxDischargeDepth := 60) [State.disturb, h]

@[simp] theorem kept_streamRec {s : State} (h : Kept P q u o s) (r : TraceRec) : Kept P q u o (State.streamRec s r) := by
  simp +contextual (maxDischargeDepth := 60) [State.streamRec, h]

@[simp] theorem kept_fireTrigger {s : State} (h : Kept P q u o s) (src : Nat) : Kept P q u o (State.fireTrigger s src) := by
  simp +contextual (maxDischargeDepth := 60) [State.fireTrigger, h]

@[simp] theorem kept_trigger {s : State} (h : Kept P q u o s) (src : Nat) : Kept P q u o (s.trigger src) := by
  unfold State.trigger
  dsimp only
  split
  · split
    · exact kept_fireTrigger (kept_mk h ..) _
    · exact h
  · exact h

@[simp] theorem kept_postRec {s : State} (h : Kept P q u o s) (r : TraceRec) : Kept P q u o (State.postRec s r) := by
  simp +contextual (maxDischargeDepth := 60) [State.postRec, h]

@[simp] theorem kept_addRec {s : State} (h : Kept P q u o s) (r : TraceRec) : Kept P q u o (State.addRec s r) := by
  simp +contextual (maxDischargeDepth := 60) [State.addRec, h]

@[simp] theorem kept_traceNode {s : State} (h : Kept P q u o s) (typ source k : Nat) (engine : Option Nat) (arg : Nat) :
    Kept P q u o (State.traceNode s typ source k engine arg) := by
  simp +contextual (maxDischargeDepth := 60) [State.traceNode, h]

@[simp] theorem kept_accepted {s : State} (h : Kept P q u o s) (y1 : Nat) (l : Launch) (st : CellStatus) :
    Kept P q u o (State.accepted s y1 l st) := by
  simp +contextual (maxDischargeDepth := 60) [State.accepted, h]

@[simp] theorem kept_accessAbort {s : State} (h : Kept P q u o s) (who : Requester) (bar off size : Nat) (write : Bool) : Kept P q u o (State.accessAbort s who bar off size write) := by
  simp +contextual (maxDischargeDepth := 60) [State.accessAbort, h]

@[simp] theorem kept_updSlot {s : State} (h : Kept P q u o s) (n : Nat) (f : Slot → Slot) :
    Kept P q u o (State.updSlot s n f) := by
  simp +contextual (maxDischargeDepth := 60) [State.updSlot, h]

@[simp] theorem kept_slotErr {s : State} (h : Kept P q u o s) (n b : Nat) : Kept P q u o (State.slotErr s n b) := by
  simp +contextual (maxDischargeDepth := 60) [State.slotErr, h]

@[simp] theorem kept_offerValue {s : State} (h : Kept P q u o s) (n : Nat) (v : BitVec 32) :
    Kept P q u o (State.offerValue s n v) := by
  simp +contextual (maxDischargeDepth := 60) [State.offerValue, h]

@[simp] theorem kept_doorbell {s : State} (h : Kept P q u o s) (n : Nat) (v : BitVec 32) :
    Kept P q u o (State.doorbell s n v) := by
  (unfold State.doorbell; repeat' split) <;> simp +contextual (maxDischargeDepth := 60) [*]

@[simp] theorem kept_setGated {s : State} (h : Kept P q u o s) (y1 : Nat) (b : Bool) :
    Kept P q u o (State.setGated s y1 b) := by
  simp +contextual (maxDischargeDepth := 60) [State.setGated, h]

@[simp] theorem kept_wake {s : State} (h : Kept P q u o s) (y1 : Nat) : Kept P q u o (State.wake s y1) := by
  simp +contextual (maxDischargeDepth := 60) [State.wake, h]

@[simp] theorem kept_accessDoorbell {s : State} (h : Kept P q u o s) (n : Nat) (v : BitVec 32) :
    Kept P q u o (State.accessDoorbell s n v) := by
  simp +contextual (maxDischargeDepth := 60) [State.accessDoorbell, h]

@[simp] theorem kept_setHalves {s : State} (h : Kept P q u o s) (who : Requester) (l : Latch) :
    Kept P q u o (State.setHalves s who l) := by
  simp +contextual (maxDischargeDepth := 60) [State.setHalves, h]

@[simp] theorem kept_inspRead {s : State} (h : Kept P q u o s) (who : Requester) (w j : Nat) :
    Kept P q u o (State.inspRead s who w j).2 := by
  (unfold State.inspRead; repeat' (first
    | simp +contextual (maxDischargeDepth := 60) [*]
    | (refine kept_writeBytes (by assumption) ?_)
    | (refine kept_openAll_eq (by assumption) ?_)
    | (refine kept_fanPassTwo_eq (by assumption) ?_)
    | (refine kept_takeBack_eq (by assumption) ?_)
    | (refine kept_each _ _ ?_ ?_)
    | split
    | intro _
    | dsimp only
    ))
theorem kept_inspRead_eq {s t : State} {who : Requester} {w j : Nat} {x : (BitVec 32)}
    (e : State.inspRead s who w j = (x, t)) (h : Kept P q u o s) : Kept P q u o t := by
  have := kept_inspRead (P := P) (q := q) (u := u) (o := o) h who w j
  rw [e] at this
  exact this

@[simp] theorem kept_readReg {s : State} (h : Kept P q u o s) (who : Requester) (r : Reg) :
    Kept P q u o (State.readReg s who r).2 := by
  (unfold State.readReg; repeat' (first
    | simp +contextual (maxDischargeDepth := 60) [*]
    | (refine kept_writeBytes (by assumption) ?_)
    | (refine kept_openAll_eq (by assumption) ?_)
    | (refine kept_fanPassTwo_eq (by assumption) ?_)
    | (refine kept_takeBack_eq (by assumption) ?_)
    | (refine kept_inspRead_eq (by assumption) ?_)
    | (refine kept_each _ _ ?_ ?_)
    | split
    | intro _
    | dsimp only
    ))
theorem kept_readReg_eq {s t : State} {who : Requester} {r : Reg} {x : (BitVec 64)}
    (e : State.readReg s who r = (x, t)) (h : Kept P q u o s) : Kept P q u o t := by
  have := kept_readReg (P := P) (q := q) (u := u) (o := o) h who r
  rw [e] at this
  exact this

@[simp] theorem kept_readLow {s : State} (h : Kept P q u o s) (who : Requester) (r : Reg) :
    Kept P q u o (State.readLow s who r).2 := by
  simp +contextual (maxDischargeDepth := 60) [State.readLow, h]
theorem kept_readLow_eq {s t : State} {who : Requester} {r : Reg} {x : (BitVec 64)}
    (e : State.readLow s who r = (x, t)) (h : Kept P q u o s) : Kept P q u o t := by
  have := kept_readLow (P := P) (q := q) (u := u) (o := o) h who r
  rw [e] at this
  exact this

@[simp] theorem kept_readHigh {s : State} (h : Kept P q u o s) (who : Requester) (r : Reg) :
    Kept P q u o (State.readHigh s who r).2 := by
  (unfold State.readHigh; repeat' (first
    | simp +contextual (maxDischargeDepth := 60) [*]
    | (refine kept_writeBytes (by assumption) ?_)
    | (refine kept_openAll_eq (by assumption) ?_)
    | (refine kept_fanPassTwo_eq (by assumption) ?_)
    | (refine kept_takeBack_eq (by assumption) ?_)
    | (refine kept_inspRead_eq (by assumption) ?_)
    | (refine kept_readReg_eq (by assumption) ?_)
    | (refine kept_readLow_eq (by assumption) ?_)
    | (refine kept_each _ _ ?_ ?_)
    | split
    | intro _
    | dsimp only
    ))
theorem kept_readHigh_eq {s t : State} {who : Requester} {r : Reg} {x : (BitVec 64)}
    (e : State.readHigh s who r = (x, t)) (h : Kept P q u o s) : Kept P q u o t := by
  have := kept_readHigh (P := P) (q := q) (u := u) (o := o) h who r
  rw [e] at this
  exact this

@[simp] theorem kept_readPart {s : State} (h : Kept P q u o s) (who : Requester) (r : Reg) (y3 : Part32) :
    Kept P q u o (State.readPart s who r y3).2 := by
  (unfold State.readPart; repeat' (first
    | simp +contextual (maxDischargeDepth := 60) [*]
    | (refine kept_writeBytes (by assumption) ?_)
    | (refine kept_openAll_eq (by assumption) ?_)
    | (refine kept_fanPassTwo_eq (by assumption) ?_)
    | (refine kept_takeBack_eq (by assumption) ?_)
    | (refine kept_inspRead_eq (by assumption) ?_)
    | (refine kept_readReg_eq (by assumption) ?_)
    | (refine kept_readLow_eq (by assumption) ?_)
    | (refine kept_readHigh_eq (by assumption) ?_)
    | (refine kept_each _ _ ?_ ?_)
    | split
    | intro _
    | dsimp only
    ))
theorem kept_readPart_eq {s t : State} {who : Requester} {r : Reg} {y3 : Part32} {x : (BitVec 64)}
    (e : State.readPart s who r y3 = (x, t)) (h : Kept P q u o s) : Kept P q u o t := by
  have := kept_readPart (P := P) (q := q) (u := u) (o := o) h who r y3
  rw [e] at this
  exact this

@[simp] theorem kept_wakeFor {s : State} (h : Kept P q u o s) (r : Reg) : Kept P q u o (State.wakeFor s r) := by
  (unfold State.wakeFor; repeat' split) <;> simp +contextual (maxDischargeDepth := 60) [*]

theorem kept_readPage {s t : State} {who : Requester} {off : Nat} {wide : Bool} {x : BitVec 64}
    (e : State.readPage s who off wide = some (x, t)) (h : Kept P q u o s) : Kept P q u o t := by
  (unfold State.readPage at e; repeat' (first
    | (cases e; simp +contextual (maxDischargeDepth := 60) [*]; done)
    | (refine kept_writeBytes (by assumption) ?_)
    | (refine kept_openAll_eq (by assumption) ?_)
    | (refine kept_fanPassTwo_eq (by assumption) ?_)
    | (refine kept_takeBack_eq (by assumption) ?_)
    | (refine kept_inspRead_eq (by assumption) ?_)
    | (refine kept_readReg_eq (by assumption) ?_)
    | (refine kept_readLow_eq (by assumption) ?_)
    | (refine kept_readHigh_eq (by assumption) ?_)
    | (refine kept_readPart_eq (by assumption) ?_)
    | split at e
    | cases e
    | dsimp only at e))

theorem kept_readData {s t : State} {who : Requester} {off : Nat} {wide : Bool} {x : BitVec 64}
    (e : s.readData who off wide = some (x, t)) (h : Kept P q u o s) : Kept P q u o t := by
  unfold State.readData at e
  split at e
  · exact kept_readPage e h
  split at e
  · cases e
  · split at e
    · cases e
    · rename_i r p _ _
      have := kept_readPart (kept_wakeFor h r) who r p
      rw [Option.some.inj e] at this
      exact this

@[simp] theorem kept_accessRead {s : State} (h : Kept P q u o s) (who : Requester) (off : Nat) (wide : Bool) :
    Kept P q u o (s.accessRead who off wide) := by
  unfold State.accessRead
  split
  · simp +contextual (maxDischargeDepth := 60) [h]
  · exact kept_emit (kept_readData ‹_› h) _

@[simp] theorem kept_writeLow {s : State} (h : Kept P q u o s) (who : Requester) (r : Reg) (v : BitVec 32) :
    Kept P q u o (State.writeLow s who r v) := by
  simp +contextual (maxDischargeDepth := 60) [State.writeLow, h]

@[simp] theorem kept_obErr {s : State} (h : Kept P q u o s) (b : Nat) : Kept P q u o (State.obErr s b) := by
  simp +contextual (maxDischargeDepth := 60) [State.obErr, h]

@[simp] theorem kept_trcErr {s : State} (h : Kept P q u o s)  : Kept P q u o (State.trcErr s) := by
  simp +contextual (maxDischargeDepth := 60) [State.trcErr, h]

@[simp] theorem kept_plainWrite {s : State} (h : Kept P q u o s) (r : Reg) (v : BitVec 64) :
    Kept P q u o (State.plainWrite s r v) := by
  simp +contextual (maxDischargeDepth := 60) [State.plainWrite, h]

@[simp] theorem kept_writeTrcRingRd {s : State} (h : Kept P q u o s) (v : BitVec 64) :
    Kept P q u o (State.writeTrcRingRd s v) := by
  simp +contextual (maxDischargeDepth := 60) [State.writeTrcRingRd, h]

@[simp] theorem kept_latchZero {s : State} (h : Kept P q u o s) (n : Nat) : Kept P q u o (State.latchZero s n) := by
  simp +contextual (maxDischargeDepth := 60) [State.latchZero, h]

@[simp] theorem kept_writeLatchBase {s : State} (h : Kept P q u o s) (n : Nat) (v : BitVec 64) :
    Kept P q u o (State.writeLatchBase s n v) := by
  simp +contextual (maxDischargeDepth := 60) [State.writeLatchBase, h]

@[simp] theorem kept_syErr {s : State} (h : Kept P q u o s) (b : Nat) : Kept P q u o (State.syErr s b) := by
  simp +contextual (maxDischargeDepth := 60) [State.syErr, h]

@[simp] theorem kept_writeXlatLimit {s : State} (h : Kept P q u o s) (c : Nat) (v : BitVec 64) :
    Kept P q u o (State.writeXlatLimit s c v) := by
  simp +contextual (maxDischargeDepth := 60) [State.writeXlatLimit, h]

@[simp] theorem kept_svErr {s : State} (h : Kept P q u o s) (b : Nat) : Kept P q u o (State.svErr s b) := by
  simp +contextual (maxDischargeDepth := 60) [State.svErr, h]

@[simp] theorem kept_updCore {s : State} (h : Kept P q u o s) (k : Nat) (f : Core → Core) :
    Kept P q u o (State.updCore s k f) := by
  simp +contextual (maxDischargeDepth := 60) [State.updCore, h]

@[simp] theorem kept_resetCore {s : State} (h : Kept P q u o s) (k st : Nat) : Kept P q u o (State.resetCore s k st) := by
  simp +contextual (maxDischargeDepth := 60) [State.resetCore, h]

@[simp] theorem kept_writeFwCtrl {s : State} (h : Kept P q u o s) (k : Nat) (v : BitVec 64) :
    Kept P q u o (State.writeFwCtrl s k v) := by
  simp +contextual (maxDischargeDepth := 60) [State.writeFwCtrl, h]

@[simp] theorem kept_writeInspSel {s : State} (h : Kept P q u o s) (who : Requester) (i : Nat) (v : BitVec 64) :
    Kept P q u o (State.writeInspSel s who i v) := by
  simp +contextual (maxDischargeDepth := 60) [State.writeInspSel, h]

@[simp] theorem kept_writeRoute {s : State} (h : Kept P q u o s) (v : BitVec 64) : Kept P q u o (State.writeRoute s v) := by
  simp +contextual (maxDischargeDepth := 60) [State.writeRoute, h]

@[simp] theorem kept_captureView {s : State} (h : Kept P q u o s)  : Kept P q u o (State.captureView s) := by
  simp +contextual (maxDischargeDepth := 60) [State.captureView, h]

@[simp] theorem kept_selectObj {s : State} (h : Kept P q u o s) (v : BitVec 64) : Kept P q u o (State.selectObj s v) := by
  simp +contextual (maxDischargeDepth := 60) [State.selectObj, h]

@[simp] theorem kept_slotConfigErr {s : State} (h : Kept P q u o s) (n : Nat) : Kept P q u o (State.slotConfigErr s n) := by
  simp +contextual (maxDischargeDepth := 60) [State.slotConfigErr, h]

@[simp] theorem kept_writeFixed {s : State} (h : Kept P q u o s) (r : Reg) (v : BitVec 64) :
    Kept P q u o (State.writeFixed s r v) := by
  simp +contextual (maxDischargeDepth := 60) [State.writeFixed, h]

@[simp] theorem kept_podErr {s : State} (h : Kept P q u o s) (p b : Nat) : Kept P q u o (State.podErr s p b) := by
  simp +contextual (maxDischargeDepth := 60) [State.podErr, h]

@[simp] theorem kept_writePodDeal {s : State} (h : Kept P q u o s) (p : Nat) (v : BitVec 64) :
    Kept P q u o (State.writePodDeal s p v) := by
  simp +contextual (maxDischargeDepth := 60) [State.writePodDeal, h]

@[simp] theorem kept_updCtx {s : State} (h : Kept P q u o s) (c : Nat) (f : Ctx → Ctx) : Kept P q u o (State.updCtx s c f) := by
  simp +contextual (maxDischargeDepth := 60) [State.updCtx, h]

@[simp] theorem kept_stopFan {s : State} (h : Kept P q u o s) (k : Nat) : Kept P q u o (State.stopFan s k) := by
  simp +contextual (maxDischargeDepth := 60) [State.stopFan, h]

@[simp] theorem kept_setNode {s : State} (h : Kept P q u o s) (k : Nat) (n : Node) : Kept P q u o (State.setNode s k n) := by
  simp +contextual (maxDischargeDepth := 60) [State.setNode, h]

@[simp] theorem kept_updNode {s : State} (h : Kept P q u o s) (k : Nat) (f : Node → Node) :
    Kept P q u o (State.updNode s k f) := by
  simp +contextual (maxDischargeDepth := 60) [State.updNode, h]

@[simp] theorem kept_updEng {s : State} (h : Kept P q u o s) (y1 : Nat) (f : Engine → Engine) :
    Kept P q u o (State.updEng s y1 f) := by
  simp +contextual (maxDischargeDepth := 60) [State.updEng, h]

@[simp] theorem kept_grantTurns {s : State} (h : Kept P q u o s) (k : Nat) : Kept P q u o (State.grantTurns s k) := by
  (unfold State.grantTurns; repeat' (first
    | simp +contextual (maxDischargeDepth := 60) [*]
    | (refine kept_writeBytes (by assumption) ?_)
    | (refine kept_openAll_eq (by assumption) ?_)
    | (refine kept_fanPassTwo_eq (by assumption) ?_)
    | (refine kept_takeBack_eq (by assumption) ?_)
    | (refine kept_inspRead_eq (by assumption) ?_)
    | (refine kept_readReg_eq (by assumption) ?_)
    | (refine kept_readLow_eq (by assumption) ?_)
    | (refine kept_readHigh_eq (by assumption) ?_)
    | (refine kept_readPart_eq (by assumption) ?_)
    | (refine kept_readPage (by assumption) ?_)
    | (refine kept_readData (by assumption) ?_)
    | (refine kept_each _ _ ?_ ?_)
    | split
    | intro _
    | dsimp only
    ))

@[simp] theorem kept_passPanels {s : State} (h : Kept P q u o s) (k : Nat) (ps : List Nat) :
    Kept P q u o (State.passPanels s k ps) := by
  simp +contextual (maxDischargeDepth := 60) [State.passPanels, h]

@[simp] theorem kept_dropPanels {s : State} (h : Kept P q u o s) (k : Nat) : Kept P q u o (State.dropPanels s k) := by
  simp +contextual (maxDischargeDepth := 60) [State.dropPanels, h]

@[simp] theorem kept_setCmd {s : State} (h : Kept P q u o s) (n seq : Nat) (c : Cmd) :
    Kept P q u o (State.setCmd s n seq c) := by
  simp +contextual (maxDischargeDepth := 60) [State.setCmd, h]

@[simp] theorem kept_updCmd {s : State} (h : Kept P q u o s) (n seq : Nat) (f : Cmd → Cmd) :
    Kept P q u o (State.updCmd s n seq f) := by
  (unfold State.updCmd; repeat' split) <;> simp +contextual (maxDischargeDepth := 60) [*]

@[simp] theorem kept_updCmdOf {s : State} (h : Kept P q u o s) (k : Nat) (f : Cmd → Cmd) :
    Kept P q u o (State.updCmdOf s k f) := by
  (unfold State.updCmdOf; repeat' split) <;> simp +contextual (maxDischargeDepth := 60) [*]

@[simp] theorem kept_freeRecords {s : State} (h : Kept P q u o s) (k : Nat) : Kept P q u o (State.freeRecords s k) := by
  simp +contextual (maxDischargeDepth := 60) [State.freeRecords, h]

@[simp] theorem kept_unplace {s : State} (h : Kept P q u o s) (k : Nat) : Kept P q u o (State.unplace s k) := by
  simp +contextual (maxDischargeDepth := 60) [State.unplace, h]

@[simp] theorem kept_setFolded {s : State} (h : Kept P q u o s) (k : Nat) : Kept P q u o (State.setFolded s k) := by
  simp +contextual (maxDischargeDepth := 60) [State.setFolded, h]

@[simp] theorem kept_foldNode {s : State} (h : Kept P q u o s) (k : Nat) : Kept P q u o (State.foldNode s k) := by
  (unfold State.foldNode; repeat' (first
    | simp +contextual (maxDischargeDepth := 60) [*]
    | (refine kept_writeBytes (by assumption) ?_)
    | (refine kept_openAll_eq (by assumption) ?_)
    | (refine kept_fanPassTwo_eq (by assumption) ?_)
    | (refine kept_takeBack_eq (by assumption) ?_)
    | (refine kept_inspRead_eq (by assumption) ?_)
    | (refine kept_readReg_eq (by assumption) ?_)
    | (refine kept_readLow_eq (by assumption) ?_)
    | (refine kept_readHigh_eq (by assumption) ?_)
    | (refine kept_readPart_eq (by assumption) ?_)
    | (refine kept_readPage (by assumption) ?_)
    | (refine kept_readData (by assumption) ?_)
    | (refine kept_each _ _ ?_ ?_)
    | split
    | intro _
    | dsimp only
    ))

@[simp] theorem kept_foldLoop {s : State} (h : Kept P q u o s) (k : Nat) : Kept P q u o (State.foldLoop s k) := by
  simp +contextual (maxDischargeDepth := 60) [State.foldLoop, h]

@[simp] theorem kept_updRos {s : State} (h : Kept P q u o s) (k : Nat) (f : Ros → Ros) : Kept P q u o (State.updRos s k f) := by
  simp +contextual (maxDischargeDepth := 60) [State.updRos, h]

@[simp] theorem kept_updLanding {s : State} (h : Kept P q u o s) (l : Nat) (f : Landing → Landing) :
    Kept P q u o (State.updLanding s l f) := by
  simp +contextual (maxDischargeDepth := 60) [State.updLanding, h]

@[simp] theorem kept_revoke {s : State} (h : Kept P q u o s) (l : Nat) : Kept P q u o (State.revoke s l) := by
  simp +contextual (maxDischargeDepth := 60) [State.revoke, h]

@[simp] theorem kept_dropTrick {s : State} (h : Kept P q u o s) (r : Nat) : Kept P q u o (State.dropTrick s r) := by
  (unfold State.dropTrick; repeat' split) <;> simp +contextual (maxDischargeDepth := 60) [*]

@[simp] theorem kept_foldOne {s : State} (h : Kept P q u o s) (k : Nat) : Kept P q u o (State.foldOne s k) := by
  (unfold State.foldOne; repeat' split) <;> simp +contextual (maxDischargeDepth := 60) [*]

@[simp] theorem kept_foldTrickNow {s : State} (h : Kept P q u o s) (k : Nat) : Kept P q u o (State.foldTrickNow s k) := by
  (unfold State.foldTrickNow; repeat' split) <;> simp +contextual (maxDischargeDepth := 60) [*]

@[simp] theorem kept_wakeRoster {s : State} (h : Kept P q u o s) (k : Nat) : Kept P q u o (State.wakeRoster s k) := by
  simp +contextual (maxDischargeDepth := 60) [State.wakeRoster, h]

@[simp] theorem kept_roErr {s : State} (h : Kept P q u o s) (k b : Nat) : Kept P q u o (State.roErr s k b) := by
  simp +contextual (maxDischargeDepth := 60) [State.roErr, h]

@[simp] theorem kept_roRings {s : State} (h : Kept P q u o s) (k : Nat) : Kept P q u o (State.roRings s k) := by
  simp +contextual (maxDischargeDepth := 60) [State.roRings, h]

@[simp] theorem kept_writeRoCtrl {s : State} (h : Kept P q u o s) (k : Nat) (v : BitVec 64) :
    Kept P q u o (State.writeRoCtrl s k v) := by
  simp +contextual (maxDischargeDepth := 60) [State.writeRoCtrl, h]

@[simp] theorem kept_setObj {s : State} (h : Kept P q u o s) (k : Nat) (y2 : SyncObj) : Kept P q u o (State.setObj s k y2) := by
  simp +contextual (maxDischargeDepth := 60) [State.setObj, h]

@[simp] theorem kept_updObj {s : State} (h : Kept P q u o s) (k : Nat) (f : SyncObj → SyncObj) :
    Kept P q u o (State.updObj s k f) := by
  simp +contextual (maxDischargeDepth := 60) [State.updObj, h]

@[simp] theorem kept_freeObj {s : State} (h : Kept P q u o s)  : Kept P q u o (State.freeObj s) := by
  simp +contextual (maxDischargeDepth := 60) [State.freeObj, h]

@[simp] theorem kept_resumeCmd {s : State} (h : Kept P q u o s)  : Kept P q u o (State.resumeCmd s) := by
  (unfold State.resumeCmd; repeat' split) <;> simp +contextual (maxDischargeDepth := 60) [*]

@[simp] theorem kept_stopTaken {s : State} (h : Kept P q u o s) (st : StopState) : Kept P q u o (State.stopTaken s st) := by
  simp +contextual (maxDischargeDepth := 60) [State.stopTaken, h]

@[simp] theorem kept_cutMade {s : State} (h : Kept P q u o s) (st : StopState) : Kept P q u o (State.cutMade s st) := by
  simp +contextual (maxDischargeDepth := 60) [State.cutMade, h]

@[simp] theorem kept_freezeCmd {s : State} (h : Kept P q u o s)  : Kept P q u o (State.freezeCmd s) := by
  (unfold State.freezeCmd; repeat' split) <;> simp +contextual (maxDischargeDepth := 60) [*]

@[simp] theorem kept_quiesceCmd {s : State} (h : Kept P q u o s)  : Kept P q u o (State.quiesceCmd s) := by
  (unfold State.quiesceCmd; repeat' split) <;> simp +contextual (maxDischargeDepth := 60) [*]

@[simp] theorem kept_msixNow {s : State} (h : Kept P q u o s) (v : Nat) : Kept P q u o (State.msixNow s v) := by
  simp +contextual (maxDischargeDepth := 60) [State.msixNow, h]

@[simp] theorem kept_vector {s : State} (h : Kept P q u o s) (v : Nat) : Kept P q u o (State.vector s v) := by
  simp +contextual (maxDischargeDepth := 60) [State.vector, h]

@[simp] theorem kept_cutCheck {s : State} (h : Kept P q u o s)  : Kept P q u o (State.cutCheck s) := by
  simp +contextual (maxDischargeDepth := 60) [State.cutCheck, h]

@[simp] theorem kept_sendMarker {s : State} (h : Kept P q u o s) (k id : Nat) : Kept P q u o (State.sendMarker s k id) := by
  simp +contextual (maxDischargeDepth := 60) [State.sendMarker, h]

@[simp] theorem kept_takeSnap {s : State} (h : Kept P q u o s) (id : Nat) (mk : Option Nat) :
    Kept P q u o (State.takeSnap s id mk) := by
  simp +contextual (maxDischargeDepth := 60) [State.takeSnap, h]

@[simp] theorem kept_snapCmd {s : State} (h : Kept P q u o s)  : Kept P q u o (State.snapCmd s) := by
  simp +contextual (maxDischargeDepth := 60) [State.snapCmd, h]

@[simp] theorem kept_writeStop {s : State} (h : Kept P q u o s) (v : BitVec 64) : Kept P q u o (State.writeStop s v) := by
  (unfold State.writeStop; repeat' split) <;> simp +contextual (maxDischargeDepth := 60) [*]

@[simp] theorem kept_gsErr {s : State} (h : Kept P q u o s) (b : Nat) : Kept P q u o (State.gsErr s b) := by
  simp +contextual (maxDischargeDepth := 60) [State.gsErr, h]

@[simp] theorem kept_writeDyn {s : State} (h : Kept P q u o s) (c : Nat) (v : BitVec 64) :
    Kept P q u o (State.writeDyn s c v) := by
  simp +contextual (maxDischargeDepth := 60) [State.writeDyn, h]

@[simp] theorem kept_writeTrcNode {s : State} (h : Kept P q u o s) (v : BitVec 64) : Kept P q u o (State.writeTrcNode s v) := by
  simp +contextual (maxDischargeDepth := 60) [State.writeTrcNode, h]

@[simp] theorem kept_tsuErr {s : State} (h : Kept P q u o s) (b : Nat) : Kept P q u o (State.tsuErr s b) := by
  simp +contextual (maxDischargeDepth := 60) [State.tsuErr, h]

@[simp] theorem kept_setFld {s : State} (h : Kept P q u o s) (r : Reg) (lo w f : Nat) :
    Kept P q u o (State.setFld s r lo w f) := by
  simp +contextual (maxDischargeDepth := 60) [State.setFld, h]

@[simp] theorem kept_updDealer {s : State} (h : Kept P q u o s) (r : Nat) (f : Dealer → Dealer) :
    Kept P q u o (State.updDealer s r f) := by
  simp +contextual (maxDischargeDepth := 60) [State.updDealer, h]

@[simp] theorem kept_align {s : State} (h : Kept P q u o s) (rs : List Nat) : Kept P q u o (State.align s rs) := by
  simp +contextual (maxDischargeDepth := 60) [State.align, h]

@[simp] theorem kept_modeAlign {s : State} (h : Kept P q u o s)  : Kept P q u o (State.modeAlign s) := by
  simp +contextual (maxDischargeDepth := 60) [State.modeAlign, h]

@[simp] theorem kept_lockstepRestart {s : State} (h : Kept P q u o s)  : Kept P q u o (State.lockstepRestart s) := by
  simp +contextual (maxDischargeDepth := 60) [State.lockstepRestart, h]

@[simp] theorem kept_writeMode {s : State} (h : Kept P q u o s) (v : BitVec 64) : Kept P q u o (State.writeMode s v) := by
  simp +contextual (maxDischargeDepth := 60) [State.writeMode, h]

@[simp] theorem kept_writeTrcPort {s : State} (h : Kept P q u o s) (v : BitVec 64) : Kept P q u o (State.writeTrcPort s v) := by
  simp +contextual (maxDischargeDepth := 60) [State.writeTrcPort, h]

@[simp] theorem kept_writeSpiCtrl {s : State} (h : Kept P q u o s) (v : BitVec 64) : Kept P q u o (State.writeSpiCtrl s v) := by
  simp +contextual (maxDischargeDepth := 60) [State.writeSpiCtrl, h]

@[simp] theorem kept_writeWdog {s : State} (h : Kept P q u o s) (who : Requester) (k : Nat) :
    Kept P q u o (State.writeWdog s who k) := by
  simp +contextual (maxDischargeDepth := 60) [State.writeWdog, h]

@[simp] theorem kept_rqFlag {s : State} (h : Kept P q u o s) (b : Nat) : Kept P q u o (State.rqFlag s b) := by
  simp +contextual (maxDischargeDepth := 60) [State.rqFlag, h]

@[simp] theorem kept_writeRqTail {s : State} (h : Kept P q u o s) (v : BitVec 64) : Kept P q u o (State.writeRqTail s v) := by
  simp +contextual (maxDischargeDepth := 60) [State.writeRqTail, h]

@[simp] theorem kept_writeCtxCfg {s : State} (h : Kept P q u o s) (c : Nat) (v : BitVec 64) :
    Kept P q u o (State.writeCtxCfg s c v) := by
  simp +contextual (maxDischargeDepth := 60) [State.writeCtxCfg, h]

@[simp] theorem kept_writeCtxPod {s : State} (h : Kept P q u o s) (c : Nat) (v : BitVec 64) :
    Kept P q u o (State.writeCtxPod s c v) := by
  simp +contextual (maxDischargeDepth := 60) [State.writeCtxPod, h]

@[simp] theorem kept_trcRingZero {s : State} (h : Kept P q u o s)  : Kept P q u o (State.trcRingZero s) := by
  simp +contextual (maxDischargeDepth := 60) [State.trcRingZero, h]

@[simp] theorem kept_writeTrcRingBase {s : State} (h : Kept P q u o s) (v : BitVec 64) :
    Kept P q u o (State.writeTrcRingBase s v) := by
  simp +contextual (maxDischargeDepth := 60) [State.writeTrcRingBase, h]

@[simp] theorem kept_writeUart {s : State} (h : Kept P q u o s) (v : BitVec 64) : Kept P q u o (State.writeUart s v) := by
  simp +contextual (maxDischargeDepth := 60) [State.writeUart, h]

@[simp] theorem kept_writeDraoft {s : State} (h : Kept P q u o s) (who : Requester) (v : BitVec 64) :
    Kept P q u o (State.writeDraoft s who v) := by
  simp +contextual (maxDischargeDepth := 60) [State.writeDraoft, h]

@[simp] theorem kept_writeObjStatus {s : State} (h : Kept P q u o s) (v : BitVec 64) :
    Kept P q u o (State.writeObjStatus s v) := by
  simp +contextual (maxDischargeDepth := 60) [State.writeObjStatus, h]

@[simp] theorem kept_updPod {s : State} (h : Kept P q u o s) (p : Nat) (f : Pod → Pod) : Kept P q u o (State.updPod s p f) := by
  simp +contextual (maxDischargeDepth := 60) [State.updPod, h]

@[simp] theorem kept_unblock {s : State} (h : Kept P q u o s) (c : Nat) : Kept P q u o (State.unblock s c) := by
  simp +contextual (maxDischargeDepth := 60) [State.unblock, h]

@[simp] theorem kept_unblockOf {s : State} (h : Kept P q u o s) (y1 : Nat) : Kept P q u o (State.unblockOf s y1) := by
  (unfold State.unblockOf; repeat' split) <;> simp +contextual (maxDischargeDepth := 60) [*]

@[simp] theorem kept_closeWatch {s : State} (h : Kept P q u o s) (y1 : Nat) : Kept P q u o (State.closeWatch s y1) := by
  (unfold State.closeWatch; repeat' (first
    | simp +contextual (maxDischargeDepth := 60) [*]
    | (refine kept_writeBytes (by assumption) ?_)
    | (refine kept_openAll_eq (by assumption) ?_)
    | (refine kept_fanPassTwo_eq (by assumption) ?_)
    | (refine kept_takeBack_eq (by assumption) ?_)
    | (refine kept_inspRead_eq (by assumption) ?_)
    | (refine kept_readReg_eq (by assumption) ?_)
    | (refine kept_readLow_eq (by assumption) ?_)
    | (refine kept_readHigh_eq (by assumption) ?_)
    | (refine kept_readPart_eq (by assumption) ?_)
    | (refine kept_readPage (by assumption) ?_)
    | (refine kept_readData (by assumption) ?_)
    | (refine kept_each _ _ ?_ ?_)
    | split
    | intro _
    | dsimp only
    ))

@[simp] theorem kept_dropSusp {s : State} (h : Kept P q u o s) (y1 : Nat) : Kept P q u o (State.dropSusp s y1) := by
  (unfold State.dropSusp; repeat' split) <;> simp +contextual (maxDischargeDepth := 60) [*]

@[simp] theorem kept_drain {s : State} (h : Kept P q u o s) (y1 : Nat) : Kept P q u o (State.drain s y1) := by
  simp +contextual (maxDischargeDepth := 60) [State.drain, h]

@[simp] theorem kept_endNode {s : State} (h : Kept P q u o s) (k : Nat) : Kept P q u o (s.endNode k) := by
  unfold State.endNode
  extract_lets +onlyGivenNames n s1
  have h1 : Kept P q u o s1 := by simp +contextual (maxDischargeDepth := 60) [s1, h]
  clear_value s1
  split
  · simp +contextual (maxDischargeDepth := 60) [h1]
  · simp +contextual (maxDischargeDepth := 60) [h1]
  · simp +contextual (maxDischargeDepth := 60) [h1]
  iterate 2
    split
    · extract_lets src s2 s3 s4 s5
      have h2 : Kept P q u o s2 := by simp +contextual (maxDischargeDepth := 60) [s2, h1]
      clear_value s2
      have h3 : Kept P q u o s3 := by simp only [s3]; split <;> simp +contextual (maxDischargeDepth := 60) [h2]
      clear_value s3
      simp +contextual (maxDischargeDepth := 60) [s4, s5, h3]
    · split
      · simp +contextual (maxDischargeDepth := 60) [h1]
      · extract_lets s2 run left s3 s4 s5
        have h2 : Kept P q u o s2 := by simp only [s2]; split <;> simp +contextual (maxDischargeDepth := 60) [h1]
        clear_value s2
        have h3 : Kept P q u o s3 := by simp only [s3]; split <;> simp +contextual (maxDischargeDepth := 60) [h2]
        clear_value s3
        have h4 : Kept P q u o s4 := by simp +contextual (maxDischargeDepth := 60) [s4, h3]
        clear_value s4
        have h5 : Kept P q u o s5 := by simp only [s5]; split <;> simp +contextual (maxDischargeDepth := 60) [h3, h4]
        clear_value s5
        split <;> simp +contextual (maxDischargeDepth := 60) [h5]
  · split <;> simp +contextual (maxDischargeDepth := 60) [h1]
  iterate 2
    · refine kept_each _ _ (fun _ _ h => by simp +contextual (maxDischargeDepth := 60) [h]) ?_
      split <;> simp +contextual (maxDischargeDepth := 60) [h1]
  all_goals exact h1

@[simp] theorem kept_endNodes {s : State} (h : Kept P q u o s) (ks : List Nat) : Kept P q u o (State.endNodes s ks) := by
  simp +contextual (maxDischargeDepth := 60) [State.endNodes, h]

@[simp] theorem kept_teardownStart {s : State} (h : Kept P q u o s) (c status cause : Nat) :
    Kept P q u o (State.teardownStart s c status cause) := by
  simp +contextual (maxDischargeDepth := 60) [State.teardownStart, h]

@[simp] theorem kept_pinEvent {s : State} (h : Kept P q u o s) (b : Nat) : Kept P q u o (State.pinEvent s b) := by
  simp +contextual (maxDischargeDepth := 60) [State.pinEvent, h]

@[simp] theorem kept_ctxFault {s : State} (h : Kept P q u o s) (c : Nat) (f : FaultRec) (src : Nat) :
    Kept P q u o (State.ctxFault s c f src) := by
  (unfold State.ctxFault; repeat' split) <;> simp +contextual (maxDischargeDepth := 60) [*]

@[simp] theorem kept_driverTeardown {s : State} (h : Kept P q u o s) (v : BitVec 64) :
    Kept P q u o (State.driverTeardown s v) := by
  simp +contextual (maxDischargeDepth := 60) [State.driverTeardown, h]

@[simp] theorem kept_writeIdentity {s : State} (h : Kept P q u o s) (r : Reg) (v : BitVec 64) :
    Kept P q u o (State.writeIdentity s r v) := by
  simp +contextual (maxDischargeDepth := 60) [State.writeIdentity, h]

@[simp] theorem kept_judgeAgain {s : State} (h : Kept P q u o s) (k : Nat) : Kept P q u o (State.judgeAgain s k) := by
  (unfold State.judgeAgain; repeat' split) <;> simp +contextual (maxDischargeDepth := 60) [*]

@[simp] theorem kept_writeLiRev {s : State} (h : Kept P q u o s) (v : BitVec 64) : Kept P q u o (State.writeLiRev s v) := by
  simp +contextual (maxDischargeDepth := 60) [State.writeLiRev, h]

@[simp] theorem kept_writeExpect {s : State} (h : Kept P q u o s) (k : Nat) (v : BitVec 64) :
    Kept P q u o (State.writeExpect s k v) := by
  simp +contextual (maxDischargeDepth := 60) [State.writeExpect, h]

@[simp] theorem kept_writeTrcRingShift {s : State} (h : Kept P q u o s) (v : BitVec 64) :
    Kept P q u o (State.writeTrcRingShift s v) := by
  simp +contextual (maxDischargeDepth := 60) [State.writeTrcRingShift, h]

@[simp] theorem kept_writeTrcTrig {s : State} (h : Kept P q u o s) (v : BitVec 64) : Kept P q u o (State.writeTrcTrig s v) := by
  simp +contextual (maxDischargeDepth := 60) [State.writeTrcTrig, h]

@[simp] theorem kept_endCmd {s : State} (h : Kept P q u o s) (n seq : Nat) (status cause : Nat) :
    Kept P q u o (State.endCmd s n seq status cause) := by
  simp +contextual (maxDischargeDepth := 60) [State.endCmd, h]

@[simp] theorem kept_destroySlot {s : State} (h : Kept P q u o s) (n : Nat) : Kept P q u o (State.destroySlot s n) := by
  (unfold State.destroySlot; repeat' split) <;> simp +contextual (maxDischargeDepth := 60) [*]

@[simp] theorem kept_restartSlot {s : State} (h : Kept P q u o s) (n : Nat) (skip : Bool) :
    Kept P q u o (State.restartSlot s n skip) := by
  simp +contextual (maxDischargeDepth := 60) [State.restartSlot, h]

@[simp] theorem kept_writeSlotCtrl {s : State} (h : Kept P q u o s) (n : Nat) (v : BitVec 64) :
    Kept P q u o (State.writeSlotCtrl s n v) := by
  simp +contextual (maxDischargeDepth := 60) [State.writeSlotCtrl, h]

@[simp] theorem kept_regate {s : State} (h : Kept P q u o s)  : Kept P q u o (State.regate s) := by
  simp +contextual (maxDischargeDepth := 60) [State.regate, h]

@[simp] theorem kept_writeClken {s : State} (h : Kept P q u o s) (v : BitVec 64) : Kept P q u o (State.writeClken s v) := by
  simp +contextual (maxDischargeDepth := 60) [State.writeClken, h]

@[simp] theorem kept_loadStaging {s : State} (h : Kept P q u o s) (d : RegName) (i n : Nat) (sub : Bool) (ws : List (BitVec 32)) : Kept P q u o (State.loadStaging s d i n sub ws) := by
  simp +contextual (maxDischargeDepth := 60) [State.loadStaging, h]

@[simp] theorem kept_writeRelSel {s : State} (h : Kept P q u o s) (v : BitVec 64) : Kept P q u o (State.writeRelSel s v) := by
  simp +contextual (maxDischargeDepth := 60) [State.writeRelSel, h]

@[simp] theorem kept_writeObjRange {s : State} (h : Kept P q u o s) (r : Reg) (tally : Bool) (v : BitVec 64) :
    Kept P q u o (State.writeObjRange s r tally v) := by
  simp +contextual (maxDischargeDepth := 60) [State.writeObjRange, h]

@[simp] theorem kept_writeRo {s : State} (h : Kept P q u o s) (r : Reg) (v : BitVec 64) (live ok : Bool) :
    Kept P q u o (State.writeRo s r v live ok) := by
  simp +contextual (maxDischargeDepth := 60) [State.writeRo, h]

@[simp] theorem kept_writePodSlice {s : State} (h : Kept P q u o s) (p : Nat) (v : BitVec 64) :
    Kept P q u o (State.writePodSlice s p v) := by
  simp +contextual (maxDischargeDepth := 60) [State.writePodSlice, h]

@[simp] theorem kept_setRqWr {s : State} (h : Kept P q u o s) (v : Nat) : Kept P q u o (State.setRqWr s v) := by
  simp +contextual (maxDischargeDepth := 60) [State.setRqWr, h]

@[simp] theorem kept_setRqRd {s : State} (h : Kept P q u o s) (v : Nat) : Kept P q u o (State.setRqRd s v) := by
  simp +contextual (maxDischargeDepth := 60) [State.setRqRd, h]

@[simp] theorem kept_clearRq {s : State} (h : Kept P q u o s)  : Kept P q u o (State.clearRq s) := by
  simp +contextual (maxDischargeDepth := 60) [State.clearRq, h]

@[simp] theorem kept_rqReset {s : State} (h : Kept P q u o s)  : Kept P q u o (State.rqReset s) := by
  simp +contextual (maxDischargeDepth := 60) [State.rqReset, h]

@[simp] theorem kept_highFlag {s : State} (h : Kept P q u o s)  : Kept P q u o (State.highFlag s) := by
  simp +contextual (maxDischargeDepth := 60) [State.highFlag, h]

@[simp] theorem kept_highCheck {s : State} (h : Kept P q u o s)  : Kept P q u o (State.highCheck s) := by
  simp +contextual (maxDischargeDepth := 60) [State.highCheck, h]

@[simp] theorem kept_writeRqCfg {s : State} (h : Kept P q u o s) (v : BitVec 64) : Kept P q u o (State.writeRqCfg s v) := by
  simp +contextual (maxDischargeDepth := 60) [State.writeRqCfg, h]

@[simp] theorem kept_writeRoRd {s : State} (h : Kept P q u o s) (r : Reg) (wr shift : RegName) (v : BitVec 64) :
    Kept P q u o (State.writeRoRd s r wr shift v) := by
  simp +contextual (maxDischargeDepth := 60) [State.writeRoRd, h]

@[simp] theorem kept_writePodCfg {s : State} (h : Kept P q u o s) (p : Nat) (v : BitVec 64) :
    Kept P q u o (State.writePodCfg s p v) := by
  simp +contextual (maxDischargeDepth := 60) [State.writePodCfg, h]

@[simp] theorem kept_writeNextSeq {s : State} (h : Kept P q u o s) (n : Nat) (v : BitVec 64) :
    Kept P q u o (State.writeNextSeq s n v) := by
  simp +contextual (maxDischargeDepth := 60) [State.writeNextSeq, h]

@[simp] theorem kept_writeE2e {s : State} (h : Kept P q u o s) (v : BitVec 64) : Kept P q u o (State.writeE2e s v) := by
  simp +contextual (maxDischargeDepth := 60) [State.writeE2e, h]

@[simp] theorem kept_writeRoBudget {s : State} (h : Kept P q u o s) (k : Nat) (v : BitVec 64) :
    Kept P q u o (State.writeRoBudget s k v) := by
  simp +contextual (maxDischargeDepth := 60) [State.writeRoBudget, h]

@[simp] theorem kept_writePodPages {s : State} (h : Kept P q u o s) (p : Nat) (v : BitVec 64) :
    Kept P q u o (State.writePodPages s p v) := by
  simp +contextual (maxDischargeDepth := 60) [State.writePodPages, h]

@[simp] theorem kept_fcErr {s : State} (h : Kept P q u o s) (b : Nat) : Kept P q u o (State.fcErr s b) := by
  simp +contextual (maxDischargeDepth := 60) [State.fcErr, h]

@[simp] theorem kept_writeHang {s : State} (h : Kept P q u o s) (v : BitVec 64) : Kept P q u o (State.writeHang s v) := by
  simp +contextual (maxDischargeDepth := 60) [State.writeHang, h]

@[simp] theorem kept_writeFwPolicy {s : State} (h : Kept P q u o s) (v : BitVec 64) :
    Kept P q u o (State.writeFwPolicy s v) := by
  simp +contextual (maxDischargeDepth := 60) [State.writeFwPolicy, h]

@[simp] theorem kept_writeCplRd {s : State} (h : Kept P q u o s) (n : Nat) (v : BitVec 64) :
    Kept P q u o (State.writeCplRd s n v) := by
  simp +contextual (maxDischargeDepth := 60) [State.writeCplRd, h]

@[simp] theorem kept_writeRqBase {s : State} (h : Kept P q u o s) (v : BitVec 64) : Kept P q u o (State.writeRqBase s v) := by
  simp +contextual (maxDischargeDepth := 60) [State.writeRqBase, h]

@[simp] theorem kept_writeSettings {s : State} (h : Kept P q u o s) (v : BitVec 64) :
    Kept P q u o (State.writeSettings s v) := by
  simp +contextual (maxDischargeDepth := 60) [State.writeSettings, h]

@[simp] theorem kept_writeCpl {s : State} (h : Kept P q u o s) (n : Nat) (v : BitVec 64) :
    Kept P q u o (State.writeCpl s n v) := by
  simp +contextual (maxDischargeDepth := 60) [State.writeCpl, h]

@[simp] theorem kept_writeLatchCfg {s : State} (h : Kept P q u o s) (n : Nat) (v : BitVec 64) :
    Kept P q u o (State.writeLatchCfg s n v) := by
  simp +contextual (maxDischargeDepth := 60) [State.writeLatchCfg, h]

@[simp] theorem kept_writeRqStatus {s : State} (h : Kept P q u o s) (v : BitVec 64) :
    Kept P q u o (State.writeRqStatus s v) := by
  simp +contextual (maxDischargeDepth := 60) [State.writeRqStatus, h]

@[simp] theorem kept_writeRoCfg {s : State} (h : Kept P q u o s) (k : Nat) (v : BitVec 64) :
    Kept P q u o (State.writeRoCfg s k v) := by
  simp +contextual (maxDischargeDepth := 60) [State.writeRoCfg, h]

@[simp] theorem kept_withdrawNode {s : State} (h : Kept P q u o s) (k : Nat) : Kept P q u o (State.withdrawNode s k) := by
  simp +contextual (maxDischargeDepth := 60) [State.withdrawNode, h]

@[simp] theorem kept_unregister {s : State} (h : Kept P q u o s) (k : Nat) : Kept P q u o (State.unregister s k) := by
  simp +contextual (maxDischargeDepth := 60) [State.unregister, h]

@[simp] theorem kept_pruneOffers {s : State} (h : Kept P q u o s)  : Kept P q u o (State.pruneOffers s) := by
  simp +contextual (maxDischargeDepth := 60) [State.pruneOffers, h]

@[simp] theorem kept_withdrawAll {s : State} (h : Kept P q u o s) (c : Nat) : Kept P q u o (State.withdrawAll s c) := by
  simp +contextual (maxDischargeDepth := 60) [State.withdrawAll, h]

@[simp] theorem kept_checkDonation {s : State} (h : Kept P q u o s) (key : Nat) : Kept P q u o (State.checkDonation s key) := by
  (unfold State.checkDonation; repeat' (first
    | simp +contextual (maxDischargeDepth := 60) [*]
    | (refine kept_writeBytes (by assumption) ?_)
    | (refine kept_openAll_eq (by assumption) ?_)
    | (refine kept_fanPassTwo_eq (by assumption) ?_)
    | (refine kept_takeBack_eq (by assumption) ?_)
    | (refine kept_inspRead_eq (by assumption) ?_)
    | (refine kept_readReg_eq (by assumption) ?_)
    | (refine kept_readLow_eq (by assumption) ?_)
    | (refine kept_readHigh_eq (by assumption) ?_)
    | (refine kept_readPart_eq (by assumption) ?_)
    | (refine kept_readPage (by assumption) ?_)
    | (refine kept_readData (by assumption) ?_)
    | (refine kept_each _ _ ?_ ?_)
    | split
    | intro _
    | dsimp only
    ))

@[simp] theorem kept_checkDonations {s : State} (h : Kept P q u o s)  : Kept P q u o (State.checkDonations s) := by
  simp +contextual (maxDischargeDepth := 60) [State.checkDonations, h]

@[simp] theorem kept_orderSuspend {s : State} (h : Kept P q u o s) (y1 addr : Nat) (trump : Option Nat) :
    Kept P q u o (State.orderSuspend s y1 addr trump) := by
  (unfold State.orderSuspend; repeat' split) <;> simp +contextual (maxDischargeDepth := 60) [*]

@[simp] theorem kept_ackTo {s : State} (h : Kept P q u o s) (r : E2e) (status reason : Nat) :
    Kept P q u o (State.ackTo s r status reason) := by
  simp +contextual (maxDischargeDepth := 60) [State.ackTo, h]

@[simp] theorem kept_updSrc {s : State} (h : Kept P q u o s) (c : Nat) (f : SrcChip → SrcChip) :
    Kept P q u o (State.updSrc s c f) := by
  simp +contextual (maxDischargeDepth := 60) [State.updSrc, h]

@[simp] theorem kept_answerReq {s : State} (h : Kept P q u o s) (r : E2e) (status reason : Nat) :
    Kept P q u o (State.answerReq s r status reason) := by
  (unfold State.answerReq; repeat' split) <;> simp +contextual (maxDischargeDepth := 60) [*]

@[simp] theorem kept_settleRx {s : State} (h : Kept P q u o s) (k y2 : Nat) : Kept P q u o (State.settleRx s k y2) := by
  simp +contextual (maxDischargeDepth := 60) [State.settleRx, h]

@[simp] theorem kept_unholdRx {s : State} (h : Kept P q u o s) (k y2 blk : Nat) : Kept P q u o (State.unholdRx s k y2 blk) := by
  simp +contextual (maxDischargeDepth := 60) [State.unholdRx, h]

@[simp] theorem kept_refuseCalls {s : State} (h : Kept P q u o s) (c : Nat) : Kept P q u o (State.refuseCalls s c) := by
  simp +contextual (maxDischargeDepth := 60) [State.refuseCalls, h]

@[simp] theorem kept_startSave {s : State} (h : Kept P q u o s) (c : Nat) (suspend auto : Bool) :
    Kept P q u o (s.startSave c suspend auto) := by
  unfold State.startSave
  extract_lets s1 s2 s3 s4 s5
  have h4 : Kept P q u o s4 := by simp +contextual (maxDischargeDepth := 60) [s1, s2, s3, s4, h]
  clear_value s4
  have h5 : Kept P q u o s5 := by
    simp only [s5]
    split
    · refine kept_each _ _ (fun _ _ h => ?_) h4
      split <;> simp +contextual (maxDischargeDepth := 60) [h]
    · exact h4
  clear_value s5
  simp +contextual (maxDischargeDepth := 60) [h5]

@[simp] theorem kept_rearmCtx {s : State} (h : Kept P q u o s) (c : Nat) : Kept P q u o (State.rearmCtx s c) := by
  simp +contextual (maxDischargeDepth := 60) [State.rearmCtx, h]

@[simp] theorem kept_startRestore {s : State} (h : Kept P q u o s) (c : Nat) : Kept P q u o (State.startRestore s c) := by
  simp +contextual (maxDischargeDepth := 60) [State.startRestore, h]

@[simp] theorem kept_writeCtxCtrl {s : State} (h : Kept P q u o s) (c : Nat) (v : BitVec 64) :
    Kept P q u o (State.writeCtxCtrl s c v) := by
  (unfold State.writeCtxCtrl; repeat' split) <;> simp +contextual (maxDischargeDepth := 60) [*]

@[simp] theorem kept_writeTrcCtrl {s : State} (h : Kept P q u o s) (v : BitVec 64) : Kept P q u o (State.writeTrcCtrl s v) := by
  simp +contextual (maxDischargeDepth := 60) [State.writeTrcCtrl, h]

@[simp] theorem kept_placeTurn {s : State} (h : Kept P q u o s) (k : Nat) (el : List Nat) :
    Kept P q u o (State.placeTurn s k el) := by
  simp +contextual (maxDischargeDepth := 60) [State.placeTurn, h]

@[simp] theorem kept_moveRunning {s : State} (h : Kept P q u o s) (k p r : Nat) : Kept P q u o (State.moveRunning s k p r) := by
  simp +contextual (maxDischargeDepth := 60) [State.moveRunning, h]

@[simp] theorem kept_addEnt {s : State} (h : Kept P q u o s) (r k : Nat) (susp : Option Susp) :
    Kept P q u o (State.addEnt s r k susp) := by
  simp +contextual (maxDischargeDepth := 60) [State.addEnt, h]

@[simp] theorem kept_insertEnt {s : State} (h : Kept P q u o s) (r k : Nat) (susp : Option Susp) :
    Kept P q u o (State.insertEnt s r k susp) := by
  simp +contextual (maxDischargeDepth := 60) [State.insertEnt, h]

@[simp] theorem kept_placeResume {s : State} (h : Kept P q u o s) (k : Nat) (y2 : Susp) :
    Kept P q u o (State.placeResume s k y2) := by
  simp +contextual (maxDischargeDepth := 60) [State.placeResume, h]

@[simp] theorem kept_takeBack {s : State} (h : Kept P q u o s) (r : Nat) (x : HandEnt) : Kept P q u o ((s.takeBack r x).1) := by
  unfold State.takeBack
  split <;> simp +contextual (maxDischargeDepth := 60) [h]
theorem kept_takeBack_eq {s t : State} {r : Nat} {x : HandEnt} {n : Nat} (e : s.takeBack r x = (t, n)) (h : Kept P q u o s) :
    Kept P q u o t := by
  have := kept_takeBack (P := P) (q := q) (u := u) (o := o) h r x
  rw [e] at this
  exact this

@[simp] theorem kept_leaveBacklog {s : State} (h : Kept P q u o s) (y1 k : Nat) : Kept P q u o (State.leaveBacklog s y1 k) := by
  simp +contextual (maxDischargeDepth := 60) [State.leaveBacklog, h]

@[simp] theorem kept_toDealer {s : State} (h : Kept P q u o s) (r k : Nat) : Kept P q u o (State.toDealer s r k) := by
  simp +contextual (maxDischargeDepth := 60) [State.toDealer, h]

@[simp] theorem kept_holdNode {s : State} (h : Kept P q u o s) (k : Nat) : Kept P q u o (State.holdNode s k) := by
  simp +contextual (maxDischargeDepth := 60) [State.holdNode, h]

@[simp] theorem kept_openOffer {s : State} (h : Kept P q u o s) (k : Nat) (rs : List Nat) :
    Kept P q u o (State.openOffer s k rs) := by
  simp +contextual (maxDischargeDepth := 60) [State.openOffer, h]

@[simp] theorem kept_addShare {s : State} (h : Kept P q u o s) (r k : Nat) (ps : Runs) :
    Kept P q u o (State.addShare s r k ps) := by
  simp +contextual (maxDischargeDepth := 60) [State.addShare, h]

@[simp] theorem kept_sendShare {s : State} (h : Kept P q u o s) (k r : Nat) (ps : Runs) :
    Kept P q u o (State.sendShare s k r ps) := by
  simp +contextual (maxDischargeDepth := 60) [State.sendShare, h]

@[simp] theorem kept_dispatchKitty {s : State} (h : Kept P q u o s) (k : Nat) (el : List Nat) :
    Kept P q u o (State.dispatchKitty s k el) := by
  simp +contextual (maxDischargeDepth := 60) [State.dispatchKitty, h]

@[simp] theorem kept_dispatch {s : State} (h : Kept P q u o s) (k : Nat) : Kept P q u o (State.dispatch s k) := by
  (unfold State.dispatch; repeat' (first
    | simp +contextual (maxDischargeDepth := 60) [*]
    | (refine kept_writeBytes (by assumption) ?_)
    | (refine kept_openAll_eq (by assumption) ?_)
    | (refine kept_fanPassTwo_eq (by assumption) ?_)
    | (refine kept_takeBack_eq (by assumption) ?_)
    | (refine kept_inspRead_eq (by assumption) ?_)
    | (refine kept_readReg_eq (by assumption) ?_)
    | (refine kept_readLow_eq (by assumption) ?_)
    | (refine kept_readHigh_eq (by assumption) ?_)
    | (refine kept_readPart_eq (by assumption) ?_)
    | (refine kept_readPage (by assumption) ?_)
    | (refine kept_readData (by assumption) ?_)
    | (refine kept_each _ _ ?_ ?_)
    | split
    | intro _
    | dsimp only
    ))

@[simp] theorem kept_rehomeAnd {s : State} (h : Kept P q u o s) (rewrite : Bool) (again : Nat → Bool) :
    Kept P q u o (State.rehomeAnd s rewrite again) := by
  simp +contextual (maxDischargeDepth := 60) (maxSteps := 1000000) [State.rehomeAnd, h]

@[simp] theorem kept_writeTileOwner {s : State} (h : Kept P q u o s) (i : Nat) (v : BitVec 64) :
    Kept P q u o (State.writeTileOwner s i v) := by
  simp +contextual (maxDischargeDepth := 60) [State.writeTileOwner, h]

@[simp] theorem kept_writeSwapq {s : State} (h : Kept P q u o s) (p : Nat) (v : BitVec 64) :
    Kept P q u o (State.writeSwapq s p v) := by
  simp +contextual (maxDischargeDepth := 60) [State.writeSwapq, h]

@[simp] theorem kept_trcStop {s : State} (h : Kept P q u o s)  : Kept P q u o (State.trcStop s) := by
  simp +contextual (maxDischargeDepth := 60) [State.trcStop, h]

@[simp] theorem kept_trcStart {s : State} (h : Kept P q u o s)  : Kept P q u o (State.trcStart s) := by
  simp +contextual (maxDischargeDepth := 60) [State.trcStart, h]

@[simp] theorem kept_writeTrcCfg {s : State} (h : Kept P q u o s) (v : BitVec 64) : Kept P q u o (State.writeTrcCfg s v) := by
  simp +contextual (maxDischargeDepth := 60) [State.writeTrcCfg, h]

@[simp] theorem kept_writeReplayWr {s : State} (h : Kept P q u o s) (k : Nat) (v : BitVec 64) :
    Kept P q u o (State.writeReplayWr s k v) := by
  simp +contextual (maxDischargeDepth := 60) [State.writeReplayWr, h]

@[simp] theorem kept_writeWdev {s : State} (h : Kept P q u o s) (n : Nat) (v : BitVec 64) :
    Kept P q u o (State.writeWdev s n v) := by
  simp +contextual (maxDischargeDepth := 60) [State.writeWdev, h]

@[simp] theorem kept_makeReady {s : State} (h : Kept P q u o s) (k : Nat) : Kept P q u o (State.makeReady s k) := by
  simp +contextual (maxDischargeDepth := 60) (maxSteps := 1000000) [State.makeReady, h]

@[simp] theorem kept_unpark {s : State} (h : Kept P q u o s)  : Kept P q u o (State.unpark s) := by
  simp +contextual (maxDischargeDepth := 60) [State.unpark, h]

@[simp] theorem kept_loadDone {s : State} (h : Kept P q u o s)  : Kept P q u o (State.loadDone s) := by
  simp +contextual (maxDischargeDepth := 60) [State.loadDone, h]

@[simp] theorem kept_initObj {s : State} (h : Kept P q u o s)  : Kept P q u o (State.initObj s) := by
  simp +contextual (maxDischargeDepth := 60) [State.initObj, h]

@[simp] theorem kept_writeInitCtrl {s : State} (h : Kept P q u o s) (v : BitVec 64) :
    Kept P q u o (State.writeInitCtrl s v) := by
  simp +contextual (maxDischargeDepth := 60) [State.writeInitCtrl, h]

@[simp] theorem kept_resErr {s : State} (h : Kept P q u o s) (b : Nat) : Kept P q u o (State.resErr s b) := by
  simp +contextual (maxDischargeDepth := 60) [State.resErr, h]

@[simp] theorem kept_commitRes {s : State} (h : Kept P q u o s) (i : Nat) : Kept P q u o (State.commitRes s i) := by
  simp +contextual (maxDischargeDepth := 60) [State.commitRes, h]

@[simp] theorem kept_writeResSel {s : State} (h : Kept P q u o s) (v : BitVec 64) : Kept P q u o (State.writeResSel s v) := by
  simp +contextual (maxDischargeDepth := 60) [State.writeResSel, h]

@[simp] theorem kept_writeLatchRd {s : State} (h : Kept P q u o s) (n : Nat) (v : BitVec 64) :
    Kept P q u o (State.writeLatchRd s n v) := by
  simp +contextual (maxDischargeDepth := 60) [State.writeLatchRd, h]

@[simp] theorem kept_toUnused {s : State} (h : Kept P q u o s) (c : Nat) : Kept P q u o (State.toUnused s c) := by
  simp +contextual (maxDischargeDepth := 60) [State.toUnused, h]

@[simp] theorem kept_writeWindow {s : State} (h : Kept P q u o s) (edges : Bool) (c : Nat) (v : BitVec 64) :
    Kept P q u o (State.writeWindow s edges c v) := by
  simp +contextual (maxDischargeDepth := 60) [State.writeWindow, h]

@[simp] theorem kept_writeIrq {s : State} (h : Kept P q u o s) (n : Nat) (v : BitVec 64) :
    Kept P q u o (State.writeIrq s n v) := by
  simp +contextual (maxDischargeDepth := 60) [State.writeIrq, h]

@[simp] theorem kept_lockAfresh {s : State} (h : Kept P q u o s)  : Kept P q u o (State.lockAfresh s) := by
  simp +contextual (maxDischargeDepth := 60) [State.lockAfresh, h]

@[simp] theorem kept_adjustPin {s : State} (h : Kept P q u o s)  : Kept P q u o (State.adjustPin s) := by
  simp +contextual (maxDischargeDepth := 60) [State.adjustPin, h]

@[simp] theorem kept_writeBeatCfg {s : State} (h : Kept P q u o s) (v : BitVec 64) : Kept P q u o (State.writeBeatCfg s v) := by
  simp +contextual (maxDischargeDepth := 60) [State.writeBeatCfg, h]

@[simp] theorem kept_snapDumpStart {s : State} (h : Kept P q u o s) (v : BitVec 64) :
    Kept P q u o (State.snapDumpStart s v) := by
  simp +contextual (maxDischargeDepth := 60) [State.snapDumpStart, h]

@[simp] theorem kept_writeLand {s : State} (h : Kept P q u o s) (v : BitVec 64) : Kept P q u o (State.writeLand s v) := by
  simp +contextual (maxDischargeDepth := 60) [State.writeLand, h]

@[simp] theorem kept_gcntSnapCmd {s : State} (h : Kept P q u o s) (v : BitVec 64) : Kept P q u o (State.gcntSnapCmd s v) := by
  simp +contextual (maxDischargeDepth := 60) [State.gcntSnapCmd, h]

@[simp] theorem kept_commitTset {s : State} (h : Kept P q u o s) (p i : Nat) : Kept P q u o (State.commitTset s p i) := by
  simp +contextual (maxDischargeDepth := 60) [State.commitTset, h]

@[simp] theorem kept_writeTsetSel {s : State} (h : Kept P q u o s) (p : Nat) (v : BitVec 64) :
    Kept P q u o (State.writeTsetSel s p v) := by
  simp +contextual (maxDischargeDepth := 60) [State.writeTsetSel, h]

@[simp] theorem kept_writeSaveReg {s : State} (h : Kept P q u o s) (r : Reg) (v : BitVec 64) :
    Kept P q u o (State.writeSaveReg s r v) := by
  simp +contextual (maxDischargeDepth := 60) [State.writeSaveReg, h]

@[simp] theorem kept_writeUnbench {s : State} (h : Kept P q u o s) (v : BitVec 64) : Kept P q u o (State.writeUnbench s v) := by
  simp +contextual (maxDischargeDepth := 60) [State.writeUnbench, h]

@[simp] theorem kept_commitServe {s : State} (h : Kept P q u o s) (i : Nat) : Kept P q u o (State.commitServe s i) := by
  simp +contextual (maxDischargeDepth := 60) [State.commitServe, h]

@[simp] theorem kept_writeServeSel {s : State} (h : Kept P q u o s) (v : BitVec 64) :
    Kept P q u o (State.writeServeSel s v) := by
  simp +contextual (maxDischargeDepth := 60) [State.writeServeSel, h]

@[simp] theorem kept_writeSpiReg {s : State} (h : Kept P q u o s) (r : Reg) (v : BitVec 64) :
    Kept P q u o (State.writeSpiReg s r v) := by
  simp +contextual (maxDischargeDepth := 60) [State.writeSpiReg, h]

@[simp] theorem kept_enablePort {s : State} (h : Kept P q u o s) (k : Nat) : Kept P q u o (State.enablePort s k) := by
  simp +contextual (maxDischargeDepth := 60) [State.enablePort, h]

@[simp] theorem kept_cutBroken {s : State} (h : Kept P q u o s) (k : Nat) : Kept P q u o (State.cutBroken s k) := by
  simp +contextual (maxDischargeDepth := 60) [State.cutBroken, h]

@[simp] theorem kept_disablePort {s : State} (h : Kept P q u o s) (k : Nat) : Kept P q u o (State.disablePort s k) := by
  simp +contextual (maxDischargeDepth := 60) [State.disablePort, h]

@[simp] theorem kept_writePortCfg {s : State} (h : Kept P q u o s) (k : Nat) (v : BitVec 64) :
    Kept P q u o (State.writePortCfg s k v) := by
  simp +contextual (maxDischargeDepth := 60) [State.writePortCfg, h]

@[simp] theorem kept_startXlatInv {s : State} (h : Kept P q u o s) (v : BitVec 64) : Kept P q u o (State.startXlatInv s v) := by
  simp +contextual (maxDischargeDepth := 60) [State.startXlatInv, h]

@[simp] theorem kept_startSyDump [PokeClosed P] {s : State} (h : Kept P q u o s)  : Kept P q u o (State.startSyDump s) := by
  simp +contextual (maxDischargeDepth := 60) [State.startSyDump, h]

@[simp] theorem kept_writeSyDump [PokeClosed P] {s : State} (h : Kept P q u o s) (v : BitVec 64) :
    Kept P q u o (State.writeSyDump s v) := by
  simp +contextual (maxDischargeDepth := 60) [State.writeSyDump, h]

@[simp] theorem kept_writePodPreempt {s : State} (h : Kept P q u o s) (p : Nat) (v : BitVec 64) :
    Kept P q u o (State.writePodPreempt s p v) := by
  simp +contextual (maxDischargeDepth := 60) [State.writePodPreempt, h]

@[simp] theorem kept_writeCtxRes {s : State} (h : Kept P q u o s) (c : Nat) (v : BitVec 64) :
    Kept P q u o (State.writeCtxRes s c v) := by
  simp +contextual (maxDischargeDepth := 60) [State.writeCtxRes, h]

@[simp] theorem kept_writeCtxSlice {s : State} (h : Kept P q u o s) (c : Nat) (v : BitVec 64) :
    Kept P q u o (State.writeCtxSlice s c v) := by
  simp +contextual (maxDischargeDepth := 60) [State.writeCtxSlice, h]

@[simp] theorem kept_writePodSlots {s : State} (h : Kept P q u o s) (p : Nat) (v : BitVec 64) :
    Kept P q u o (State.writePodSlots s p v) := by
  simp +contextual (maxDischargeDepth := 60) [State.writePodSlots, h]

@[simp] theorem kept_writeLimit {s : State} (h : Kept P q u o s) (n : RegName) (v : BitVec 64) :
    Kept P q u o (State.writeLimit s n v) := by
  simp +contextual (maxDischargeDepth := 60) [State.writeLimit, h]

@[simp] theorem kept_writeRqRd {s : State} (h : Kept P q u o s) (v : BitVec 64) : Kept P q u o (State.writeRqRd s v) := by
  simp +contextual (maxDischargeDepth := 60) [State.writeRqRd, h]

@[simp] theorem kept_writeTrcCounts {s : State} (h : Kept P q u o s) (v : BitVec 64) :
    Kept P q u o (State.writeTrcCounts s v) := by
  simp +contextual (maxDischargeDepth := 60) [State.writeTrcCounts, h]

@[simp] theorem kept_writeReset {s : State} (h : Kept P q u o s) (v : BitVec 64) : Kept P q u o (State.writeReset s v) := by
  simp +contextual (maxDischargeDepth := 60) [State.writeReset, h]

@[simp] theorem kept_feFault {s : State} (h : Kept P q u o s) (c cause : Nat) : Kept P q u o (State.feFault s c cause) := by
  simp +contextual (maxDischargeDepth := 60) [State.feFault, h]

@[simp] theorem kept_slotWrite [PokeClosed P] {s : State} (h : Kept P q u o s) (n y2 : Nat) (bs : List Byte) :
    Kept P q u o (State.slotWrite s n y2 bs).1 := by
  (unfold State.slotWrite; repeat' (first
    | simp +contextual (maxDischargeDepth := 60) [*]
    | (refine kept_writeBytes (by assumption) ?_)
    | (refine kept_openAll_eq (by assumption) ?_)
    | (refine kept_fanPassTwo_eq (by assumption) ?_)
    | (refine kept_takeBack_eq (by assumption) ?_)
    | (refine kept_inspRead_eq (by assumption) ?_)
    | (refine kept_readReg_eq (by assumption) ?_)
    | (refine kept_readLow_eq (by assumption) ?_)
    | (refine kept_readHigh_eq (by assumption) ?_)
    | (refine kept_readPart_eq (by assumption) ?_)
    | (refine kept_readPage (by assumption) ?_)
    | (refine kept_readData (by assumption) ?_)
    | (refine kept_each _ _ ?_ ?_)
    | split
    | intro _
    | dsimp only
    ))
theorem kept_slotWrite_eq [PokeClosed P] {s t : State} {n y2 : Nat} {bs : List Byte} {x : (Bool)}
    (e : State.slotWrite s n y2 bs = (t, x)) (h : Kept P q u o s) : Kept P q u o t := by
  have := kept_slotWrite (P := P) (q := q) (u := u) (o := o) h n y2 bs
  rw [e] at this
  exact this

@[simp] theorem kept_writeDone [PokeClosed P] {s : State} (h : Kept P q u o s) (n : Nat) :
    Kept P q u o (State.writeDone s n) := by
  simp +contextual (maxDischargeDepth := 60) [State.writeDone, h]

@[simp] theorem kept_writeIdleAt [PokeClosed P] {s : State} (h : Kept P q u o s) (n : Nat) :
    Kept P q u o (State.writeIdleAt s n) := by
  simp +contextual (maxDischargeDepth := 60) [State.writeIdleAt, h]

@[simp] theorem kept_enable [PokeClosed P] {s : State} (h : Kept P q u o s) (n : Nat) : Kept P q u o (State.enable s n) := by
  simp +contextual (maxDischargeDepth := 60) [State.enable, h]

@[simp] theorem kept_writeSlotCfg [PokeClosed P] {s : State} (h : Kept P q u o s) (n : Nat) (v : BitVec 64) :
    Kept P q u o (State.writeSlotCfg s n v) := by
  simp +contextual (maxDischargeDepth := 60) [State.writeSlotCfg, h]

@[simp] theorem kept_writeReg [PokeClosed P] {s : State} (h : Kept P q u o s) (who : Requester) (r : Reg) (v : BitVec 64) : Kept P q u o (State.writeReg s who r v) := by
  (unfold State.writeReg; repeat' split) <;> simp +contextual (maxDischargeDepth := 60) [*]

@[simp] theorem kept_writeHighAlone [PokeClosed P] {s : State} (h : Kept P q u o s) (who : Requester) (r : Reg) (v : BitVec 32) : Kept P q u o (State.writeHighAlone s who r v) := by
  simp +contextual (maxDischargeDepth := 60) [State.writeHighAlone, h]

@[simp] theorem kept_writeHigh [PokeClosed P] {s : State} (h : Kept P q u o s) (who : Requester) (r : Reg) (v : BitVec 32) : Kept P q u o (State.writeHigh s who r v) := by
  (unfold State.writeHigh; repeat' split) <;> simp +contextual (maxDischargeDepth := 60) [*]

@[simp] theorem kept_accessWrite [PokeClosed P] {s : State} (h : Kept P q u o s) (who : Requester) (off : Nat) (wide : Bool) (v : BitVec 64) : Kept P q u o (State.accessWrite s who off wide v) := by
  (unfold State.accessWrite; repeat' split) <;> simp +contextual (maxDischargeDepth := 60) [*]

@[simp] theorem kept_updMemWait {s : State} (h : Kept P q u o s) (f : MemReq → MemReq) :
    Kept P q u o (State.updMemWait s f) := by
  simp +contextual (maxDischargeDepth := 60) [State.updMemWait, h]

@[simp] theorem kept_seeWrites {s : State} (h : Kept P q u o s) (key y2 : Nat) : Kept P q u o (State.seeWrites s key y2) := by
  simp +contextual (maxDischargeDepth := 60) [State.seeWrites, h]

@[simp] theorem kept_misuse {s : State} (h : Kept P q u o s) (key b c : Nat) : Kept P q u o (State.misuse s key b c) := by
  simp +contextual (maxDischargeDepth := 60) [State.misuse, h]

@[simp] theorem kept_acquire {s : State} (h : Kept P q u o s) (key sc c : Nat) (who : Party) :
    Kept P q u o (s.acquire key sc c who) := by
  unfold State.acquire
  extract_lets s1 o1
  have h1 : Kept P q u o s1 := by simp only [s1]; split <;> simp +contextual (maxDischargeDepth := 60) [h]
  split
  · exact kept_misuse h1 ..
  · exact h1

@[simp] theorem kept_popParcel {s : State} (h : Kept P q u o s) (k y2 : Nat) (hold : Bool) :
    Kept P q u o (State.popParcel s k y2 hold) := by
  simp +contextual (maxDischargeDepth := 60) [State.popParcel, h]

@[simp] theorem kept_glitch {s : State} (h : Kept P q u o s)  : Kept P q u o (State.glitch s) := by
  simp +contextual (maxDischargeDepth := 60) [State.glitch, h]

@[simp] theorem kept_takeBeat {s : State} (h : Kept P q u o s) (k v : Nat) : Kept P q u o (State.takeBeat s k v) := by
  simp +contextual (maxDischargeDepth := 60) [State.takeBeat, h]

@[simp] theorem kept_endOwner {s : State} (h : Kept P q u o s) (k status : Nat) : Kept P q u o (State.endOwner s k status) := by
  (unfold State.endOwner; repeat' split) <;> simp +contextual (maxDischargeDepth := 60) [*]

@[simp] theorem kept_depOrphan {s : State} (h : Kept P q u o s) (k arg : Nat) : Kept P q u o (State.depOrphan s k arg) := by
  simp +contextual (maxDischargeDepth := 60) [State.depOrphan, h]

@[simp] theorem kept_failNode {s : State} (h : Kept P q u o s) (k : Nat) (f : FaultRec) (src : Nat) :
    Kept P q u o (State.failNode s k f src) := by
  simp +contextual (maxDischargeDepth := 60) [State.failNode, h]

@[simp] theorem kept_decRefused {s : State} (h : Kept P q u o s) (k reason : Nat) :
    Kept P q u o (State.decRefused s k reason) := by
  simp +contextual (maxDischargeDepth := 60) [State.decRefused, h]

@[simp] theorem kept_signalLost {s : State} (h : Kept P q u o s) (y1 : Unanswered) (cause : Nat) :
    Kept P q u o (State.signalLost s y1 cause) := by
  (unfold State.signalLost; repeat' split) <;> simp +contextual (maxDischargeDepth := 60) [*]

@[simp] theorem kept_quarantine {s : State} (h : Kept P q u o s) (k : Nat) (f : FaultRec) (src : Nat) :
    Kept P q u o (State.quarantine s k f src) := by
  simp +contextual (maxDischargeDepth := 60) [State.quarantine, h]

@[simp] theorem kept_readEdges {s : State} (h : Kept P q u o s) (k : Nat) : Kept P q u o (State.readEdges s k).1 := by
  (unfold State.readEdges; repeat' (first
    | simp +contextual (maxDischargeDepth := 60) [*]
    | (refine kept_writeBytes (by assumption) ?_)
    | (refine kept_openAll_eq (by assumption) ?_)
    | (refine kept_fanPassTwo_eq (by assumption) ?_)
    | (refine kept_takeBack_eq (by assumption) ?_)
    | (refine kept_inspRead_eq (by assumption) ?_)
    | (refine kept_readReg_eq (by assumption) ?_)
    | (refine kept_readLow_eq (by assumption) ?_)
    | (refine kept_readHigh_eq (by assumption) ?_)
    | (refine kept_readPart_eq (by assumption) ?_)
    | (refine kept_readPage (by assumption) ?_)
    | (refine kept_readData (by assumption) ?_)
    | (refine kept_slotWrite_eq (by assumption) ?_)
    | (refine kept_each _ _ ?_ ?_)
    | split
    | intro _
    | dsimp only
    ))
theorem kept_readEdges_eq {s t : State} {k : Nat} {x : (Bool)} (e : State.readEdges s k = (t, x)) (h : Kept P q u o s) :
    Kept P q u o t := by
  have := kept_readEdges (P := P) (q := q) (u := u) (o := o) h k
  rw [e] at this
  exact this

@[simp] theorem kept_releaseSlot {s : State} (h : Kept P q u o s) (k : Nat) : Kept P q u o (State.releaseSlot s k) := by
  simp +contextual (maxDischargeDepth := 60) [State.releaseSlot, h]

@[simp] theorem kept_settleGate {s : State} (h : Kept P q u o s) (k : Nat) : Kept P q u o (State.settleGate s k) := by
  simp +contextual (maxDischargeDepth := 60) [State.settleGate, h]

@[simp] theorem kept_traceUnit {s : State} (h : Kept P q u o s) (y1 : Nat) (r : TraceRec) :
    Kept P q u o (State.traceUnit s y1 r) := by
  simp +contextual (maxDischargeDepth := 60) [State.traceUnit, h]

@[simp] theorem kept_decTo {s : State} (h : Kept P q u o s) (ks : List Nat) : Kept P q u o (State.decTo s ks) := by
  simp +contextual (maxDischargeDepth := 60) [State.decTo, h]

@[simp] theorem kept_foldRange {s : State} (h : Kept P q u o s) (c base count : Nat) :
    Kept P q u o (State.foldRange s c base count) := by
  (unfold State.foldRange; repeat' (first
    | simp +contextual (maxDischargeDepth := 60) [*]
    | (refine kept_writeBytes (by assumption) ?_)
    | (refine kept_openAll_eq (by assumption) ?_)
    | (refine kept_fanPassTwo_eq (by assumption) ?_)
    | (refine kept_takeBack_eq (by assumption) ?_)
    | (refine kept_inspRead_eq (by assumption) ?_)
    | (refine kept_readReg_eq (by assumption) ?_)
    | (refine kept_readLow_eq (by assumption) ?_)
    | (refine kept_readHigh_eq (by assumption) ?_)
    | (refine kept_readPart_eq (by assumption) ?_)
    | (refine kept_readPage (by assumption) ?_)
    | (refine kept_readData (by assumption) ?_)
    | (refine kept_slotWrite_eq (by assumption) ?_)
    | (refine kept_readEdges_eq (by assumption) ?_)
    | (refine kept_each _ _ ?_ ?_)
    | split
    | intro _
    | dsimp only
    ))

@[simp] theorem kept_primaryWins {s : State} (h : Kept P q u o s) (k : Nat) : Kept P q u o (State.primaryWins s k) := by
  simp +contextual (maxDischargeDepth := 60) [State.primaryWins, h]

@[simp] theorem kept_tellGates {s : State} (h : Kept P q u o s) (k : Nat) : Kept P q u o (State.tellGates s k) := by
  (unfold State.tellGates; repeat' (first
    | simp +contextual (maxDischargeDepth := 60) [*]
    | (refine kept_writeBytes (by assumption) ?_)
    | (refine kept_openAll_eq (by assumption) ?_)
    | (refine kept_fanPassTwo_eq (by assumption) ?_)
    | (refine kept_takeBack_eq (by assumption) ?_)
    | (refine kept_inspRead_eq (by assumption) ?_)
    | (refine kept_readReg_eq (by assumption) ?_)
    | (refine kept_readLow_eq (by assumption) ?_)
    | (refine kept_readHigh_eq (by assumption) ?_)
    | (refine kept_readPart_eq (by assumption) ?_)
    | (refine kept_readPage (by assumption) ?_)
    | (refine kept_readData (by assumption) ?_)
    | (refine kept_slotWrite_eq (by assumption) ?_)
    | (refine kept_readEdges_eq (by assumption) ?_)
    | (refine kept_each _ _ ?_ ?_)
    | split
    | intro _
    | dsimp only
    ))

@[simp] theorem kept_armGate {s : State} (h : Kept P q u o s) (k : Nat) : Kept P q u o (State.armGate s k) := by
  simp +contextual (maxDischargeDepth := 60) [State.armGate, h]

@[simp] theorem kept_completeCore {s : State} (h : Kept P q u o s) (k : Nat) : Kept P q u o (s.completeCore k) := by
  unfold State.completeCore
  extract_lets n s1 s2 r s3 ts s4 src s5 s6 s7
  have h1 : Kept P q u o s1 := by simp +contextual (maxDischargeDepth := 60) [s1, h]
  clear_value s1
  have h2 : Kept P q u o s2 := by simp only [s2]; split <;> simp +contextual (maxDischargeDepth := 60) [h1]
  clear_value s2
  have h3 : Kept P q u o s3 := by simp +contextual (maxDischargeDepth := 60) [s3, r, h2]
  clear_value s3
  have h4 : Kept P q u o s4 := by simp +contextual (maxDischargeDepth := 60) [s4, h3]
  clear_value s4
  have h5 : Kept P q u o s5 := by simp only [s5]; split <;> simp +contextual (maxDischargeDepth := 60) [h4]
  clear_value s5
  have h6 : Kept P q u o s6 := by simp only [s6]; split <;> simp +contextual (maxDischargeDepth := 60) [h5]
  clear_value s6
  have h7 : Kept P q u o s7 := by simp +contextual (maxDischargeDepth := 60) [s7, h6]
  clear_value s7
  split
  · simp +contextual (maxDischargeDepth := 60) [r, h2]
  · split <;> simp +contextual (maxDischargeDepth := 60) [h7]

@[simp] theorem kept_complete {s : State} (h : Kept P q u o s) (k : Nat) : Kept P q u o (State.complete s k) := by
  (unfold State.complete; repeat' (first
    | simp +contextual (maxDischargeDepth := 60) [*]
    | (refine kept_writeBytes (by assumption) ?_)
    | (refine kept_openAll_eq (by assumption) ?_)
    | (refine kept_fanPassTwo_eq (by assumption) ?_)
    | (refine kept_takeBack_eq (by assumption) ?_)
    | (refine kept_inspRead_eq (by assumption) ?_)
    | (refine kept_readReg_eq (by assumption) ?_)
    | (refine kept_readLow_eq (by assumption) ?_)
    | (refine kept_readHigh_eq (by assumption) ?_)
    | (refine kept_readPart_eq (by assumption) ?_)
    | (refine kept_readPage (by assumption) ?_)
    | (refine kept_readData (by assumption) ?_)
    | (refine kept_slotWrite_eq (by assumption) ?_)
    | (refine kept_readEdges_eq (by assumption) ?_)
    | (refine kept_each _ _ ?_ ?_)
    | split
    | intro _
    | dsimp only
    ))

@[simp] theorem kept_orderRecs {s : State} (h : Kept P q u o s) (y1 : State) : Kept P q u o (State.orderRecs s y1) := by
  simp +contextual (maxDischargeDepth := 60) [State.orderRecs, h]

@[simp] theorem kept_hubComplete {s : State} (h : Kept P q u o s)  : Kept P q u o (State.hubComplete s) := by
  simp +contextual (maxDischargeDepth := 60) [State.hubComplete, h]

@[simp] theorem kept_underflow {s : State} (h : Kept P q u o s) (k excess : Nat) :
    Kept P q u o (State.underflow s k excess) := by
  simp +contextual (maxDischargeDepth := 60) [State.underflow, h]

@[simp] theorem kept_checkNode {s : State} (h : Kept P q u o s) (k : Nat) : Kept P q u o (State.checkNode s k).1 := by
  (unfold State.checkNode; repeat' (first
    | simp +contextual (maxDischargeDepth := 60) [*]
    | (refine kept_writeBytes (by assumption) ?_)
    | (refine kept_openAll_eq (by assumption) ?_)
    | (refine kept_fanPassTwo_eq (by assumption) ?_)
    | (refine kept_takeBack_eq (by assumption) ?_)
    | (refine kept_inspRead_eq (by assumption) ?_)
    | (refine kept_readReg_eq (by assumption) ?_)
    | (refine kept_readLow_eq (by assumption) ?_)
    | (refine kept_readHigh_eq (by assumption) ?_)
    | (refine kept_readPart_eq (by assumption) ?_)
    | (refine kept_readPage (by assumption) ?_)
    | (refine kept_readData (by assumption) ?_)
    | (refine kept_slotWrite_eq (by assumption) ?_)
    | (refine kept_readEdges_eq (by assumption) ?_)
    | (refine kept_each _ _ ?_ ?_)
    | split
    | intro _
    | dsimp only
    ))
theorem kept_checkNode_eq {s t : State} {k : Nat} {x : (Option Nat)}
    (e : State.checkNode s k = (t, x)) (h : Kept P q u o s) : Kept P q u o t := by
  have := kept_checkNode (P := P) (q := q) (u := u) (o := o) h k
  rw [e] at this
  exact this

@[simp] theorem kept_applyUpdates {s : State} (h : Kept P q u o s) (k i d : Nat) :
    Kept P q u o (State.applyUpdates s k i d) := by
  (unfold State.applyUpdates; repeat' (first
    | simp +contextual (maxDischargeDepth := 60) [*]
    | (refine kept_writeBytes (by assumption) ?_)
    | (refine kept_openAll_eq (by assumption) ?_)
    | (refine kept_fanPassTwo_eq (by assumption) ?_)
    | (refine kept_takeBack_eq (by assumption) ?_)
    | (refine kept_inspRead_eq (by assumption) ?_)
    | (refine kept_readReg_eq (by assumption) ?_)
    | (refine kept_readLow_eq (by assumption) ?_)
    | (refine kept_readHigh_eq (by assumption) ?_)
    | (refine kept_readPart_eq (by assumption) ?_)
    | (refine kept_readPage (by assumption) ?_)
    | (refine kept_readData (by assumption) ?_)
    | (refine kept_slotWrite_eq (by assumption) ?_)
    | (refine kept_readEdges_eq (by assumption) ?_)
    | (refine kept_checkNode_eq (by assumption) ?_)
    | (refine kept_each _ _ ?_ ?_)
    | split
    | intro _
    | dsimp only
    ))

@[simp] theorem kept_freeBlocks {s : State} (h : Kept P q u o s) (c : Nat) (p : DynOwner → Bool) :
    Kept P q u o (State.freeBlocks s c p) := by
  simp +contextual (maxDischargeDepth := 60) [State.freeBlocks, h]

@[simp] theorem kept_returnBlocks {s : State} (h : Kept P q u o s) (c : Nat) : Kept P q u o (State.returnBlocks s c) := by
  simp +contextual (maxDischargeDepth := 60) [State.returnBlocks, h]

@[simp] theorem kept_resolverWork {s : State} (h : Kept P q u o s)  : Kept P q u o (State.resolverWork s) := by
  (unfold State.resolverWork; repeat' (first
    | simp +contextual (maxDischargeDepth := 60) [*]
    | (refine kept_writeBytes (by assumption) ?_)
    | (refine kept_openAll_eq (by assumption) ?_)
    | (refine kept_fanPassTwo_eq (by assumption) ?_)
    | (refine kept_takeBack_eq (by assumption) ?_)
    | (refine kept_inspRead_eq (by assumption) ?_)
    | (refine kept_readReg_eq (by assumption) ?_)
    | (refine kept_readLow_eq (by assumption) ?_)
    | (refine kept_readHigh_eq (by assumption) ?_)
    | (refine kept_readPart_eq (by assumption) ?_)
    | (refine kept_readPage (by assumption) ?_)
    | (refine kept_readData (by assumption) ?_)
    | (refine kept_slotWrite_eq (by assumption) ?_)
    | (refine kept_readEdges_eq (by assumption) ?_)
    | (refine kept_checkNode_eq (by assumption) ?_)
    | (refine kept_each _ _ ?_ ?_)
    | split
    | intro _
    | dsimp only
    ))

@[simp] theorem kept_resolverCycle {s : State} (h : Kept P q u o s)  : Kept P q u o (State.resolverCycle s) := by
  (unfold State.resolverCycle; repeat' (first
    | simp +contextual (maxDischargeDepth := 60) [*]
    | (refine kept_writeBytes (by assumption) ?_)
    | (refine kept_openAll_eq (by assumption) ?_)
    | (refine kept_fanPassTwo_eq (by assumption) ?_)
    | (refine kept_takeBack_eq (by assumption) ?_)
    | (refine kept_inspRead_eq (by assumption) ?_)
    | (refine kept_readReg_eq (by assumption) ?_)
    | (refine kept_readLow_eq (by assumption) ?_)
    | (refine kept_readHigh_eq (by assumption) ?_)
    | (refine kept_readPart_eq (by assumption) ?_)
    | (refine kept_readPage (by assumption) ?_)
    | (refine kept_readData (by assumption) ?_)
    | (refine kept_slotWrite_eq (by assumption) ?_)
    | (refine kept_readEdges_eq (by assumption) ?_)
    | (refine kept_checkNode_eq (by assumption) ?_)
    | (refine kept_each _ _ ?_ ?_)
    | split
    | intro _
    | dsimp only
    ))

@[simp] theorem kept_settle {s : State} (h : Kept P q u o s)  : Kept P q u o (s.settle) := by
  exact kept_iter (fun _ h => kept_resolverCycle h) _ h

@[simp] theorem kept_remoteOk {s : State} (h : Kept P q u o s) (k : Nat) : Kept P q u o (State.remoteOk s k) := by
  simp +contextual (maxDischargeDepth := 60) [State.remoteOk, h]

theorem kept_writeWord [PokeClosed P] {s t : State} {sp a n v : Nat} (e : s.writeWord sp a n v = some t) (h : Kept P q u o s) :
    Kept P q u o t := kept_writeBytes e h
@[simp] theorem kept_writeWord_getD [PokeClosed P] {s : State} (h : Kept P q u o s) {d : State} (hd : Kept P q u o d) (sp a n v : Nat) :
    Kept P q u o ((s.writeWord sp a n v).getD d) := kept_writeBytes_getD h hd _ _ _

theorem kept_clearMasks [PokeClosed P] {sp list mask : Nat} : ∀ {n i : Nat} {s t : State}, s.clearMasks sp list mask n i = some t →
    Kept P q u o s → Kept P q u o t := by
  intro n
  induction n with
  | zero => intro i s t e h; cases e; exact h
  | succ n ih =>
    intro i s t e h
    unfold State.clearMasks at e
    split at e
    · cases e
    · dsimp only at e
      split at e
      · cases e
      · split at e
        · cases e
        · exact ih e (kept_writeWord ‹_› h)

theorem kept_giveUpExpert [PokeClosed P] {s t : State} {k : Nat} {l : Landing}
    (e : s.giveUpExpert k l = some t) (h : Kept P q u o s) :
    Kept P q u o t := by
  unfold State.giveUpExpert at e
  dsimp only at e
  split at e
  · split at e
    · cases e
    · have h1 := kept_clearMasks ‹_› h
      split at e
      · obtain ⟨v, e1, e2⟩ := Option.bind_eq_some_iff.1 e
        exact kept_writeWord e2 (kept_writeWord e1 h1)
      · cases e
  · cases e; exact h

@[simp] theorem kept_unlist {s : State} (h : Kept P q u o s) (y1 : Nat) : Kept P q u o (State.unlist s y1) := by
  simp +contextual (maxDischargeDepth := 60) [State.unlist, h]

@[simp] theorem kept_pushPage [PokeClosed P] {s : State} (h : Kept P q u o s) (p g : Nat) : Kept P q u o (s.pushPage p g) := by
  unfold State.pushPage
  extract_lets x t
  have ht : Kept P q u o t := kept_writeWord_getD h h _ _ _ _
  clear_value t
  split
  · simp +contextual (maxDischargeDepth := 60) [h]
  · simp +contextual (maxDischargeDepth := 60) [ht]

@[simp] theorem kept_updSeq {s : State} (h : Kept P q u o s) (y1 : Nat) (f : SeqEnt → SeqEnt) :
    Kept P q u o (State.updSeq s y1 f) := by
  simp +contextual (maxDischargeDepth := 60) [State.updSeq, h]

@[simp] theorem kept_endSeq [PokeClosed P] {s : State} (h : Kept P q u o s) (y1 reason : Nat) :
    Kept P q u o (State.endSeq s y1 reason) := by
  simp +contextual (maxDischargeDepth := 60) [State.endSeq, h]

@[simp] theorem kept_landFail [PokeClosed P] {s : State} (h : Kept P q u o s) (l cause : Nat) :
    Kept P q u o (s.landFail l cause) := by
  unfold State.landFail
  extract_lets x s1
  have h1 : Kept P q u o s1 := by simp +contextual (maxDischargeDepth := 60) [s1, h]
  clear_value s1
  split
  · exact h
  · split
    · split <;> simp +contextual (maxDischargeDepth := 60) [h1]
    · split
      · split
        · simp +contextual (maxDischargeDepth := 60) [h1]
        · exact kept_report (kept_giveUpExpert ‹_› h1) _
      · split <;> simp +contextual (maxDischargeDepth := 60) [h1]
    · exact h1

@[simp] theorem kept_callLost [PokeClosed P] {s : State} (h : Kept P q u o s) (y1 : Unanswered) (l : Nat) :
    Kept P q u o (State.callLost s y1 l) := by
  (unfold State.callLost; repeat' split) <;> simp +contextual (maxDischargeDepth := 60) [*]

@[simp] theorem kept_answered [PokeClosed P] {s : State} (h : Kept P q u o s) (y1 : Unanswered) (status reason : Nat) :
    Kept P q u o (State.answered s y1 status reason) := by
  (unfold State.answered; repeat' split) <;> simp +contextual (maxDischargeDepth := 60) [*]

@[simp] theorem kept_queueReq {s : State} (h : Kept P q u o s) (y1 : Unanswered) : Kept P q u o (State.queueReq s y1) := by
  simp +contextual (maxDischargeDepth := 60) [State.queueReq, h]

@[simp] theorem kept_numberNext {s : State} (h : Kept P q u o s)  : Kept P q u o (State.numberNext s) := by
  simp +contextual (maxDischargeDepth := 60) [State.numberNext, h]

@[simp] theorem kept_dropUnanswered {s : State} (h : Kept P q u o s) (y1 : Unanswered) :
    Kept P q u o (State.dropUnanswered s y1) := by
  simp +contextual (maxDischargeDepth := 60) [State.dropUnanswered, h]

@[simp] theorem kept_takeAck [PokeClosed P] {s : State} (h : Kept P q u o s) (p : Parcel) (seq status reason : Nat) :
    Kept P q u o (State.takeAck s p seq status reason) := by
  (unfold State.takeAck; repeat' split) <;> simp +contextual (maxDischargeDepth := 60) [*]

@[simp] theorem kept_syncFail {s : State} (h : Kept P q u o s) (y1 : SyncReq) (cause : Nat) :
    Kept P q u o (State.syncFail s y1 cause) := by
  (unfold State.syncFail; repeat' split) <;> simp +contextual (maxDischargeDepth := 60) [*]

@[simp] theorem kept_xlatPush {s : State} (h : Kept P q u o s) (y1 : SyncReq) : Kept P q u o (State.xlatPush s y1) := by
  simp +contextual (maxDischargeDepth := 60) [State.xlatPush, h]

@[simp] theorem kept_dropWaiter {s : State} (h : Kept P q u o s) (key : Nat) (w : Waiter) :
    Kept P q u o (State.dropWaiter s key w) := by
  simp +contextual (maxDischargeDepth := 60) [State.dropWaiter, h]

@[simp] theorem kept_waitDone {s : State} (h : Kept P q u o s) (key k sc : Nat) : Kept P q u o (State.waitDone s key k sc) := by
  simp +contextual (maxDischargeDepth := 60) [State.waitDone, h]

@[simp] theorem kept_releaseOk {s : State} (h : Kept P q u o s) (key : Nat) (w : Waiter) :
    Kept P q u o (State.releaseOk s key w) := by
  simp +contextual (maxDischargeDepth := 60) [State.releaseOk, h]

@[simp] theorem kept_testWaiters {s : State} (h : Kept P q u o s) (key : Nat) : Kept P q u o (State.testWaiters s key) := by
  simp +contextual (maxDischargeDepth := 60) [State.testWaiters, h]

@[simp] theorem kept_objTested {s : State} (h : Kept P q u o s) (key : Nat) : Kept P q u o (State.objTested s key) := by
  simp +contextual (maxDischargeDepth := 60) [State.objTested, h]

@[simp] theorem kept_mirrorAll {s : State} (h : Kept P q u o s) (key : Nat) : Kept P q u o (State.mirrorAll s key) := by
  simp +contextual (maxDischargeDepth := 60) [State.mirrorAll, h]

@[simp] theorem kept_objChanged {s : State} (h : Kept P q u o s) (key : Nat) : Kept P q u o (State.objChanged s key) := by
  simp +contextual (maxDischargeDepth := 60) [State.objChanged, h]

@[simp] theorem kept_setFlag {s : State} (h : Kept P q u o s) (key c : Nat) : Kept P q u o (State.setFlag s key c) := by
  simp +contextual (maxDischargeDepth := 60) [State.setFlag, h]

@[simp] theorem kept_answerWait {s : State} (h : Kept P q u o s) (key : Nat) (y2 : SyncReq) (y3 : Answer) (w : Nat) :
    Kept P q u o (State.answerWait s key y2 y3 w) := by
  (unfold State.answerWait; repeat' split) <;> simp +contextual (maxDischargeDepth := 60) [*]

@[simp] theorem kept_grant {s : State} (h : Kept P q u o s) (key c : Nat) (y3 : Option Nat) :
    Kept P q u o (State.grant s key c y3) := by
  (unfold State.grant; repeat' split) <;> simp +contextual (maxDischargeDepth := 60) [*]

@[simp] theorem kept_tryClaimOn {s : State} (h : Kept P q u o s) (key : Nat) (y2 : SyncReq) :
    Kept P q u o (State.tryClaimOn s key y2) := by
  (unfold State.tryClaimOn; repeat' split) <;> simp +contextual (maxDischargeDepth := 60) [*]

@[simp] theorem kept_clearFlag {s : State} (h : Kept P q u o s) (key : Nat) : Kept P q u o (State.clearFlag s key) := by
  simp +contextual (maxDischargeDepth := 60) [State.clearFlag, h]

@[simp] theorem kept_enlist {s : State} (h : Kept P q u o s) (key : Nat) (y2 : SyncReq) (w : BitVec 64) (claimer : Bool) (cond thr : Nat) : Kept P q u o (State.enlist s key y2 w claimer cond thr) := by
  (unfold State.enlist; repeat' split) <;> simp +contextual (maxDischargeDepth := 60) [*]

@[simp] theorem kept_waitOn {s : State} (h : Kept P q u o s) (key : Nat) (y2 : SyncReq) (w : BitVec 64) (cond thr : Nat) : Kept P q u o (State.waitOn s key y2 w cond thr) := by
  (unfold State.waitOn; repeat' split) <;> simp +contextual (maxDischargeDepth := 60) [*]

@[simp] theorem kept_signalDone {s : State} (h : Kept P q u o s) (y1 : SyncReq) : Kept P q u o (State.signalDone s y1) := by
  (unfold State.signalDone; repeat' split) <;> simp +contextual (maxDischargeDepth := 60) [*]

@[simp] theorem kept_coverWrites {s : State} (h : Kept P q u o s) (key y2 : Nat) :
    Kept P q u o (State.coverWrites s key y2) := by
  simp +contextual (maxDischargeDepth := 60) [State.coverWrites, h]

@[simp] theorem kept_signalled {s : State} (h : Kept P q u o s) (key : Nat) (r : SyncReq) :
    Kept P q u o (s.signalled key r) := by
  unfold State.signalled
  apply kept_updObj
  split <;> simp +contextual (maxDischargeDepth := 60) [h]

@[simp] theorem kept_claimOn {s : State} (h : Kept P q u o s) (key : Nat) (y2 : SyncReq) (w : BitVec 64) :
    Kept P q u o (State.claimOn s key y2 w) := by
  (unfold State.claimOn; repeat' (first
    | simp +contextual (maxDischargeDepth := 60) [*]
    | (refine kept_writeBytes (by assumption) ?_)
    | (refine kept_openAll_eq (by assumption) ?_)
    | (refine kept_fanPassTwo_eq (by assumption) ?_)
    | (refine kept_takeBack_eq (by assumption) ?_)
    | (refine kept_inspRead_eq (by assumption) ?_)
    | (refine kept_readReg_eq (by assumption) ?_)
    | (refine kept_readLow_eq (by assumption) ?_)
    | (refine kept_readHigh_eq (by assumption) ?_)
    | (refine kept_readPart_eq (by assumption) ?_)
    | (refine kept_readPage (by assumption) ?_)
    | (refine kept_readData (by assumption) ?_)
    | (refine kept_slotWrite_eq (by assumption) ?_)
    | (refine kept_readEdges_eq (by assumption) ?_)
    | (refine kept_checkNode_eq (by assumption) ?_)
    | (refine kept_each _ _ ?_ ?_)
    | split
    | intro _
    | dsimp only
    ))

@[simp] theorem kept_endDonation {s : State} (h : Kept P q u o s) (key : Nat) : Kept P q u o (State.endDonation s key) := by
  simp +contextual (maxDischargeDepth := 60) [State.endDonation, h]

@[simp] theorem kept_forgetClaim {s : State} (h : Kept P q u o s) (key : Nat) : Kept P q u o (State.forgetClaim s key) := by
  simp +contextual (maxDischargeDepth := 60) [State.forgetClaim, h]

@[simp] theorem kept_release {s : State} (h : Kept P q u o s) (key c : Nat) : Kept P q u o (State.release s key c) := by
  (unfold State.release; repeat' (first
    | simp +contextual (maxDischargeDepth := 60) [*]
    | (refine kept_writeBytes (by assumption) ?_)
    | (refine kept_openAll_eq (by assumption) ?_)
    | (refine kept_fanPassTwo_eq (by assumption) ?_)
    | (refine kept_takeBack_eq (by assumption) ?_)
    | (refine kept_inspRead_eq (by assumption) ?_)
    | (refine kept_readReg_eq (by assumption) ?_)
    | (refine kept_readLow_eq (by assumption) ?_)
    | (refine kept_readHigh_eq (by assumption) ?_)
    | (refine kept_readPart_eq (by assumption) ?_)
    | (refine kept_readPage (by assumption) ?_)
    | (refine kept_readData (by assumption) ?_)
    | (refine kept_slotWrite_eq (by assumption) ?_)
    | (refine kept_readEdges_eq (by assumption) ?_)
    | (refine kept_checkNode_eq (by assumption) ?_)
    | (refine kept_each _ _ ?_ ?_)
    | split
    | intro _
    | dsimp only
    ))

@[simp] theorem kept_advance {s : State} (h : Kept P q u o s) (key amt c : Nat) : Kept P q u o (State.advance s key amt c) := by
  simp +contextual (maxDischargeDepth := 60) [State.advance, h]

@[simp] theorem kept_applyOp {s : State} (h : Kept P q u o s) (key : Nat) (y2 : SyncReq) (w : BitVec 64) :
    Kept P q u o (State.applyOp s key y2 w) := by
  (unfold State.applyOp; repeat' split) <;> simp +contextual (maxDischargeDepth := 60) [*]

@[simp] theorem kept_countOp {s : State} (h : Kept P q u o s) (y1 : SyncReq) : Kept P q u o (State.countOp s y1) := by
  (unfold State.countOp; repeat' split) <;> simp +contextual (maxDischargeDepth := 60) [*]

@[simp] theorem kept_sendReq {s : State} (h : Kept P q u o s) (c dst : Nat) (b : PBody) (y4 : Asker) :
    Kept P q u o (State.sendReq s c dst b y4) := by
  simp +contextual (maxDischargeDepth := 60) [State.sendReq, h]

@[simp] theorem kept_sendSignal {s : State} (h : Kept P q u o s) (y1 : SyncReq) (w : BitVec 64) :
    Kept P q u o (State.sendSignal s y1 w) := by
  (unfold State.sendSignal; repeat' split) <;> simp +contextual (maxDischargeDepth := 60) [*]

@[simp] theorem kept_withEntry {s : State} (h : Kept P q u o s) (y1 : SyncReq) (w : BitVec 64) :
    Kept P q u o (State.withEntry s y1 w) := by
  (unfold State.withEntry; repeat' split) <;> simp +contextual (maxDischargeDepth := 60) [*]

@[simp] theorem kept_syncOp {s : State} (h : Kept P q u o s) (r : SyncReq) : Kept P q u o (s.syncOp r) := by
  unfold State.syncOp
  extract_lets s1
  have h1 : Kept P q u o s1 := by simp +contextual (maxDischargeDepth := 60) [s1, h]
  clear_value s1
  split
  · simp +contextual (maxDischargeDepth := 60) [h1]
  split
  · simp +contextual (maxDischargeDepth := 60) [h1]
  split
  · split <;> simp +contextual (maxDischargeDepth := 60) [h1]
  · simp +contextual (maxDischargeDepth := 60) [h1]

@[simp] theorem kept_takeSignal {s : State} (h : Kept P q u o s) (p : Parcel) (vid op : Nat) (c amt : Nat) :
    Kept P q u o (State.takeSignal s p vid op c amt) := by
  (unfold State.takeSignal; repeat' split) <;> simp +contextual (maxDischargeDepth := 60) [*]

@[simp] theorem kept_updCall {s : State} (h : Kept P q u o s) (y1 : Nat) (f : CallSlot → CallSlot) :
    Kept P q u o (State.updCall s y1 f) := by
  simp +contextual (maxDischargeDepth := 60) [State.updCall, h]

@[simp] theorem kept_takeNodes {s : State} (h : Kept P q u o s) (c b n : Nat) (y4 : DynOwner) :
    Kept P q u o (State.takeNodes s c b n y4) := by
  simp +contextual (maxDischargeDepth := 60) [State.takeNodes, h]

@[simp] theorem kept_takeEdges {s : State} (h : Kept P q u o s) (c b n : Nat) (y4 : DynOwner) :
    Kept P q u o (State.takeEdges s c b n y4) := by
  simp +contextual (maxDischargeDepth := 60) [State.takeEdges, h]

theorem kept_reserve {s t : State} {c nNodes nEdges : Nat} {y4 : DynOwner} {x : Nat × Nat}
    (e : State.reserve s c nNodes nEdges y4 = some (t, x)) (h : Kept P q u o s) : Kept P q u o t := by
  (unfold State.reserve at e; repeat' (first
    | (cases e; simp +contextual (maxDischargeDepth := 60) [*]; done)
    | (refine kept_writeBytes (by assumption) ?_)
    | (refine kept_openAll_eq (by assumption) ?_)
    | (refine kept_fanPassTwo_eq (by assumption) ?_)
    | (refine kept_takeBack_eq (by assumption) ?_)
    | (refine kept_inspRead_eq (by assumption) ?_)
    | (refine kept_readReg_eq (by assumption) ?_)
    | (refine kept_readLow_eq (by assumption) ?_)
    | (refine kept_readHigh_eq (by assumption) ?_)
    | (refine kept_readPart_eq (by assumption) ?_)
    | (refine kept_readPage (by assumption) ?_)
    | (refine kept_readData (by assumption) ?_)
    | (refine kept_slotWrite_eq (by assumption) ?_)
    | (refine kept_readEdges_eq (by assumption) ?_)
    | (refine kept_checkNode_eq (by assumption) ?_)
    | split at e
    | cases e
    | dsimp only at e))

theorem kept_reserveSprouts {c : Nat} : ∀ {l : List Nat} {s t : State}, s.reserveSprouts c l = .ok t →
    Kept P q u o s → Kept P q u o t := by
  intro l
  induction l with
  | nil => intro s t e h; cases e; exact h
  | cons k l ih =>
    intro s t e h
    unfold State.reserveSprouts at e
    dsimp only at e
    split at e
    · split at e
      · cases e
      · exact ih e (kept_updNode (kept_reserve ‹_› h) _ _)
    · exact ih e h

@[simp] theorem kept_arm {s : State} (h : Kept P q u o s) (k : Nat) : Kept P q u o (State.arm s k) := by
  simp +contextual (maxDischargeDepth := 60) [State.arm, h]

@[simp] theorem kept_setEdge {s : State} (h : Kept P q u o s) (k : Nat) (v : BitVec 32) :
    Kept P q u o (State.setEdge s k v) := by
  simp +contextual (maxDischargeDepth := 60) [State.setEdge, h]

theorem kept_reserveInst {s t : State} {c : Nat} {l : List Nat} (e : s.reserveInst c l = some t) (h : Kept P q u o s) :
    Kept P q u o t := by
  unfold State.reserveInst at e
  split at e
  · cases e; exact kept_reserveSprouts ‹_› h
  · cases e

theorem kept_instantiate {s t : State} {c base count : Nat} {w : InstFor} {chg : Desc → Desc}
    (e : s.instantiate c base count w chg = .ok t) (h : Kept P q u o s) : Kept P q u o t := by
  unfold State.instantiate at e
  dsimp only at e
  split at e
  · cases e
  · split at e
    · cases e
    · split at e
      · cases e
      · rename_i s1 n0 e0 hr
        have h1 := kept_reserve hr h
        split at e
        · cases e
        · cases e
          refine kept_each _ _ (fun _ _ h => by split <;> simp +contextual (maxDischargeDepth := 60) [h]) ?_
          refine kept_reserveInst ‹_› ?_
          exact kept_each _ _ (fun _ _ h => by simp +contextual (maxDischargeDepth := 60) [h]) (kept_each _ _ (fun _ _ h => by simp +contextual (maxDischargeDepth := 60) [h]) h1)

theorem kept_serve [PokeClosed P] {s t : State} {e : Nat} {p : Parcel} (hs : s.serve e p = some t) (h : Kept P q u o s) : Kept P q u o t := by
  unfold State.serve at hs
  dsimp only at hs
  split at hs
  · split at hs
    · cases hs
    · cases hs; simp +contextual (maxDischargeDepth := 60) [h]
    · have h1 := kept_instantiate ‹_› h
      split at hs
      · cases hs; simp +contextual (maxDischargeDepth := 60) [h1]
      · have h2 := kept_writeBytes ‹_› h1
        cases hs
        simp +contextual (maxDischargeDepth := 60) [h2]
  · cases hs; exact h

@[simp] theorem kept_freeCall {s : State} (h : Kept P q u o s) (y1 : Nat) : Kept P q u o (State.freeCall s y1) := by
  simp +contextual (maxDischargeDepth := 60) [State.freeCall, h]

@[simp] theorem kept_tryCall [PokeClosed P] {s : State} (h : Kept P q u o s) (p : Parcel) (expert : Nat) :
    Kept P q u o (State.tryCall s p expert).1 := by
  (unfold State.tryCall; repeat' (first
    | simp +contextual (maxDischargeDepth := 60) [*]
    | (refine kept_writeBytes (by assumption) ?_)
    | (refine kept_openAll_eq (by assumption) ?_)
    | (refine kept_fanPassTwo_eq (by assumption) ?_)
    | (refine kept_takeBack_eq (by assumption) ?_)
    | (refine kept_inspRead_eq (by assumption) ?_)
    | (refine kept_readReg_eq (by assumption) ?_)
    | (refine kept_readLow_eq (by assumption) ?_)
    | (refine kept_readHigh_eq (by assumption) ?_)
    | (refine kept_readPart_eq (by assumption) ?_)
    | (refine kept_readPage (by assumption) ?_)
    | (refine kept_readData (by assumption) ?_)
    | (refine kept_slotWrite_eq (by assumption) ?_)
    | (refine kept_readEdges_eq (by assumption) ?_)
    | (refine kept_checkNode_eq (by assumption) ?_)
    | (refine kept_reserve (by assumption) ?_)
    | (refine kept_serve (by assumption) ?_)
    | (refine kept_each _ _ ?_ ?_)
    | split
    | intro _
    | dsimp only
    ))
theorem kept_tryCall_eq [PokeClosed P] {s t : State} {p : Parcel} {expert : Nat} {x : (Bool)}
    (e : State.tryCall s p expert = (t, x)) (h : Kept P q u o s) : Kept P q u o t := by
  have := kept_tryCall (P := P) (q := q) (u := u) (o := o) h p expert
  rw [e] at this
  exact this

@[simp] theorem kept_staleReturn {s : State} (h : Kept P q u o s) (l epoch : Nat) (tell : Bool) :
    Kept P q u o (State.staleReturn s l epoch tell) := by
  simp +contextual (maxDischargeDepth := 60) [State.staleReturn, h]

@[simp] theorem kept_takeReturn [PokeClosed P] {s : State} (h : Kept P q u o s) (l gen epoch off : Nat) (payload : List Byte) : Kept P q u o (s.takeReturn l gen epoch off payload) := by
  unfold State.takeReturn
  dsimp only
  split
  · simp +contextual (maxDischargeDepth := 60) [h]
  · split
    · simp +contextual (maxDischargeDepth := 60) [h]
    · split
      · simp +contextual (maxDischargeDepth := 60) [h]
      · split
        · simp +contextual (maxDischargeDepth := 60) [h]
        · split
          · simp +contextual (maxDischargeDepth := 60) [h]
          · have h1 := kept_writeBytes ‹_› h
            split
            · split <;> simp +contextual (maxDischargeDepth := 60) [h1]
            · simp +contextual (maxDischargeDepth := 60) [h1]

@[simp] theorem kept_judgePort {s : State} (h : Kept P q u o s) (k : Nat) : Kept P q u o (State.judgePort s k) := by
  simp +contextual (maxDischargeDepth := 60) [State.judgePort, h]

@[simp] theorem kept_takeHello {s : State} (h : Kept P q u o s) (k : Nat) (p : Parcel) (far : Nat) (seen : Bool) (lo hi system : Nat) (credits : List Nat) : Kept P q u o (State.takeHello s k p far seen lo hi system credits) := by
  simp +contextual (maxDischargeDepth := 60) [State.takeHello, h]

@[simp] theorem kept_decOk {s : State} (h : Kept P q u o s) (f : DecFrom) : Kept P q u o (State.decOk s f) := by
  (unfold State.decOk; repeat' split) <;> simp +contextual (maxDischargeDepth := 60) [*]

@[simp] theorem kept_decNo {s : State} (h : Kept P q u o s) (f : DecFrom) (reason : Nat) :
    Kept P q u o (State.decNo s f reason) := by
  (unfold State.decNo; repeat' split) <;> simp +contextual (maxDischargeDepth := 60) [*]

@[simp] theorem kept_decJudge {s : State} (h : Kept P q u o s) (f : DecFrom) : Kept P q u o (State.decJudge s f) := by
  (unfold State.decJudge; repeat' split) <;> simp +contextual (maxDischargeDepth := 60) [*]

@[simp] theorem kept_takeMarker {s : State} (h : Kept P q u o s) (k id : Nat) : Kept P q u o (State.takeMarker s k id) := by
  simp +contextual (maxDischargeDepth := 60) [State.takeMarker, h]

@[simp] theorem kept_parcelHere [PokeClosed P] {s : State} (h : Kept P q u o s) (k : Nat) (p : Parcel) :
    Kept P q u o (State.parcelHere s k p).1 := by
  (unfold State.parcelHere; repeat' (first
    | simp +contextual (maxDischargeDepth := 60) [*]
    | (refine kept_writeBytes (by assumption) ?_)
    | (refine kept_openAll_eq (by assumption) ?_)
    | (refine kept_fanPassTwo_eq (by assumption) ?_)
    | (refine kept_takeBack_eq (by assumption) ?_)
    | (refine kept_inspRead_eq (by assumption) ?_)
    | (refine kept_readReg_eq (by assumption) ?_)
    | (refine kept_readLow_eq (by assumption) ?_)
    | (refine kept_readHigh_eq (by assumption) ?_)
    | (refine kept_readPart_eq (by assumption) ?_)
    | (refine kept_readPage (by assumption) ?_)
    | (refine kept_readData (by assumption) ?_)
    | (refine kept_slotWrite_eq (by assumption) ?_)
    | (refine kept_readEdges_eq (by assumption) ?_)
    | (refine kept_checkNode_eq (by assumption) ?_)
    | (refine kept_reserve (by assumption) ?_)
    | (refine kept_serve (by assumption) ?_)
    | (refine kept_tryCall_eq (by assumption) ?_)
    | (refine kept_each _ _ ?_ ?_)
    | split
    | intro _
    | dsimp only
    ))
theorem kept_parcelHere_eq [PokeClosed P] {s t : State} {k : Nat} {p : Parcel} {x : (Bool)}
    (e : State.parcelHere s k p = (t, x)) (h : Kept P q u o s) : Kept P q u o t := by
  have := kept_parcelHere (P := P) (q := q) (u := u) (o := o) h k p
  rw [e] at this
  exact this

@[simp] theorem kept_judgeE2e {s : State} (h : Kept P q u o s) (p : Parcel) : Kept P q u o (State.judgeE2e s p).1 := by
  (unfold State.judgeE2e; repeat' (first
    | simp +contextual (maxDischargeDepth := 60) [*]
    | (refine kept_writeBytes (by assumption) ?_)
    | (refine kept_openAll_eq (by assumption) ?_)
    | (refine kept_fanPassTwo_eq (by assumption) ?_)
    | (refine kept_takeBack_eq (by assumption) ?_)
    | (refine kept_inspRead_eq (by assumption) ?_)
    | (refine kept_readReg_eq (by assumption) ?_)
    | (refine kept_readLow_eq (by assumption) ?_)
    | (refine kept_readHigh_eq (by assumption) ?_)
    | (refine kept_readPart_eq (by assumption) ?_)
    | (refine kept_readPage (by assumption) ?_)
    | (refine kept_readData (by assumption) ?_)
    | (refine kept_slotWrite_eq (by assumption) ?_)
    | (refine kept_readEdges_eq (by assumption) ?_)
    | (refine kept_checkNode_eq (by assumption) ?_)
    | (refine kept_reserve (by assumption) ?_)
    | (refine kept_serve (by assumption) ?_)
    | (refine kept_tryCall_eq (by assumption) ?_)
    | (refine kept_parcelHere_eq (by assumption) ?_)
    | (refine kept_each _ _ ?_ ?_)
    | split
    | intro _
    | dsimp only
    ))
theorem kept_judgeE2e_eq {s t : State} {p : Parcel} {x : (Bool)}
    (e : State.judgeE2e s p = (t, x)) (h : Kept P q u o s) : Kept P q u o t := by
  have := kept_judgeE2e (P := P) (q := q) (u := u) (o := o) h p
  rw [e] at this
  exact this

@[simp] theorem kept_ttlDrop {s : State} (h : Kept P q u o s) (p : Parcel) : Kept P q u o (State.ttlDrop s p) := by
  simp +contextual (maxDischargeDepth := 60) [State.ttlDrop, h]

@[simp] theorem kept_forward {s : State} (h : Kept P q u o s) (p : Parcel) : Kept P q u o (State.forward s p) := by
  (unfold State.forward; repeat' split) <;> simp +contextual (maxDischargeDepth := 60) [*]

@[simp] theorem kept_parcelTests [PokeClosed P] {s : State} (h : Kept P q u o s) (k : Nat) (p : Parcel) :
    Kept P q u o (State.parcelTests s k p).1 := by
  (unfold State.parcelTests; repeat' (first
    | simp +contextual (maxDischargeDepth := 60) [*]
    | (refine kept_writeBytes (by assumption) ?_)
    | (refine kept_openAll_eq (by assumption) ?_)
    | (refine kept_fanPassTwo_eq (by assumption) ?_)
    | (refine kept_takeBack_eq (by assumption) ?_)
    | (refine kept_inspRead_eq (by assumption) ?_)
    | (refine kept_readReg_eq (by assumption) ?_)
    | (refine kept_readLow_eq (by assumption) ?_)
    | (refine kept_readHigh_eq (by assumption) ?_)
    | (refine kept_readPart_eq (by assumption) ?_)
    | (refine kept_readPage (by assumption) ?_)
    | (refine kept_readData (by assumption) ?_)
    | (refine kept_slotWrite_eq (by assumption) ?_)
    | (refine kept_readEdges_eq (by assumption) ?_)
    | (refine kept_checkNode_eq (by assumption) ?_)
    | (refine kept_reserve (by assumption) ?_)
    | (refine kept_serve (by assumption) ?_)
    | (refine kept_tryCall_eq (by assumption) ?_)
    | (refine kept_parcelHere_eq (by assumption) ?_)
    | (refine kept_judgeE2e_eq (by assumption) ?_)
    | (refine kept_each _ _ ?_ ?_)
    | split
    | intro _
    | dsimp only
    ))
theorem kept_parcelTests_eq [PokeClosed P] {s t : State} {k : Nat} {p : Parcel} {x : (Bool)}
    (e : State.parcelTests s k p = (t, x)) (h : Kept P q u o s) : Kept P q u o t := by
  have := kept_parcelTests (P := P) (q := q) (u := u) (o := o) h k p
  rw [e] at this
  exact this

@[simp] theorem kept_takeHead [PokeClosed P] {s : State} (h : Kept P q u o s) (k y2 : Nat) :
    Kept P q u o (State.takeHead s k y2) := by
  (unfold State.takeHead; repeat' (first
    | simp +contextual (maxDischargeDepth := 60) [*]
    | (refine kept_writeBytes (by assumption) ?_)
    | (refine kept_openAll_eq (by assumption) ?_)
    | (refine kept_fanPassTwo_eq (by assumption) ?_)
    | (refine kept_takeBack_eq (by assumption) ?_)
    | (refine kept_inspRead_eq (by assumption) ?_)
    | (refine kept_readReg_eq (by assumption) ?_)
    | (refine kept_readLow_eq (by assumption) ?_)
    | (refine kept_readHigh_eq (by assumption) ?_)
    | (refine kept_readPart_eq (by assumption) ?_)
    | (refine kept_readPage (by assumption) ?_)
    | (refine kept_readData (by assumption) ?_)
    | (refine kept_slotWrite_eq (by assumption) ?_)
    | (refine kept_readEdges_eq (by assumption) ?_)
    | (refine kept_checkNode_eq (by assumption) ?_)
    | (refine kept_reserve (by assumption) ?_)
    | (refine kept_serve (by assumption) ?_)
    | (refine kept_tryCall_eq (by assumption) ?_)
    | (refine kept_parcelHere_eq (by assumption) ?_)
    | (refine kept_judgeE2e_eq (by assumption) ?_)
    | (refine kept_parcelTests_eq (by assumption) ?_)
    | (refine kept_each _ _ ?_ ?_)
    | split
    | intro _
    | dsimp only
    ))

@[simp] theorem kept_takeParcels [PokeClosed P] {s : State} (h : Kept P q u o s) (k n : Nat) :
    Kept P q u o (s.takeParcels k n) := by
  induction n generalizing s with
  | zero => exact h
  | succ n ih =>
    unfold State.takeParcels
    split
    · exact h
    · split
      · exact h
      · exact ih (kept_takeHead h _ _)

@[simp] theorem kept_noisy {s : State} (h : Kept P q u o s)  : Kept P q u o (State.noisy s) := by
  simp +contextual (maxDischargeDepth := 60) [State.noisy, h]

@[simp] theorem kept_beatPacket {s : State} (h : Kept P q u o s) (y1 : Nat) : Kept P q u o (State.beatPacket s y1) := by
  simp +contextual (maxDischargeDepth := 60) [State.beatPacket, h]

@[simp] theorem kept_tickAccepted {s : State} (h : Kept P q u o s)  : Kept P q u o (State.tickAccepted s) := by
  simp +contextual (maxDischargeDepth := 60) [State.tickAccepted, h]

@[simp] theorem kept_sendBeats {s : State} (h : Kept P q u o s)  : Kept P q u o (State.sendBeats s) := by
  simp +contextual (maxDischargeDepth := 60) [State.sendBeats, h]

@[simp] theorem kept_relSkip {s : State} (h : Kept P q u o s) (i why : Nat) (w : List (BitVec 32)) :
    Kept P q u o (State.relSkip s i why w) := by
  simp +contextual (maxDischargeDepth := 60) [State.relSkip, h]

@[simp] theorem kept_relEntry {s : State} (h : Kept P q u o s) (i : Nat) (w : List (BitVec 32)) :
    Kept P q u o (s.relEntry i w) := by
 
  unfold State.relEntry
  dsimp only
  split
  · simp +contextual (maxDischargeDepth := 60) [h]
  · split
    · simp +contextual (maxDischargeDepth := 60) [h]
    · split
      · exact kept_settle (kept_setCmd (kept_updSlot (kept_instantiate ‹_› h) _ _) _ _ _)
      · simp +contextual (maxDischargeDepth := 60) [h]

@[simp] theorem kept_releases {s : State} (h : Kept P q u o s)  : Kept P q u o (State.releases s) := by
  simp +contextual (maxDischargeDepth := 60) [State.releases, h]

@[simp] theorem kept_tickMissed {s : State} (h : Kept P q u o s)  : Kept P q u o (State.tickMissed s) := by
  simp +contextual (maxDischargeDepth := 60) [State.tickMissed, h]

@[simp] theorem kept_beatNow {s : State} (h : Kept P q u o s) (v : Nat) (accepted : Bool) :
    Kept P q u o (State.beatNow s v accepted) := by
  simp +contextual (maxDischargeDepth := 60) [State.beatNow, h]

@[simp] theorem kept_pinEdge {s : State} (h : Kept P q u o s)  : Kept P q u o (State.pinEdge s) := by
  simp +contextual (maxDischargeDepth := 60) [State.pinEdge, h]

@[simp] theorem kept_say {s : State} (h : Kept P q u o s) (ws : List (BitVec 32)) : Kept P q u o (State.say s ws) := by
  simp +contextual (maxDischargeDepth := 60) [State.say, h]

@[simp] theorem kept_sayErr {s : State} (h : Kept P q u o s) (code : Nat) : Kept P q u o (State.sayErr s code) := by
  simp +contextual (maxDischargeDepth := 60) [State.sayErr, h]

@[simp] theorem kept_draoftStop [PokeClosed P] {s : State} (h : Kept P q u o s) (cmd : Nat) :
    Kept P q u o (State.draoftStop s cmd) := by
  simp +contextual (maxDischargeDepth := 60) [State.draoftStop, h]

@[simp] theorem kept_pushSnap {s : State} (h : Kept P q u o s) (y1 : Held) : Kept P q u o (State.pushSnap s y1) := by
  simp +contextual (maxDischargeDepth := 60) [State.pushSnap, h]

@[simp] theorem kept_draoftWrite [PokeClosed P] {s : State} (h : Kept P q u o s) (off : Nat) (v : BitVec 32) :
    Kept P q u o (State.draoftWrite s off v) := by
  (unfold State.draoftWrite; repeat' split) <;> simp +contextual (maxDischargeDepth := 60) [*]

theorem kept_draoftWords : ∀ {n off : Nat} {s : State} {x : List (BitVec 32) × State}, s.draoftWords off n = some x →
    Kept P q u o s → Kept P q u o x.2 := by
  intro n
  induction n with
  | zero => intro off s x e h; cases e; exact h
  | succ n ih =>
    intro off s x e h
    unfold State.draoftWords at e
    split at e
    · cases e
    · obtain ⟨y, e1, e2⟩ := Option.map_eq_some_iff.1 e
      rw [← e2]
      have := ih e1 (kept_readData ‹_› h)
      exact this

@[simp] theorem kept_draoftRun [PokeClosed P] {s : State} (h : Kept P q u o s) (i : Instr) : Kept P q u o (s.draoftRun i) := by
  cases i
  case draoftRd off n =>
    show Kept P q u o (match s.draoftWords off n with | none => s.sayErr 3 | some x => x.2.say x.1)
    split
    · exact kept_sayErr h _
    · exact kept_say (kept_draoftWords ‹_› h) _
  case draoftCnt => exact kept_say (kept_gcntSnapCmd h _) _
  case draoftTrig => exact kept_say (kept_trigger h _) _
  case draoftWr => exact kept_draoftWrite h _ _
  case draoftFreeze => exact kept_draoftStop h _
  case draoftQuiesce => exact kept_draoftStop h _
  case draoftSnap => exact kept_draoftStop (kept_setReg h _ _) _
  case draoftResume => exact kept_draoftStop h _
  case draoftHelp => exact kept_say h _
  case draoftId => exact kept_say h _
  case draoftStatus => exact kept_say h _
  case draoftObj => exact kept_say h _
  case draoftNode => exact kept_say h _
  case draoftDump => exact kept_say h _
  all_goals exact h

@[simp] theorem kept_draoftDo [PokeClosed P] {s : State} (h : Kept P q u o s) (i : Instr) :
    Kept P q u o (State.draoftDo s i) := by
  (unfold State.draoftDo; repeat' split) <;> simp +contextual (maxDischargeDepth := 60) [*]

@[simp] theorem kept_endSession {s : State} (h : Kept P q u o s)  : Kept P q u o (State.endSession s) := by
  simp +contextual (maxDischargeDepth := 60) [State.endSession, h]

@[simp] theorem kept_draoftNow [PokeClosed P] {s : State} (h : Kept P q u o s) (i : Instr) :
    Kept P q u o (State.draoftNow s i) := by
  simp +contextual (maxDischargeDepth := 60) [State.draoftNow, h]

@[simp] theorem kept_trickOver {s : State} (h : Kept P q u o s) (k : Nat) (y2 : Trick) :
    Kept P q u o (State.trickOver s k y2) := by
  simp +contextual (maxDischargeDepth := 60) [State.trickOver, h]

@[simp] theorem kept_dynServed {s : State} (h : Kept P q u o s) (k : Nat) : Kept P q u o (State.dynServed s k) := by
  simp +contextual (maxDischargeDepth := 60) [State.dynServed, h]

@[simp] theorem kept_noteHost {s : State} (h : Kept P q u o s) (space y2 : Nat) : Kept P q u o (State.noteHost s space y2) := by
  simp +contextual (maxDischargeDepth := 60) [State.noteHost, h]

@[simp] theorem kept_stale {s : State} (h : Kept P q u o s) (k : Nat) : Kept P q u o (State.stale s k) := by
  simp +contextual (maxDischargeDepth := 60) [State.stale, h]

@[simp] theorem kept_admitRefused {s : State} (h : Kept P q u o s) (k y2 : Nat) (cause c : Nat) :
    Kept P q u o (State.admitRefused s k y2 cause c) := by
  simp +contextual (maxDischargeDepth := 60) [State.admitRefused, h]

@[simp] theorem kept_setRoList {s : State} (h : Kept P q u o s) (k j : Nat) (l : List Nat) :
    Kept P q u o (State.setRoList s k j l) := by
  simp +contextual (maxDischargeDepth := 60) [State.setRoList, h]

@[simp] theorem kept_joinTail {s : State} (h : Kept P q u o s) (y1 : Nat) : Kept P q u o (State.joinTail s y1) := by
  (unfold State.joinTail; repeat' (first
    | simp +contextual (maxDischargeDepth := 60) [*]
    | (refine kept_writeBytes (by assumption) ?_)
    | (refine kept_openAll_eq (by assumption) ?_)
    | (refine kept_fanPassTwo_eq (by assumption) ?_)
    | (refine kept_takeBack_eq (by assumption) ?_)
    | (refine kept_inspRead_eq (by assumption) ?_)
    | (refine kept_readReg_eq (by assumption) ?_)
    | (refine kept_readLow_eq (by assumption) ?_)
    | (refine kept_readHigh_eq (by assumption) ?_)
    | (refine kept_readPart_eq (by assumption) ?_)
    | (refine kept_readPage (by assumption) ?_)
    | (refine kept_readData (by assumption) ?_)
    | (refine kept_slotWrite_eq (by assumption) ?_)
    | (refine kept_readEdges_eq (by assumption) ?_)
    | (refine kept_checkNode_eq (by assumption) ?_)
    | (refine kept_reserve (by assumption) ?_)
    | (refine kept_serve (by assumption) ?_)
    | (refine kept_tryCall_eq (by assumption) ?_)
    | (refine kept_parcelHere_eq (by assumption) ?_)
    | (refine kept_judgeE2e_eq (by assumption) ?_)
    | (refine kept_parcelTests_eq (by assumption) ?_)
    | (refine kept_each _ _ ?_ ?_)
    | split
    | intro _
    | dsimp only
    ))

@[simp] theorem kept_extend {s : State} (h : Kept P q u o s) (k y2 : Nat) (tokens prompt c : Nat) :
    Kept P q u o (State.extend s k y2 tokens prompt c) := by
  (unfold State.extend; repeat' (first
    | simp +contextual (maxDischargeDepth := 60) [*]
    | (refine kept_writeBytes (by assumption) ?_)
    | (refine kept_openAll_eq (by assumption) ?_)
    | (refine kept_fanPassTwo_eq (by assumption) ?_)
    | (refine kept_takeBack_eq (by assumption) ?_)
    | (refine kept_inspRead_eq (by assumption) ?_)
    | (refine kept_readReg_eq (by assumption) ?_)
    | (refine kept_readLow_eq (by assumption) ?_)
    | (refine kept_readHigh_eq (by assumption) ?_)
    | (refine kept_readPart_eq (by assumption) ?_)
    | (refine kept_readPage (by assumption) ?_)
    | (refine kept_readData (by assumption) ?_)
    | (refine kept_slotWrite_eq (by assumption) ?_)
    | (refine kept_readEdges_eq (by assumption) ?_)
    | (refine kept_checkNode_eq (by assumption) ?_)
    | (refine kept_reserve (by assumption) ?_)
    | (refine kept_serve (by assumption) ?_)
    | (refine kept_tryCall_eq (by assumption) ?_)
    | (refine kept_parcelHere_eq (by assumption) ?_)
    | (refine kept_judgeE2e_eq (by assumption) ?_)
    | (refine kept_parcelTests_eq (by assumption) ?_)
    | (refine kept_each _ _ ?_ ?_)
    | split
    | intro _
    | dsimp only
    ))

@[simp] theorem kept_applyKept {s : State} (h : Kept P q u o s) (k y2 c : Nat) : Kept P q u o (State.applyKept s k y2 c) := by
  simp +contextual (maxDischargeDepth := 60) [State.applyKept, h]

theorem kept_seqEnd [PokeClosed P] {s t : State} {k : Nat} {y2 : Trick} {i : Nat} {y4 : TrickSeq} 
    (e : State.seqEnd s k y2 i y4 = some t) (h : Kept P q u o s) : Kept P q u o t := by
  unfold State.seqEnd at e
  dsimp only at e
  split at e
  · cases e
  · cases e
    apply kept_applyKept
    repeat' with_reducible first
      | exact h
      | refine kept_ite.2 ⟨fun _ => ?_, fun _ => ?_⟩
      | apply kept_endSeq
      | apply kept_joinTail
      | apply kept_updSeq
      | apply kept_bump
      | apply kept_noteHost

theorem kept_seqEnds [PokeClosed P] {k : Nat} {tr : Trick} : ∀ {l : List TrickSeq} {i : Nat} {s t : State}, s.seqEnds k tr i l = some t →
    Kept P q u o s → Kept P q u o t := by
  intro l
  induction l with
  | nil => intro i s t e h; cases e; exact h
  | cons x l ih =>
    intro i s t e h
    unfold State.seqEnds at e
    split at e
    · cases e
    · exact ih e (kept_seqEnd ‹_› h)

@[simp] theorem kept_joinHead {s : State} (h : Kept P q u o s) (y1 : Nat) : Kept P q u o (State.joinHead s y1) := by
  (unfold State.joinHead; repeat' (first
    | simp +contextual (maxDischargeDepth := 60) [*]
    | (refine kept_writeBytes (by assumption) ?_)
    | (refine kept_openAll_eq (by assumption) ?_)
    | (refine kept_fanPassTwo_eq (by assumption) ?_)
    | (refine kept_takeBack_eq (by assumption) ?_)
    | (refine kept_inspRead_eq (by assumption) ?_)
    | (refine kept_readReg_eq (by assumption) ?_)
    | (refine kept_readLow_eq (by assumption) ?_)
    | (refine kept_readHigh_eq (by assumption) ?_)
    | (refine kept_readPart_eq (by assumption) ?_)
    | (refine kept_readPage (by assumption) ?_)
    | (refine kept_readData (by assumption) ?_)
    | (refine kept_slotWrite_eq (by assumption) ?_)
    | (refine kept_readEdges_eq (by assumption) ?_)
    | (refine kept_checkNode_eq (by assumption) ?_)
    | (refine kept_reserve (by assumption) ?_)
    | (refine kept_serve (by assumption) ?_)
    | (refine kept_tryCall_eq (by assumption) ?_)
    | (refine kept_parcelHere_eq (by assumption) ?_)
    | (refine kept_judgeE2e_eq (by assumption) ?_)
    | (refine kept_parcelTests_eq (by assumption) ?_)
    | (refine kept_seqEnd (by assumption) ?_)
    | (refine kept_each _ _ ?_ ?_)
    | split
    | intro _
    | dsimp only
    ))

@[simp] theorem kept_restoreSeqs [PokeClosed P] {s : State} (h : Kept P q u o s) (k : Nat) (y2 : Trick) :
    Kept P q u o (State.restoreSeqs s k y2) := by
  simp +contextual (maxDischargeDepth := 60) [State.restoreSeqs, h]

@[simp] theorem kept_trickEnd [PokeClosed P] {s : State} (h : Kept P q u o s) (k : Nat) : Kept P q u o (s.trickEnd k) := by
  unfold State.trickEnd
  split
  · exact h
  · split
    · exact h
    · dsimp only
      split
      · simp +contextual (maxDischargeDepth := 60) [h]
      · rename_i v heq
        have h1 : Kept P q u o v := by
          split at heq
          · cases heq; simp +contextual (maxDischargeDepth := 60) [h]
          · exact kept_seqEnds heq h
        split <;> simp +contextual (maxDischargeDepth := 60) [h1]

@[simp] theorem kept_refuse {s : State} (h : Kept P q u o s) (c : Nat) (y2 : Option (Nat × Nat)) (cause detail : Nat) :
    Kept P q u o (State.refuse s c y2 cause detail) := by
  (unfold State.refuse; repeat' split) <;> simp +contextual (maxDischargeDepth := 60) [*]

@[simp] theorem kept_popHead {s : State} (h : Kept P q u o s) (n : Nat) : Kept P q u o (State.popHead s n) := by
  simp +contextual (maxDischargeDepth := 60) [State.popHead, h]

@[simp] theorem kept_latchDrop {s : State} (h : Kept P q u o s) (n lost : Nat) : Kept P q u o (State.latchDrop s n lost) := by
  simp +contextual (maxDischargeDepth := 60) [State.latchDrop, h]

@[simp] theorem kept_payObs {s : State} (h : Kept P q u o s) (granules : Nat) : Kept P q u o (State.payObs s granules) := by
  simp +contextual (maxDischargeDepth := 60) [State.payObs, h]

@[simp] theorem kept_latchPut [PokeClosed P] {s : State} (h : Kept P q u o s) (r : LatchRec) : Kept P q u o (s.latchPut r) := by
  unfold State.latchPut
  extract_lets wr a
  split
  · simp +contextual (maxDischargeDepth := 60) [h]
  · have h1 := kept_writeBytes ‹_› h
    simp +contextual (maxDischargeDepth := 60) [h1]

@[simp] theorem kept_latch [PokeClosed P] {s : State} (h : Kept P q u o s) (n seq user phase status : Nat) :
    Kept P q u o (s.latch n seq user phase status) := by
  unfold State.latch
  split
  · extract_lets lost r s1
    have h1 : Kept P q u o s1 := by simp +contextual (maxDischargeDepth := 60) [s1, h]
    clear_value s1
    split
    · exact kept_latchPut h1 _
    · exact kept_mk h1 ..
  · simp +contextual (maxDischargeDepth := 60) [h]

@[simp] theorem kept_assign [PokeClosed P] {s : State} (h : Kept P q u o s) (n : Nat) (d : RingDesc) :
    Kept P q u o (State.assign s n d) := by
  simp +contextual (maxDischargeDepth := 60) [State.assign, h]

@[simp] theorem kept_settleHead1 [PokeClosed P] {s : State} (h : Kept P q u o s) (n : Nat) :
    Kept P q u o (State.settleHead1 s n) := by
  (unfold State.settleHead1; repeat' split) <;> simp +contextual (maxDischargeDepth := 60) [*]

@[simp] theorem kept_settleHead [PokeClosed P] {s : State} (h : Kept P q u o s) (n : Nat) : Kept P q u o (s.settleHead n) := by
  exact kept_iter (fun _ h => kept_settleHead1 h n) _ h

theorem kept_takeDesc [PokeClosed P] {s : State} (h : Kept P q u o s) (n op : Nat) {f : State → RingDesc → Nat → State}
    (hf : ∀ s d x, Kept P q u o s → Kept P q u o (f s d x)) : Kept P q u o (s.takeDesc n op f) := by
  unfold State.takeDesc
  split
  · exact h
  · split
    · exact h
    · extract_lets d seq c cause t t2
      have ht : Kept P q u o t2 := by simp only [t2, t]; split <;> simp +contextual (maxDischargeDepth := 60) [h]
      clear_value t2 cause
      split
      · exact h
      · cases cause with
        | some x => exact kept_settleHead (kept_refuse ht ..) _
        | none => exact kept_settleHead (hf _ _ _ ht) _

@[simp] theorem kept_noteArrays {s : State} (h : Kept P q u o s) (n : Nat) (d : RingDesc) :
    Kept P q u o (State.noteArrays s n d) := by
  simp +contextual (maxDischargeDepth := 60) [State.noteArrays, h]

@[simp] theorem kept_rewritten {s : State} (h : Kept P q u o s) (nodes edges : Nat → Bool) :
    Kept P q u o (State.rewritten s nodes edges) := by
  simp +contextual (maxDischargeDepth := 60) [State.rewritten, h]

@[simp] theorem kept_writeGraph {s : State} (h : Kept P q u o s) (g : GraphDesc) : Kept P q u o (State.writeGraph s g) := by
  (unfold State.writeGraph; repeat' (first
    | simp +contextual (maxDischargeDepth := 60) [*]
    | (refine kept_writeBytes (by assumption) ?_)
    | (refine kept_openAll_eq (by assumption) ?_)
    | (refine kept_fanPassTwo_eq (by assumption) ?_)
    | (refine kept_takeBack_eq (by assumption) ?_)
    | (refine kept_inspRead_eq (by assumption) ?_)
    | (refine kept_readReg_eq (by assumption) ?_)
    | (refine kept_readLow_eq (by assumption) ?_)
    | (refine kept_readHigh_eq (by assumption) ?_)
    | (refine kept_readPart_eq (by assumption) ?_)
    | (refine kept_readPage (by assumption) ?_)
    | (refine kept_readData (by assumption) ?_)
    | (refine kept_slotWrite_eq (by assumption) ?_)
    | (refine kept_readEdges_eq (by assumption) ?_)
    | (refine kept_checkNode_eq (by assumption) ?_)
    | (refine kept_reserve (by assumption) ?_)
    | (refine kept_serve (by assumption) ?_)
    | (refine kept_tryCall_eq (by assumption) ?_)
    | (refine kept_parcelHere_eq (by assumption) ?_)
    | (refine kept_judgeE2e_eq (by assumption) ?_)
    | (refine kept_parcelTests_eq (by assumption) ?_)
    | (refine kept_seqEnd (by assumption) ?_)
    | (refine kept_each _ _ ?_ ?_)
    | split
    | intro _
    | dsimp only
    ))

theorem kept_applyGraph {s t : State} {g : GraphDesc} (e : s.applyGraph g = .ok t) (h : Kept P q u o s) : Kept P q u o t := by
  unfold State.applyGraph at e
  extract_lets n m pool epool w ks res full at e
  have hw : Kept P q u o w := by simp +contextual (maxDischargeDepth := 60) [w, h]
  have hr : w.reserveSprouts g.ctx ks = res := rfl
  clear_value full res w
  split at e
  · cases e
  · split at e
    · cases e
    · split at e
      · cases e
      · split at e
        · cases e
        · split at e
          · cases e
          · dsimp only at e
            split at e
            · cases e
            · cases e
              exact kept_mk (kept_reserveSprouts hr hw) ..

@[simp] theorem kept_applyFor {s : State} (h : Kept P q u o s) (n : Nat) (d : RingDesc) (x : Nat × Nat) :
    Kept P q u o (s.applyFor n d x) := by
  unfold State.applyFor
  extract_lets s1
  have h1 : Kept P q u o s1 := by simp +contextual (maxDischargeDepth := 60) [s1, h]
  clear_value s1
  split
  · simp +contextual (maxDischargeDepth := 60) [h1]
  · split
    · simp +contextual (maxDischargeDepth := 60) [h1]
    · exact kept_settle (kept_updCmd (kept_applyGraph ‹_› h1) _ _ _)

@[simp] theorem kept_appendNodes [PokeClosed P] {s : State} (h : Kept P q u o s) (n : Nat) :
    Kept P q u o (s.appendNodes n) := by
  refine kept_takeDesc h _ _ (fun _ _ _ h => ?_)
  split
  · simp +contextual (maxDischargeDepth := 60) [h]
  · split <;> simp +contextual (maxDischargeDepth := 60) [h]

@[simp] theorem kept_readShadow {s : State} (h : Kept P q u o s) (n : Nat) : Kept P q u o (State.readShadow s n) := by
  (unfold State.readShadow; repeat' (first
    | simp +contextual (maxDischargeDepth := 60) [*]
    | (refine kept_writeBytes (by assumption) ?_)
    | (refine kept_openAll_eq (by assumption) ?_)
    | (refine kept_fanPassTwo_eq (by assumption) ?_)
    | (refine kept_takeBack_eq (by assumption) ?_)
    | (refine kept_inspRead_eq (by assumption) ?_)
    | (refine kept_readReg_eq (by assumption) ?_)
    | (refine kept_readLow_eq (by assumption) ?_)
    | (refine kept_readHigh_eq (by assumption) ?_)
    | (refine kept_readPart_eq (by assumption) ?_)
    | (refine kept_readPage (by assumption) ?_)
    | (refine kept_readData (by assumption) ?_)
    | (refine kept_slotWrite_eq (by assumption) ?_)
    | (refine kept_readEdges_eq (by assumption) ?_)
    | (refine kept_checkNode_eq (by assumption) ?_)
    | (refine kept_reserve (by assumption) ?_)
    | (refine kept_serve (by assumption) ?_)
    | (refine kept_tryCall_eq (by assumption) ?_)
    | (refine kept_parcelHere_eq (by assumption) ?_)
    | (refine kept_judgeE2e_eq (by assumption) ?_)
    | (refine kept_parcelTests_eq (by assumption) ?_)
    | (refine kept_seqEnd (by assumption) ?_)
    | (refine kept_each _ _ ?_ ?_)
    | split
    | intro _
    | dsimp only
    ))

@[simp] theorem kept_slotIdleCheck {s : State} (h : Kept P q u o s) (n : Nat) : Kept P q u o (State.slotIdleCheck s n) := by
  simp +contextual (maxDischargeDepth := 60) [State.slotIdleCheck, h]

@[simp] theorem kept_noteReplay {s : State} (h : Kept P q u o s) (k : Nat) : Kept P q u o (State.noteReplay s k) := by
  simp +contextual (maxDischargeDepth := 60) [State.noteReplay, h]

@[simp] theorem kept_anchorWaits {s : State} (h : Kept P q u o s) (k y2 : Nat) : Kept P q u o (State.anchorWaits s k y2) := by
  simp +contextual (maxDischargeDepth := 60) [State.anchorWaits, h]

@[simp] theorem kept_noteFamine {s : State} (h : Kept P q u o s) (k skipped : Nat) :
    Kept P q u o (State.noteFamine s k skipped) := by
  simp +contextual (maxDischargeDepth := 60) [State.noteFamine, h]

@[simp] theorem kept_formTrick [PokeClosed P] {s : State} (h : Kept P q u o s) (k a : Nat) (seqs : List TrickSeq) :
    Kept P q u o (s.formTrick k a seqs) := by
  unfold State.formTrick
  extract_lets epoch s1 t table s2 s3 s4
  have h1 : Kept P q u o s1 := by simp +contextual (maxDischargeDepth := 60) [s1, h]
  clear_value s1
  have h4 : Kept P q u o s4 := by simp +contextual (maxDischargeDepth := 60) [s4, s3, s2, h1]
  clear_value s4
  split
  · simp +contextual (maxDischargeDepth := 60) [h4]
  · exact kept_writeBytes ‹_› h4

@[simp] theorem kept_popPage {s : State} (h : Kept P q u o s) (p : Nat) : Kept P q u o (State.popPage s p).1 := by
  (unfold State.popPage; repeat' (first
    | simp +contextual (maxDischargeDepth := 60) [*]
    | (refine kept_writeBytes (by assumption) ?_)
    | (refine kept_openAll_eq (by assumption) ?_)
    | (refine kept_fanPassTwo_eq (by assumption) ?_)
    | (refine kept_takeBack_eq (by assumption) ?_)
    | (refine kept_inspRead_eq (by assumption) ?_)
    | (refine kept_readReg_eq (by assumption) ?_)
    | (refine kept_readLow_eq (by assumption) ?_)
    | (refine kept_readHigh_eq (by assumption) ?_)
    | (refine kept_readPart_eq (by assumption) ?_)
    | (refine kept_readPage (by assumption) ?_)
    | (refine kept_readData (by assumption) ?_)
    | (refine kept_slotWrite_eq (by assumption) ?_)
    | (refine kept_readEdges_eq (by assumption) ?_)
    | (refine kept_checkNode_eq (by assumption) ?_)
    | (refine kept_reserve (by assumption) ?_)
    | (refine kept_serve (by assumption) ?_)
    | (refine kept_tryCall_eq (by assumption) ?_)
    | (refine kept_parcelHere_eq (by assumption) ?_)
    | (refine kept_judgeE2e_eq (by assumption) ?_)
    | (refine kept_parcelTests_eq (by assumption) ?_)
    | (refine kept_seqEnd (by assumption) ?_)
    | (refine kept_each _ _ ?_ ?_)
    | split
    | intro _
    | dsimp only
    ))
theorem kept_popPage_eq {s t : State} {p : Nat} {x : (Nat)} (e : State.popPage s p = (t, x)) (h : Kept P q u o s) :
    Kept P q u o t := by
  have := kept_popPage (P := P) (q := q) (u := u) (o := o) h p
  rw [e] at this
  exact this

@[simp] theorem kept_givePages [PokeClosed P] {s : State} (h : Kept P q u o s) (k x n : Nat) :
    Kept P q u o (s.givePages k x n).1 := by
  induction n generalizing s with
  | zero => exact h
  | succ n ih =>
    unfold State.givePages
    extract_lets t e v
    have hv : Kept P q u o v := by simp +contextual (maxDischargeDepth := 60) [v, t, h]
    clear_value v
    split
    · exact hv
    · exact ih (kept_writeWord ‹_› hv)

@[simp] theorem kept_grantPages [PokeClosed P] {s : State} (h : Kept P q u o s) (k y2 c : Nat) :
    Kept P q u o (State.grantPages s k y2 c).1 := by
  (unfold State.grantPages; repeat' (first
    | simp +contextual (maxDischargeDepth := 60) [*]
    | (refine kept_writeBytes (by assumption) ?_)
    | (refine kept_openAll_eq (by assumption) ?_)
    | (refine kept_fanPassTwo_eq (by assumption) ?_)
    | (refine kept_takeBack_eq (by assumption) ?_)
    | (refine kept_inspRead_eq (by assumption) ?_)
    | (refine kept_readReg_eq (by assumption) ?_)
    | (refine kept_readLow_eq (by assumption) ?_)
    | (refine kept_readHigh_eq (by assumption) ?_)
    | (refine kept_readPart_eq (by assumption) ?_)
    | (refine kept_readPage (by assumption) ?_)
    | (refine kept_readData (by assumption) ?_)
    | (refine kept_slotWrite_eq (by assumption) ?_)
    | (refine kept_readEdges_eq (by assumption) ?_)
    | (refine kept_checkNode_eq (by assumption) ?_)
    | (refine kept_reserve (by assumption) ?_)
    | (refine kept_serve (by assumption) ?_)
    | (refine kept_tryCall_eq (by assumption) ?_)
    | (refine kept_parcelHere_eq (by assumption) ?_)
    | (refine kept_judgeE2e_eq (by assumption) ?_)
    | (refine kept_parcelTests_eq (by assumption) ?_)
    | (refine kept_seqEnd (by assumption) ?_)
    | (refine kept_popPage_eq (by assumption) ?_)
    | (refine kept_each _ _ ?_ ?_)
    | split
    | intro _
    | dsimp only
    ))
theorem kept_grantPages_eq [PokeClosed P] {s t : State} {k y2 c : Nat} {x : (Nat × Bool)}
    (e : State.grantPages s k y2 c = (t, x)) (h : Kept P q u o s) : Kept P q u o t := by
  have := kept_grantPages (P := P) (q := q) (u := u) (o := o) h k y2 c
  rw [e] at this
  exact this

theorem kept_compTake {a : Comp} (h : Kept P q u o a.s) (x c p : Nat) : Kept P q u o (a.take x c p).s := by
  unfold Comp.take
  simp +contextual (maxDischargeDepth := 60) [h]
theorem kept_compList [PokeClosed P] {k j floor : Nat} : ∀ {l : List Nat} {a : Comp}, Kept P q u o a.s → Kept P q u o (Comp.list k j floor l a).s := by
  intro l
  induction l with
  | nil => exact fun h => h
  | cons x l ih =>
    intro a h
    unfold Comp.list
    extract_lets e decode cmax cmin c g b
    have hg : Kept P q u o g.1 := by simp +contextual (maxDischargeDepth := 60) [g, h]
    clear_value g
    split
    · exact h
    · split
      · exact h
      · split
        · exact h
        · split
          · exact ih (by simp +contextual (maxDischargeDepth := 60) [b, hg])
          · exact ih (kept_compTake (by simp +contextual (maxDischargeDepth := 60) [b, hg]) _ _ _)
theorem kept_compFoldl [PokeClosed P] {k floor : Nat} (f : Nat → List Nat) : ∀ (l : List Nat) {a : Comp}, Kept P q u o a.s →
    Kept P q u o (l.foldl (fun a j => Comp.list k j floor (f j) a) a).s := by
  intro l
  induction l with
  | nil => exact fun h => h
  | cons j l ih => exact fun h => ih (kept_compList h)
theorem kept_composePass [PokeClosed P] {s : State} (h : Kept P q u o s) (k : Nat) :
    Kept P q u o (s.composePass k).s := kept_compFoldl _ _ h
theorem kept_compReplay [PokeClosed P] {k : Nat} : ∀ {l : List LogEntry} {a b : Comp}, Comp.replay k l a = some b → Kept P q u o a.s → Kept P q u o b.s := by
  intro l
  induction l with
  | nil => intro a b e h; cases e; exact h
  | cons x l ih =>
    intro a b e h
    unfold Comp.replay at e
    dsimp only at e
    split at e
    · cases e
    · exact ih e (kept_compTake (by simp +contextual (maxDischargeDepth := 60) [h]) _ _ _)

@[simp] theorem kept_composeLists [PokeClosed P] {s : State} (h : Kept P q u o s) (k a : Nat) :
    Kept P q u o (s.composeLists k a) := by
  unfold State.composeLists
  extract_lets c all t t2
  have hc : Kept P q u o c.s := kept_composePass h k
  clear_value c
  have ht : Kept P q u o t := by simp +contextual (maxDischargeDepth := 60) [t, hc]
  clear_value t
  have h2 : Kept P q u o t2 := by simp +contextual (maxDischargeDepth := 60) [t2, ht]
  clear_value t2
  split
  · simp +contextual (maxDischargeDepth := 60) [ht]
  · split
    · simp +contextual (maxDischargeDepth := 60) [ht]
    · split <;> simp +contextual (maxDischargeDepth := 60) [h2]

@[simp] theorem kept_anchorCloses {s : State} (h : Kept P q u o s) (k y2 : Nat) : Kept P q u o (State.anchorCloses s k y2) := by
  (unfold State.anchorCloses; repeat' (first
    | simp +contextual (maxDischargeDepth := 60) [*]
    | (refine kept_writeBytes (by assumption) ?_)
    | (refine kept_openAll_eq (by assumption) ?_)
    | (refine kept_fanPassTwo_eq (by assumption) ?_)
    | (refine kept_takeBack_eq (by assumption) ?_)
    | (refine kept_inspRead_eq (by assumption) ?_)
    | (refine kept_readReg_eq (by assumption) ?_)
    | (refine kept_readLow_eq (by assumption) ?_)
    | (refine kept_readHigh_eq (by assumption) ?_)
    | (refine kept_readPart_eq (by assumption) ?_)
    | (refine kept_readPage (by assumption) ?_)
    | (refine kept_readData (by assumption) ?_)
    | (refine kept_slotWrite_eq (by assumption) ?_)
    | (refine kept_readEdges_eq (by assumption) ?_)
    | (refine kept_checkNode_eq (by assumption) ?_)
    | (refine kept_reserve (by assumption) ?_)
    | (refine kept_serve (by assumption) ?_)
    | (refine kept_tryCall_eq (by assumption) ?_)
    | (refine kept_parcelHere_eq (by assumption) ?_)
    | (refine kept_judgeE2e_eq (by assumption) ?_)
    | (refine kept_parcelTests_eq (by assumption) ?_)
    | (refine kept_seqEnd (by assumption) ?_)
    | (refine kept_popPage_eq (by assumption) ?_)
    | (refine kept_grantPages_eq (by assumption) ?_)
    | (refine kept_each _ _ ?_ ?_)
    | split
    | intro _
    | dsimp only
    ))

@[simp] theorem kept_composeReplay [PokeClosed P] {s : State} (h : Kept P q u o s) (k a : Nat) :
    Kept P q u o (s.composeReplay k a) := by
  unfold State.composeReplay
  split
  · simp +contextual (maxDischargeDepth := 60) [h]
  · simp +contextual (maxDischargeDepth := 60) [h]
  · split
    · simp +contextual (maxDischargeDepth := 60) [h]
    · split
      · simp +contextual (maxDischargeDepth := 60) [h]
      · split
        · simp +contextual (maxDischargeDepth := 60) [h]
        · have h1 := kept_compReplay ‹_› h
          split
          · exact kept_failNode (kept_setReg h1 _ _) _ _ _
          · exact kept_formTrick (kept_setReg h1 _ _) _ _ _

@[simp] theorem kept_takeAnchor [PokeClosed P] {s : State} (h : Kept P q u o s) (y1 : Nat) :
    Kept P q u o (State.takeAnchor s y1) := by
  simp +contextual (maxDischargeDepth := 60) [State.takeAnchor, h]

@[simp] theorem kept_trickCompose [PokeClosed P] {s : State} (h : Kept P q u o s) (y1 : Nat) :
    Kept P q u o (State.trickCompose s y1) := by
  simp +contextual (maxDischargeDepth := 60) [State.trickCompose, h]

@[simp] theorem kept_fanFail {s : State} (h : Kept P q u o s) (k cause detail : Nat) :
    Kept P q u o (State.fanFail s k cause detail) := by
  simp +contextual (maxDischargeDepth := 60) [State.fanFail, h]

@[simp] theorem kept_imbalance {s : State} (h : Kept P q u o s) (k : Nat) (w : FanWork) :
    Kept P q u o (State.imbalance s k w) := by
  simp +contextual (maxDischargeDepth := 60) [State.imbalance, h]

@[simp] theorem kept_openLanding {s : State} (h : Kept P q u o s) (l c : Nat) (y3 : LandOwner) (epoch base expect : Nat) (node : Option Nat) (expert : Nat) : Kept P q u o (State.openLanding s l c y3 epoch base expect node expert) := by
  simp +contextual (maxDischargeDepth := 60) [State.openLanding, h]

@[simp] theorem kept_openAll {s : State} (h : Kept P q u o s) (w : FanWork) (l : List (Nat × Nat × Nat)) :
    Kept P q u o (s.openAll w l).1 := by
  induction l generalizing s w with
  | nil => exact h
  | cons r l ih =>
    unfold State.openAll
    split
    · exact ih h _
    · split
      · exact h
      · exact ih (kept_openLanding h ..) _
theorem kept_openAll_eq {s t : State} {w : FanWork} {l : List (Nat × Nat × Nat)} {x : FanWork} (e : s.openAll w l = (t, x))
    (h : Kept P q u o s) : Kept P q u o t := by
  have := kept_openAll (P := P) (q := q) (u := u) (o := o) h w l
  rw [e] at this
  exact this

@[simp] theorem kept_fanPassOne {s : State} (h : Kept P q u o s) (k : Nat) (y2 : FanHead) :
    Kept P q u o (State.fanPassOne s k y2) := by
  (unfold State.fanPassOne; repeat' (first
    | simp +contextual (maxDischargeDepth := 60) [*]
    | (refine kept_writeBytes (by assumption) ?_)
    | (refine kept_openAll_eq (by assumption) ?_)
    | (refine kept_fanPassTwo_eq (by assumption) ?_)
    | (refine kept_takeBack_eq (by assumption) ?_)
    | (refine kept_inspRead_eq (by assumption) ?_)
    | (refine kept_readReg_eq (by assumption) ?_)
    | (refine kept_readLow_eq (by assumption) ?_)
    | (refine kept_readHigh_eq (by assumption) ?_)
    | (refine kept_readPart_eq (by assumption) ?_)
    | (refine kept_readPage (by assumption) ?_)
    | (refine kept_readData (by assumption) ?_)
    | (refine kept_slotWrite_eq (by assumption) ?_)
    | (refine kept_readEdges_eq (by assumption) ?_)
    | (refine kept_checkNode_eq (by assumption) ?_)
    | (refine kept_reserve (by assumption) ?_)
    | (refine kept_serve (by assumption) ?_)
    | (refine kept_tryCall_eq (by assumption) ?_)
    | (refine kept_parcelHere_eq (by assumption) ?_)
    | (refine kept_judgeE2e_eq (by assumption) ?_)
    | (refine kept_parcelTests_eq (by assumption) ?_)
    | (refine kept_seqEnd (by assumption) ?_)
    | (refine kept_popPage_eq (by assumption) ?_)
    | (refine kept_grantPages_eq (by assumption) ?_)
    | (refine kept_each _ _ ?_ ?_)
    | split
    | intro _
    | dsimp only
    ))

@[simp] theorem kept_fanoutExpand {s : State} (h : Kept P q u o s)  : Kept P q u o (State.fanoutExpand s) := by
  (unfold State.fanoutExpand; repeat' (first
    | simp +contextual (maxDischargeDepth := 60) [*]
    | (refine kept_writeBytes (by assumption) ?_)
    | (refine kept_openAll_eq (by assumption) ?_)
    | (refine kept_fanPassTwo_eq (by assumption) ?_)
    | (refine kept_takeBack_eq (by assumption) ?_)
    | (refine kept_inspRead_eq (by assumption) ?_)
    | (refine kept_readReg_eq (by assumption) ?_)
    | (refine kept_readLow_eq (by assumption) ?_)
    | (refine kept_readHigh_eq (by assumption) ?_)
    | (refine kept_readPart_eq (by assumption) ?_)
    | (refine kept_readPage (by assumption) ?_)
    | (refine kept_readData (by assumption) ?_)
    | (refine kept_slotWrite_eq (by assumption) ?_)
    | (refine kept_readEdges_eq (by assumption) ?_)
    | (refine kept_checkNode_eq (by assumption) ?_)
    | (refine kept_reserve (by assumption) ?_)
    | (refine kept_serve (by assumption) ?_)
    | (refine kept_tryCall_eq (by assumption) ?_)
    | (refine kept_parcelHere_eq (by assumption) ?_)
    | (refine kept_judgeE2e_eq (by assumption) ?_)
    | (refine kept_parcelTests_eq (by assumption) ?_)
    | (refine kept_seqEnd (by assumption) ?_)
    | (refine kept_popPage_eq (by assumption) ?_)
    | (refine kept_grantPages_eq (by assumption) ?_)
    | (refine kept_each _ _ ?_ ?_)
    | split
    | intro _
    | dsimp only
    ))

@[simp] theorem kept_sproutRead {s : State} (h : Kept P q u o s) (k : Nat) : Kept P q u o (s.sproutRead k) := by
  unfold State.sproutRead
  extract_lets n sp a s1 bad lost
  have h1 : Kept P q u o s1 := by simp +contextual (maxDischargeDepth := 60) [s1, h]
  have hb : ∀ t d, Kept P q u o t → Kept P q u o (bad t d) := fun t d h => by simp +contextual (maxDischargeDepth := 60) [bad, h]
  have hl : ∀ t, Kept P q u o t → Kept P q u o (lost t) := fun t h => by simp +contextual (maxDischargeDepth := 60) [lost, h]
  clear_value s1 bad lost
  split
  · split
    · exact hl _ h1
    · split
      dsimp only
      split
      · exact hb _ _ h1
      · split
        · exact hl _ h1
        · split
          · exact hb _ _ h1
          · split
            · exact hb _ _ h1
            · have h2 := kept_applyGraph ‹_› h1
              simp +contextual (maxDischargeDepth := 60) [h2]
  · exact h

@[simp] theorem kept_extendRecord {s : State} (h : Kept P q u o s) (k c : Nat) (bs : List Byte) :
    Kept P q u o (State.extendRecord s k c bs) := by
  simp +contextual (maxDischargeDepth := 60) [State.extendRecord, h]

@[simp] theorem kept_rosterDesc [PokeClosed P] {s : State} (h : Kept P q u o s) (n op size : Nat) {f : State → Nat → Nat → List Byte → State}
    (hf : ∀ s k c bs, Kept P q u o s → Kept P q u o (f s k c bs)) : Kept P q u o (s.rosterDesc n op size f) := by
  refine kept_takeDesc h _ _ (fun _ _ _ h => ?_)
  dsimp only
  split
  · simp +contextual (maxDischargeDepth := 60) [h]
  · exact kept_updCmd (kept_each _ _ (fun _ _ h => hf _ _ _ _ h) (by simp +contextual (maxDischargeDepth := 60) [h])) _ _ _

@[simp] theorem kept_rosterExtend [PokeClosed P] {s : State} (h : Kept P q u o s) (n : Nat) :
    Kept P q u o (State.rosterExtend s n) := by
  simp +contextual (maxDischargeDepth := 60) [State.rosterExtend, h]

@[simp] theorem kept_launchGraph [PokeClosed P] {s : State} (h : Kept P q u o s) (n : Nat) :
    Kept P q u o (s.launchGraph n) := by
  refine kept_takeDesc h _ _ (fun _ _ _ h => ?_)
  simp +contextual (maxDischargeDepth := 60) [h]

@[simp] theorem kept_xlatFill {s : State} (h : Kept P q u o s) (c v : Nat) : Kept P q u o (State.xlatFill s c v) := by
  (unfold State.xlatFill; repeat' (first
    | simp +contextual (maxDischargeDepth := 60) [*]
    | (refine kept_writeBytes (by assumption) ?_)
    | (refine kept_openAll_eq (by assumption) ?_)
    | (refine kept_fanPassTwo_eq (by assumption) ?_)
    | (refine kept_takeBack_eq (by assumption) ?_)
    | (refine kept_inspRead_eq (by assumption) ?_)
    | (refine kept_readReg_eq (by assumption) ?_)
    | (refine kept_readLow_eq (by assumption) ?_)
    | (refine kept_readHigh_eq (by assumption) ?_)
    | (refine kept_readPart_eq (by assumption) ?_)
    | (refine kept_readPage (by assumption) ?_)
    | (refine kept_readData (by assumption) ?_)
    | (refine kept_slotWrite_eq (by assumption) ?_)
    | (refine kept_readEdges_eq (by assumption) ?_)
    | (refine kept_checkNode_eq (by assumption) ?_)
    | (refine kept_reserve (by assumption) ?_)
    | (refine kept_serve (by assumption) ?_)
    | (refine kept_tryCall_eq (by assumption) ?_)
    | (refine kept_parcelHere_eq (by assumption) ?_)
    | (refine kept_judgeE2e_eq (by assumption) ?_)
    | (refine kept_parcelTests_eq (by assumption) ?_)
    | (refine kept_seqEnd (by assumption) ?_)
    | (refine kept_popPage_eq (by assumption) ?_)
    | (refine kept_grantPages_eq (by assumption) ?_)
    | (refine kept_each _ _ ?_ ?_)
    | split
    | intro _
    | dsimp only
    ))

@[simp] theorem kept_writeAll [PokeClosed P] (sp : Nat) : ∀ (l : List (Nat × Nat × Nat)) {s : State}, Kept P q u o s →
    Kept P q u o (s.writeAll sp l).1 := by
  intro l
  induction l with
  | nil => exact fun h => h
  | cons x l ih =>
    intro s h
    obtain ⟨a, n, v⟩ := x
    unfold State.writeAll
    split
    · exact h
    · exact ih (kept_writeWord ‹_› h)

@[simp] theorem kept_fanPassTwo [PokeClosed P] {s : State} (h : Kept P q u o s) (w : FanWork) :
    Kept P q u o (s.fanPassTwo w).1 := by
  unfold State.fanPassTwo
  extract_lets k d sp o1 p v
  have hv : Kept P q u o v.1 := kept_writeAll _ _ h
  clear_value v
  split
  · exact hv
  · split
    · exact hv
    · split
      · exact hv
      · split
        · exact hv
        · split
          · exact hv
          · exact kept_writeBytes ‹_› hv
theorem kept_fanPassTwo_eq [PokeClosed P] {s t : State} {w : FanWork} {x : Option (Nat × Nat)}
    (e : s.fanPassTwo w = (t, x)) (h : Kept P q u o s) :
    Kept P q u o t := by
  have := kept_fanPassTwo (P := P) (q := q) (u := u) (o := o) h w
  rw [e] at this
  exact this

@[simp] theorem kept_fanInstance {s : State} (h : Kept P q u o s) (w : FanWork) (i y3 n : Nat) :
    Kept P q u o (State.fanInstance s w i y3 n) := by
  simp +contextual (maxDischargeDepth := 60) [State.fanInstance, h]

@[simp] theorem kept_noRoomFor {s : State} (h : Kept P q u o s) (k : Nat) : Kept P q u o (State.noRoomFor s k) := by
  simp +contextual (maxDischargeDepth := 60) [State.noRoomFor, h]

@[simp] theorem kept_fanInstances {s : State} (h : Kept P q u o s) (w : FanWork) : Kept P q u o (s.fanInstances w) := by
  unfold State.fanInstances
  extract_lets +onlyGivenNames k c x tpl held
  have hh : ∀ t, Kept P q u o t → Kept P q u o (held t) := fun t h => by simp +contextual (maxDischargeDepth := 60) [held, h]
  clear_value held
  split
  · simp +contextual (maxDischargeDepth := 60) [hh _ h]
  · split
    · simp +contextual (maxDischargeDepth := 60) [hh _ h]
    · split
      · have h1 := hh _ h
        generalize held s = s1 at *
        extract_lets t src
        have ht : Kept P q u o t := h1
        clear_value t
        exact kept_noRoomFor (kept_mk ht ..) _
      · have h1 := hh _ h
        generalize held s = s1 at *
        extract_lets s2 s3 s4
        have h2 : Kept P q u o s2 := by simp +contextual (maxDischargeDepth := 60) [s2, h1]
        clear_value s2
        have h3 : Kept P q u o s3 := by
          refine kept_each _ _ (fun _ _ h => ?_) h2
          split <;> simp +contextual (maxDischargeDepth := 60) [h]
        clear_value s3
        simp +contextual (maxDischargeDepth := 60) [s4, h3]

@[simp] theorem kept_fanoutInstantiate [PokeClosed P] {s : State} (h : Kept P q u o s)  : Kept P q u o (s.fanoutInstantiate) := by
  unfold State.fanoutInstantiate
  split
  · exact h
  · split
    · exact h
    · extract_lets k d o1
      split
      · exact kept_fanFail (kept_fanPassTwo_eq ‹_› h) _ _ _
      · have h1 := kept_fanPassTwo_eq ‹_› h
        simp +contextual (maxDischargeDepth := 60) [h1]

@[simp] theorem kept_shadowPoll {s : State} (h : Kept P q u o s) (n : Nat) : Kept P q u o (State.shadowPoll s n) := by
  simp +contextual (maxDischargeDepth := 60) [State.shadowPoll, h]

@[simp] theorem kept_pointerRead {s : State} (h : Kept P q u o s) (c i : Nat) : Kept P q u o (State.pointerRead s c i) := by
  (unfold State.pointerRead; repeat' (first
    | simp +contextual (maxDischargeDepth := 60) [*]
    | (refine kept_writeBytes (by assumption) ?_)
    | (refine kept_openAll_eq (by assumption) ?_)
    | (refine kept_fanPassTwo_eq (by assumption) ?_)
    | (refine kept_takeBack_eq (by assumption) ?_)
    | (refine kept_inspRead_eq (by assumption) ?_)
    | (refine kept_readReg_eq (by assumption) ?_)
    | (refine kept_readLow_eq (by assumption) ?_)
    | (refine kept_readHigh_eq (by assumption) ?_)
    | (refine kept_readPart_eq (by assumption) ?_)
    | (refine kept_readPage (by assumption) ?_)
    | (refine kept_readData (by assumption) ?_)
    | (refine kept_slotWrite_eq (by assumption) ?_)
    | (refine kept_readEdges_eq (by assumption) ?_)
    | (refine kept_checkNode_eq (by assumption) ?_)
    | (refine kept_reserve (by assumption) ?_)
    | (refine kept_serve (by assumption) ?_)
    | (refine kept_tryCall_eq (by assumption) ?_)
    | (refine kept_parcelHere_eq (by assumption) ?_)
    | (refine kept_judgeE2e_eq (by assumption) ?_)
    | (refine kept_parcelTests_eq (by assumption) ?_)
    | (refine kept_seqEnd (by assumption) ?_)
    | (refine kept_popPage_eq (by assumption) ?_)
    | (refine kept_grantPages_eq (by assumption) ?_)
    | (refine kept_each _ _ ?_ ?_)
    | split
    | intro _
    | dsimp only
    ))

@[simp] theorem kept_settlePend {s : State} (h : Kept P q u o s) (c : Nat) : Kept P q u o (State.settlePend s c) := by
  simp +contextual (maxDischargeDepth := 60) [State.settlePend, h]

@[simp] theorem kept_restoreRefused {s : State} (h : Kept P q u o s) (c cause : Nat) :
    Kept P q u o (State.restoreRefused s c cause) := by
  simp +contextual (maxDischargeDepth := 60) [State.restoreRefused, h]

@[simp] theorem kept_passDone {s : State} (h : Kept P q u o s) (k : Nat) (susp : List (Nat × Susp)) :
    Kept P q u o (State.passDone s k susp) := by
  simp +contextual (maxDischargeDepth := 60) [State.passDone, h]

@[simp] theorem kept_reRegister {s : State} (h : Kept P q u o s) (c : Nat) : Kept P q u o (State.reRegister s c) := by
  simp +contextual (maxDischargeDepth := 60) [State.reRegister, h]

@[simp] theorem kept_putNodes {s : State} (h : Kept P q u o s) (c : Nat) (img : List Byte) :
    Kept P q u o (State.putNodes s c img) := by
  simp +contextual (maxDischargeDepth := 60) [State.putNodes, h]

@[simp] theorem kept_dispatchReady {s : State} (h : Kept P q u o s) (c : Nat) : Kept P q u o (State.dispatchReady s c) := by
  simp +contextual (maxDischargeDepth := 60) [State.dispatchReady, h]

@[simp] theorem kept_rearmGate {s : State} (h : Kept P q u o s) (k : Nat) : Kept P q u o (State.rearmGate s k) := by
  simp +contextual (maxDischargeDepth := 60) [State.rearmGate, h]

@[simp] theorem kept_putRoster {s : State} (h : Kept P q u o s) (img : List Byte) (y2 : Nat) :
    Kept P q u o (State.putRoster s img y2) := by
  simp +contextual (maxDischargeDepth := 60) [State.putRoster, h]

@[simp] theorem kept_putRosters (img : List Byte) : ∀ (n j : Nat) {s : State}, Kept P q u o s →
    Kept P q u o (s.putRosters img j n) := by
  intro n
  induction n with
  | zero => intro j s h; exact h
  | succ n ih =>
    intro j s h
    unfold State.putRosters
    exact ih _ (kept_putRoster h _ _)

@[simp] theorem kept_restoreRosters {s : State} (h : Kept P q u o s) (c : Nat) (img : List Byte) :
    Kept P q u o (State.restoreRosters s c img) := by
  simp +contextual (maxDischargeDepth := 60) [State.restoreRosters, h]

@[simp] theorem kept_idleStep [PokeClosed P] {s : State} (h : Kept P q u o s) (n : Nat) :
    Kept P q u o (State.idleStep s n) := by
  simp +contextual (maxDischargeDepth := 60) [State.idleStep, h]

@[simp] theorem kept_resumeSlots [PokeClosed P] {s : State} (h : Kept P q u o s) (c : Nat) :
    Kept P q u o (State.resumeSlots s c) := by
  simp +contextual (maxDischargeDepth := 60) [State.resumeSlots, h]

@[simp] theorem kept_restoreFrom [PokeClosed P] {s : State} (h : Kept P q u o s) (c : Nat) (img : List Byte) :
    Kept P q u o (State.restoreFrom s c img) := by
  simp +contextual (maxDischargeDepth := 60) [State.restoreFrom, h]

@[simp] theorem kept_swapDone {s : State} (h : Kept P q u o s) (p out : Nat) (inc : Option Nat) :
    Kept P q u o (State.swapDone s p out inc) := by
  simp +contextual (maxDischargeDepth := 60) [State.swapDone, h]

@[simp] theorem kept_restoreComplete [PokeClosed P] {s : State} (h : Kept P q u o s) (c : Nat) :
    Kept P q u o (s.restoreComplete c) := by
  unfold State.restoreComplete
  extract_lets p
  split
  · exact h
  · rename_i s1 _
    have h1 : Kept P q u o s1 := by simp +contextual (maxDischargeDepth := 60) [s1, h]
    clear_value s1
    split
    · simp +contextual (maxDischargeDepth := 60) [h1]
    · split
      · simp +contextual (maxDischargeDepth := 60) [h1]
      · extract_lets t
        have ht : Kept P q u o t := by simp +contextual (maxDischargeDepth := 60) [t, h1]
        clear_value t
        split
        · split <;> simp +contextual (maxDischargeDepth := 60) [ht]
        · exact ht

@[simp] theorem kept_composeRetry [PokeClosed P] {s : State} (h : Kept P q u o s) (y1 : Nat) :
    Kept P q u o (State.composeRetry s y1) := by
  simp +contextual (maxDischargeDepth := 60) [State.composeRetry, h]

@[simp] theorem kept_completeLoop {s : State} (h : Kept P q u o s) (k : Nat) : Kept P q u o (State.completeLoop s k) := by
  (unfold State.completeLoop; repeat' (first
    | simp +contextual (maxDischargeDepth := 60) [*]
    | (refine kept_writeBytes (by assumption) ?_)
    | (refine kept_openAll_eq (by assumption) ?_)
    | (refine kept_fanPassTwo_eq (by assumption) ?_)
    | (refine kept_takeBack_eq (by assumption) ?_)
    | (refine kept_inspRead_eq (by assumption) ?_)
    | (refine kept_readReg_eq (by assumption) ?_)
    | (refine kept_readLow_eq (by assumption) ?_)
    | (refine kept_readHigh_eq (by assumption) ?_)
    | (refine kept_readPart_eq (by assumption) ?_)
    | (refine kept_readPage (by assumption) ?_)
    | (refine kept_readData (by assumption) ?_)
    | (refine kept_slotWrite_eq (by assumption) ?_)
    | (refine kept_readEdges_eq (by assumption) ?_)
    | (refine kept_checkNode_eq (by assumption) ?_)
    | (refine kept_reserve (by assumption) ?_)
    | (refine kept_serve (by assumption) ?_)
    | (refine kept_tryCall_eq (by assumption) ?_)
    | (refine kept_parcelHere_eq (by assumption) ?_)
    | (refine kept_judgeE2e_eq (by assumption) ?_)
    | (refine kept_parcelTests_eq (by assumption) ?_)
    | (refine kept_seqEnd (by assumption) ?_)
    | (refine kept_popPage_eq (by assumption) ?_)
    | (refine kept_grantPages_eq (by assumption) ?_)
    | (refine kept_each _ _ ?_ ?_)
    | split
    | intro _
    | dsimp only
    ))

@[simp] theorem kept_armBody {s : State} (h : Kept P q u o s) (k it : Nat) : Kept P q u o (State.armBody s k it) := by
  (unfold State.armBody; repeat' (first
    | simp +contextual (maxDischargeDepth := 60) [*]
    | (refine kept_writeBytes (by assumption) ?_)
    | (refine kept_openAll_eq (by assumption) ?_)
    | (refine kept_fanPassTwo_eq (by assumption) ?_)
    | (refine kept_takeBack_eq (by assumption) ?_)
    | (refine kept_inspRead_eq (by assumption) ?_)
    | (refine kept_readReg_eq (by assumption) ?_)
    | (refine kept_readLow_eq (by assumption) ?_)
    | (refine kept_readHigh_eq (by assumption) ?_)
    | (refine kept_readPart_eq (by assumption) ?_)
    | (refine kept_readPage (by assumption) ?_)
    | (refine kept_readData (by assumption) ?_)
    | (refine kept_slotWrite_eq (by assumption) ?_)
    | (refine kept_readEdges_eq (by assumption) ?_)
    | (refine kept_checkNode_eq (by assumption) ?_)
    | (refine kept_reserve (by assumption) ?_)
    | (refine kept_serve (by assumption) ?_)
    | (refine kept_tryCall_eq (by assumption) ?_)
    | (refine kept_parcelHere_eq (by assumption) ?_)
    | (refine kept_judgeE2e_eq (by assumption) ?_)
    | (refine kept_parcelTests_eq (by assumption) ?_)
    | (refine kept_seqEnd (by assumption) ?_)
    | (refine kept_popPage_eq (by assumption) ?_)
    | (refine kept_grantPages_eq (by assumption) ?_)
    | (refine kept_each _ _ ?_ ?_)
    | split
    | intro _
    | dsimp only
    ))

@[simp] theorem kept_loopStart {s : State} (h : Kept P q u o s) (k : Nat) : Kept P q u o (State.loopStart s k) := by
  (unfold State.loopStart; repeat' (first
    | simp +contextual (maxDischargeDepth := 60) [*]
    | (refine kept_writeBytes (by assumption) ?_)
    | (refine kept_openAll_eq (by assumption) ?_)
    | (refine kept_fanPassTwo_eq (by assumption) ?_)
    | (refine kept_takeBack_eq (by assumption) ?_)
    | (refine kept_inspRead_eq (by assumption) ?_)
    | (refine kept_readReg_eq (by assumption) ?_)
    | (refine kept_readLow_eq (by assumption) ?_)
    | (refine kept_readHigh_eq (by assumption) ?_)
    | (refine kept_readPart_eq (by assumption) ?_)
    | (refine kept_readPage (by assumption) ?_)
    | (refine kept_readData (by assumption) ?_)
    | (refine kept_slotWrite_eq (by assumption) ?_)
    | (refine kept_readEdges_eq (by assumption) ?_)
    | (refine kept_checkNode_eq (by assumption) ?_)
    | (refine kept_reserve (by assumption) ?_)
    | (refine kept_serve (by assumption) ?_)
    | (refine kept_tryCall_eq (by assumption) ?_)
    | (refine kept_parcelHere_eq (by assumption) ?_)
    | (refine kept_judgeE2e_eq (by assumption) ?_)
    | (refine kept_parcelTests_eq (by assumption) ?_)
    | (refine kept_seqEnd (by assumption) ?_)
    | (refine kept_popPage_eq (by assumption) ?_)
    | (refine kept_grantPages_eq (by assumption) ?_)
    | (refine kept_each _ _ ?_ ?_)
    | split
    | intro _
    | dsimp only
    ))

@[simp] theorem kept_fetchArrive [PokeClosed P] {s : State} (h : Kept P q u o s) (n : Nat) :
    Kept P q u o (State.fetchArrive s n) := by
  simp +contextual (maxDischargeDepth := 60) [State.fetchArrive, h]

@[simp] theorem kept_startImport {s : State} (h : Kept P q u o s) (y1 : Nat) : Kept P q u o (State.startImport s y1) := by
  (unfold State.startImport; repeat' split) <;> simp +contextual (maxDischargeDepth := 60) [*]

@[simp] theorem kept_admitSeqTo {s : State} (h : Kept P q u o s) (k y2 : Nat) (bs : List Byte) :
    Kept P q u o (State.admitSeqTo s k y2 bs) := by
  simp +contextual (maxDischargeDepth := 60) [State.admitSeqTo, h]

@[simp] theorem kept_admitRecord {s : State} (h : Kept P q u o s) (k c : Nat) (bs : List Byte) :
    Kept P q u o (State.admitRecord s k c bs) := by
  (unfold State.admitRecord; repeat' split) <;> simp +contextual (maxDischargeDepth := 60) [*]

@[simp] theorem kept_rosterAdmit [PokeClosed P] {s : State} (h : Kept P q u o s) (n : Nat) :
    Kept P q u o (State.rosterAdmit s n) := by
  simp +contextual (maxDischargeDepth := 60) [State.rosterAdmit, h]

@[simp] theorem kept_foldSeq [PokeClosed P] {s : State} (h : Kept P q u o s) (y1 : Nat) :
    Kept P q u o (State.foldSeq s y1) := by
  (unfold State.foldSeq; repeat' (first
    | simp +contextual (maxDischargeDepth := 60) [*]
    | (refine kept_writeBytes (by assumption) ?_)
    | (refine kept_openAll_eq (by assumption) ?_)
    | (refine kept_fanPassTwo_eq (by assumption) ?_)
    | (refine kept_takeBack_eq (by assumption) ?_)
    | (refine kept_inspRead_eq (by assumption) ?_)
    | (refine kept_readReg_eq (by assumption) ?_)
    | (refine kept_readLow_eq (by assumption) ?_)
    | (refine kept_readHigh_eq (by assumption) ?_)
    | (refine kept_readPart_eq (by assumption) ?_)
    | (refine kept_readPage (by assumption) ?_)
    | (refine kept_readData (by assumption) ?_)
    | (refine kept_slotWrite_eq (by assumption) ?_)
    | (refine kept_readEdges_eq (by assumption) ?_)
    | (refine kept_checkNode_eq (by assumption) ?_)
    | (refine kept_reserve (by assumption) ?_)
    | (refine kept_serve (by assumption) ?_)
    | (refine kept_tryCall_eq (by assumption) ?_)
    | (refine kept_parcelHere_eq (by assumption) ?_)
    | (refine kept_judgeE2e_eq (by assumption) ?_)
    | (refine kept_parcelTests_eq (by assumption) ?_)
    | (refine kept_seqEnd (by assumption) ?_)
    | (refine kept_popPage_eq (by assumption) ?_)
    | (refine kept_grantPages_eq (by assumption) ?_)
    | (refine kept_each _ _ ?_ ?_)
    | split
    | intro _
    | dsimp only
    ))

@[simp] theorem kept_foldRecord [PokeClosed P] {s : State} (h : Kept P q u o s) (k : Nat) (bs : List Byte) :
    Kept P q u o (State.foldRecord s k bs) := by
  simp +contextual (maxDischargeDepth := 60) [State.foldRecord, h]

@[simp] theorem kept_rosterFold [PokeClosed P] {s : State} (h : Kept P q u o s) (n : Nat) :
    Kept P q u o (State.rosterFold s n) := by
  simp +contextual (maxDischargeDepth := 60) [State.rosterFold, h]

@[simp] theorem kept_heldRow [PokeClosed P] {s : State} (h : Kept P q u o s) (i : Instr) :
    Kept P q u o (State.heldRow s i) := by
  (unfold State.heldRow; repeat' split) <;> simp +contextual (maxDischargeDepth := 60) [*]

@[simp] theorem kept_applyHeld [PokeClosed P] {s : State} (h : Kept P q u o s) (y1 : Held) :
    Kept P q u o (State.applyHeld s y1) := by
  (unfold State.applyHeld; repeat' split) <;> simp +contextual (maxDischargeDepth := 60) [*]

@[simp] theorem kept_checkHold {s : State} (h : Kept P q u o s)  : Kept P q u o (State.checkHold s) := by
  simp +contextual (maxDischargeDepth := 60) [State.checkHold, h]

@[simp] theorem kept_holdInput {s : State} (h : Kept P q u o s) (y1 : Held) : Kept P q u o (State.holdInput s y1) := by
  simp +contextual (maxDischargeDepth := 60) [State.holdInput, h]

@[simp] theorem kept_flushSnap [PokeClosed P] {s : State} (h : Kept P q u o s)  : Kept P q u o (State.flushSnap s) := by
  simp +contextual (maxDischargeDepth := 60) [State.flushSnap, h]

@[simp] theorem kept_process [PokeClosed P] {s : State} (h : Kept P q u o s) (y1 : Held) :
    Kept P q u o (State.process s y1) := by
  simp +contextual (maxDischargeDepth := 60) [State.process, h]

@[simp] theorem kept_admitAll [PokeClosed P] {s : State} (h : Kept P q u o s) (hold : Bool) :
    Kept P q u o (State.admitAll s hold) := by
  simp +contextual (maxDischargeDepth := 60) [State.admitAll, h]

@[simp] theorem kept_arrive [PokeClosed P] {s : State} (h : Kept P q u o s) (y1 : Held) : Kept P q u o (State.arrive s y1) := by
  simp +contextual (maxDischargeDepth := 60) [State.arrive, h]

@[simp] theorem kept_admitDoorbell [PokeClosed P] {s : State} (h : Kept P q u o s) (n : Nat) (v : BitVec 32) :
    Kept P q u o (State.admitDoorbell s n v) := by
  simp +contextual (maxDischargeDepth := 60) [State.admitDoorbell, h]

@[simp] theorem kept_admitRead [PokeClosed P] {s : State} (h : Kept P q u o s) (who : Requester) (off : Nat) (wide : Bool) : Kept P q u o (State.admitRead s who off wide) := by
  simp +contextual (maxDischargeDepth := 60) [State.admitRead, h]

@[simp] theorem kept_admitWrite [PokeClosed P] {s : State} (h : Kept P q u o s) (who : Requester) (off : Nat) (wide : Bool) (v : BitVec 64) : Kept P q u o (State.admitWrite s who off wide v) := by
  simp +contextual (maxDischargeDepth := 60) [State.admitWrite, h]

@[simp] theorem kept_slotSignal {s : State} (h : Kept P q u o s) (n : Nat) : Kept P q u o (State.slotSignal s n) := by
  simp +contextual (maxDischargeDepth := 60) [State.slotSignal, h]

@[simp] theorem kept_cover {s : State} (h : Kept P q u o s) (n : Nat) : Kept P q u o (State.cover s n) := by
  simp +contextual (maxDischargeDepth := 60) [State.cover, h]

@[simp] theorem kept_advanceDone [PokeClosed P] {s : State} (h : Kept P q u o s) (n : Nat) :
    Kept P q u o (State.advanceDone s n) := by
  simp +contextual (maxDischargeDepth := 60) [State.advanceDone, h]

@[simp] theorem kept_ageCmds {s : State} (h : Kept P q u o s)  : Kept P q u o (State.ageCmds s) := by
  simp +contextual (maxDischargeDepth := 60) [State.ageCmds, h]

@[simp] theorem kept_alignEnd {s : State} (h : Kept P q u o s)  : Kept P q u o (State.alignEnd s) := by
  simp +contextual (maxDischargeDepth := 60) [State.alignEnd, h]

@[simp] theorem kept_sendLanes {s : State} (h : Kept P q u o s) (f : Nat → List (Nat × BitVec 64)) :
    Kept P q u o (State.sendLanes s f) := by
  simp +contextual (maxDischargeDepth := 60) [State.sendLanes, h]

@[simp] theorem kept_sendAlign {s : State} (h : Kept P q u o s)  : Kept P q u o (State.sendAlign s) := by
  simp +contextual (maxDischargeDepth := 60) [State.sendAlign, h]

@[simp] theorem kept_alignSend {s : State} (h : Kept P q u o s)  : Kept P q u o (State.alignSend s) := by
  simp +contextual (maxDischargeDepth := 60) [State.alignSend, h]

@[simp] theorem kept_updOffer {s : State} (h : Kept P q u o s) (p : Offer → Bool) (f : Offer → Offer) :
    Kept P q u o (State.updOffer s p f) := by
  simp +contextual (maxDischargeDepth := 60) [State.updOffer, h]

@[simp] theorem kept_answerArrival {s : State} (h : Kept P q u o s) (r k : Nat) : Kept P q u o (State.answerArrival s r k) := by
  (unfold State.answerArrival; repeat' (first
    | simp +contextual (maxDischargeDepth := 60) [*]
    | (refine kept_writeBytes (by assumption) ?_)
    | (refine kept_openAll_eq (by assumption) ?_)
    | (refine kept_fanPassTwo_eq (by assumption) ?_)
    | (refine kept_takeBack_eq (by assumption) ?_)
    | (refine kept_inspRead_eq (by assumption) ?_)
    | (refine kept_readReg_eq (by assumption) ?_)
    | (refine kept_readLow_eq (by assumption) ?_)
    | (refine kept_readHigh_eq (by assumption) ?_)
    | (refine kept_readPart_eq (by assumption) ?_)
    | (refine kept_readPage (by assumption) ?_)
    | (refine kept_readData (by assumption) ?_)
    | (refine kept_slotWrite_eq (by assumption) ?_)
    | (refine kept_readEdges_eq (by assumption) ?_)
    | (refine kept_checkNode_eq (by assumption) ?_)
    | (refine kept_reserve (by assumption) ?_)
    | (refine kept_serve (by assumption) ?_)
    | (refine kept_tryCall_eq (by assumption) ?_)
    | (refine kept_parcelHere_eq (by assumption) ?_)
    | (refine kept_judgeE2e_eq (by assumption) ?_)
    | (refine kept_parcelTests_eq (by assumption) ?_)
    | (refine kept_seqEnd (by assumption) ?_)
    | (refine kept_popPage_eq (by assumption) ?_)
    | (refine kept_grantPages_eq (by assumption) ?_)
    | (refine kept_each _ _ ?_ ?_)
    | split
    | intro _
    | dsimp only
    ))

@[simp] theorem kept_putStart {s : State} (h : Kept P q u o s) (r : Reg) (v : BitVec 64) :
    Kept P q u o (State.putStart s r v) := by
  (unfold State.putStart; repeat' split) <;> simp +contextual (maxDischargeDepth := 60) [*]

@[simp] theorem kept_applyAtStart [PokeClosed P] {s : State} (h : Kept P q u o s) (rs : List SetRec) :
    Kept P q u o (State.applyAtStart s rs) := by
  simp +contextual (maxDischargeDepth := 60) [State.applyAtStart, h]

@[simp] theorem kept_applyRec [PokeClosed P] {s : State} (h : Kept P q u o s) (y1 : SetRec) :
    Kept P q u o (State.applyRec s y1) := by
  simp +contextual (maxDischargeDepth := 60) [State.applyRec, h]

@[simp] theorem kept_applyLive [PokeClosed P] {s : State} (h : Kept P q u o s) (rs : List SetRec) :
    Kept P q u o (State.applyLive s rs) := by
  simp +contextual (maxDischargeDepth := 60) [State.applyLive, h]

@[simp] theorem kept_applyStart {s : State} (h : Kept P q u o s) (k : Nat) : Kept P q u o (State.applyStart s k) := by
  simp +contextual (maxDischargeDepth := 60) [State.applyStart, h]

@[simp] theorem kept_autoSwap {s : State} (h : Kept P q u o s) (p : Nat) : Kept P q u o (State.autoSwap s p) := by
  (unfold State.autoSwap; repeat' split) <;> simp +contextual (maxDischargeDepth := 60) [*]

@[simp] theorem kept_fromBacklog {s : State} (h : Kept P q u o s) (p r : Nat) : Kept P q u o (State.fromBacklog s p r) := by
  (unfold State.fromBacklog; repeat' (first
    | simp +contextual (maxDischargeDepth := 60) [*]
    | (refine kept_writeBytes (by assumption) ?_)
    | (refine kept_openAll_eq (by assumption) ?_)
    | (refine kept_fanPassTwo_eq (by assumption) ?_)
    | (refine kept_takeBack_eq (by assumption) ?_)
    | (refine kept_inspRead_eq (by assumption) ?_)
    | (refine kept_readReg_eq (by assumption) ?_)
    | (refine kept_readLow_eq (by assumption) ?_)
    | (refine kept_readHigh_eq (by assumption) ?_)
    | (refine kept_readPart_eq (by assumption) ?_)
    | (refine kept_readPage (by assumption) ?_)
    | (refine kept_readData (by assumption) ?_)
    | (refine kept_slotWrite_eq (by assumption) ?_)
    | (refine kept_readEdges_eq (by assumption) ?_)
    | (refine kept_checkNode_eq (by assumption) ?_)
    | (refine kept_reserve (by assumption) ?_)
    | (refine kept_serve (by assumption) ?_)
    | (refine kept_tryCall_eq (by assumption) ?_)
    | (refine kept_parcelHere_eq (by assumption) ?_)
    | (refine kept_judgeE2e_eq (by assumption) ?_)
    | (refine kept_parcelTests_eq (by assumption) ?_)
    | (refine kept_seqEnd (by assumption) ?_)
    | (refine kept_popPage_eq (by assumption) ?_)
    | (refine kept_grantPages_eq (by assumption) ?_)
    | (refine kept_each _ _ ?_ ?_)
    | split
    | intro _
    | dsimp only
    ))

@[simp] theorem kept_backlogDispatch {s : State} (h : Kept P q u o s) (p r : Nat) :
    Kept P q u o (State.backlogDispatch s p r) := by
  simp +contextual (maxDischargeDepth := 60) [State.backlogDispatch, h]

@[simp] theorem kept_beatFlywheel {s : State} (h : Kept P q u o s)  : Kept P q u o (State.beatFlywheel s) := by
  simp +contextual (maxDischargeDepth := 60) [State.beatFlywheel, h]

@[simp] theorem kept_beatOutShort {s : State} (h : Kept P q u o s)  : Kept P q u o (State.beatOutShort s) := by
  simp +contextual (maxDischargeDepth := 60) [State.beatOutShort, h]

@[simp] theorem kept_beatPinEdge {s : State} (h : Kept P q u o s)  : Kept P q u o (State.beatPinEdge s) := by
  simp +contextual (maxDischargeDepth := 60) [State.beatPinEdge, h]

@[simp] theorem kept_mapChange [PokeClosed P] {s : State} (h : Kept P q u o s)  : Kept P q u o (State.mapChange s) := by
  simp +contextual (maxDischargeDepth := 60) [State.mapChange, h]

@[simp] theorem kept_poisonLines {s : State} (h : Kept P q u o s) (lines : List Nat) :
    Kept P q u o (State.poisonLines s lines) := by
  simp +contextual (maxDischargeDepth := 60) [State.poisonLines, h]

@[simp] theorem kept_killPort {s : State} (h : Kept P q u o s) (y1 : Nat) : Kept P q u o (State.killPort s y1) := by
  simp +contextual (maxDischargeDepth := 60) [State.killPort, h]

@[simp] theorem kept_dropStarts {s : State} (h : Kept P q u o s) (y1 : Nat) : Kept P q u o (State.dropStarts s y1) := by
  simp +contextual (maxDischargeDepth := 60) [State.dropStarts, h]

@[simp] theorem kept_freeUp {s : State} (h : Kept P q u o s) (y1 : Nat) : Kept P q u o (State.freeUp s y1) := by
  (unfold State.freeUp; repeat' split) <;> simp +contextual (maxDischargeDepth := 60) [*]

@[simp] theorem kept_takeCell {s : State} (h : Kept P q u o s) (y1 : Nat) : Kept P q u o (State.takeCell s y1) := by
  simp +contextual (maxDischargeDepth := 60) [State.takeCell, h]

@[simp] theorem kept_panelEnd {s : State} (h : Kept P q u o s) (r k p : Nat) (ok : Bool) :
    Kept P q u o (State.panelEnd s r k p ok) := by
  simp +contextual (maxDischargeDepth := 60) [State.panelEnd, h]

@[simp] theorem kept_kittyEnd {s : State} (h : Kept P q u o s) (k : Nat) : Kept P q u o (State.kittyEnd s k) := by
  simp +contextual (maxDischargeDepth := 60) [State.kittyEnd, h]

@[simp] theorem kept_returnPanel {s : State} (h : Kept P q u o s) (r k p : Nat) : Kept P q u o (State.returnPanel s r k p) := by
  simp +contextual (maxDischargeDepth := 60) [State.returnPanel, h]

@[simp] theorem kept_recall {s : State} (h : Kept P q u o s) (r k p : Nat) : Kept P q u o (State.recall s r k p) := by
  (unfold State.recall; repeat' (first
    | simp +contextual (maxDischargeDepth := 60) [*]
    | (refine kept_writeBytes (by assumption) ?_)
    | (refine kept_openAll_eq (by assumption) ?_)
    | (refine kept_fanPassTwo_eq (by assumption) ?_)
    | (refine kept_takeBack_eq (by assumption) ?_)
    | (refine kept_inspRead_eq (by assumption) ?_)
    | (refine kept_readReg_eq (by assumption) ?_)
    | (refine kept_readLow_eq (by assumption) ?_)
    | (refine kept_readHigh_eq (by assumption) ?_)
    | (refine kept_readPart_eq (by assumption) ?_)
    | (refine kept_readPage (by assumption) ?_)
    | (refine kept_readData (by assumption) ?_)
    | (refine kept_slotWrite_eq (by assumption) ?_)
    | (refine kept_readEdges_eq (by assumption) ?_)
    | (refine kept_checkNode_eq (by assumption) ?_)
    | (refine kept_reserve (by assumption) ?_)
    | (refine kept_serve (by assumption) ?_)
    | (refine kept_tryCall_eq (by assumption) ?_)
    | (refine kept_parcelHere_eq (by assumption) ?_)
    | (refine kept_judgeE2e_eq (by assumption) ?_)
    | (refine kept_parcelTests_eq (by assumption) ?_)
    | (refine kept_seqEnd (by assumption) ?_)
    | (refine kept_popPage_eq (by assumption) ?_)
    | (refine kept_grantPages_eq (by assumption) ?_)
    | (refine kept_each _ _ ?_ ?_)
    | split
    | intro _
    | dsimp only
    ))

@[simp] theorem kept_countKilled {s : State} (h : Kept P q u o s) (k : Nat) : Kept P q u o (State.countKilled s k) := by
  simp +contextual (maxDischargeDepth := 60) [State.countKilled, h]

@[simp] theorem kept_judge {s : State} (h : Kept P q u o s) (level y2 : Nat) (l : Launch) (v : Verdict) :
    Kept P q u o (State.judge s level y2 l v) := by
  (unfold State.judge; repeat' split) <;> simp +contextual (maxDischargeDepth := 60) [*]

@[simp] theorem kept_rehome {s : State} (h : Kept P q u o s)  : Kept P q u o (State.rehome s) := by
  simp +contextual (maxDischargeDepth := 60) [State.rehome, h]

@[simp] theorem kept_holdCore {s : State} (h : Kept P q u o s) (k : Nat) : Kept P q u o (State.holdCore s k) := by
  simp +contextual (maxDischargeDepth := 60) [State.holdCore, h]

@[simp] theorem kept_markBench {s : State} (h : Kept P q u o s) (b : BenchStep) : Kept P q u o (State.markBench s b) := by
  simp +contextual (maxDischargeDepth := 60) [State.markBench, h]

@[simp] theorem kept_clearRegion {s : State} (h : Kept P q u o s) (r : Nat) : Kept P q u o (State.clearRegion s r) := by
  simp +contextual (maxDischargeDepth := 60) [State.clearRegion, h]

@[simp] theorem kept_bench [PokeClosed P] {s : State} (h : Kept P q u o s) (steps : List BenchStep) :
    Kept P q u o (State.bench s steps) := by
  simp +contextual (maxDischargeDepth := 60) [State.bench, h]

@[simp] theorem kept_benchCell [PokeClosed P] {s : State} (h : Kept P q u o s) (y1 reason : Nat) :
    Kept P q u o (State.benchCell s y1 reason) := by
  simp +contextual (maxDischargeDepth := 60) [State.benchCell, h]

@[simp] theorem kept_benchFault [PokeClosed P] {s : State} (h : Kept P q u o s) (y1 reason : Nat) (lines : List Nat) :
    Kept P q u o (State.benchFault s y1 reason lines) := by
  simp +contextual (maxDischargeDepth := 60) [State.benchFault, h]

@[simp] theorem kept_benchLE [PokeClosed P] {s : State} (h : Kept P q u o s) (k reason : Nat) :
    Kept P q u o (State.benchLE s k reason) := by
  simp +contextual (maxDischargeDepth := 60) [State.benchLE, h]

@[simp] theorem kept_benchTile [PokeClosed P] {s : State} (h : Kept P q u o s) (ti reason : Nat) :
    Kept P q u o (State.benchTile s ti reason) := by
  simp +contextual (maxDischargeDepth := 60) [State.benchTile, h]

@[simp] theorem kept_toRetrain {s : State} (h : Kept P q u o s) (k cause : Nat) : Kept P q u o (State.toRetrain s k cause) := by
  (unfold State.toRetrain; repeat' split) <;> simp +contextual (maxDischargeDepth := 60) [*]

@[simp] theorem kept_hopFault {s : State} (h : Kept P q u o s) (k seq : Nat) : Kept P q u o (State.hopFault s k seq) := by
  simp +contextual (maxDischargeDepth := 60) [State.hopFault, h]

@[simp] theorem kept_resendFrom {s : State} (h : Kept P q u o s) (k seq : Nat) : Kept P q u o (State.resendFrom s k seq) := by
  (unfold State.resendFrom; repeat' (first
    | simp +contextual (maxDischargeDepth := 60) [*]
    | (refine kept_writeBytes (by assumption) ?_)
    | (refine kept_openAll_eq (by assumption) ?_)
    | (refine kept_fanPassTwo_eq (by assumption) ?_)
    | (refine kept_takeBack_eq (by assumption) ?_)
    | (refine kept_inspRead_eq (by assumption) ?_)
    | (refine kept_readReg_eq (by assumption) ?_)
    | (refine kept_readLow_eq (by assumption) ?_)
    | (refine kept_readHigh_eq (by assumption) ?_)
    | (refine kept_readPart_eq (by assumption) ?_)
    | (refine kept_readPage (by assumption) ?_)
    | (refine kept_readData (by assumption) ?_)
    | (refine kept_slotWrite_eq (by assumption) ?_)
    | (refine kept_readEdges_eq (by assumption) ?_)
    | (refine kept_checkNode_eq (by assumption) ?_)
    | (refine kept_reserve (by assumption) ?_)
    | (refine kept_serve (by assumption) ?_)
    | (refine kept_tryCall_eq (by assumption) ?_)
    | (refine kept_parcelHere_eq (by assumption) ?_)
    | (refine kept_judgeE2e_eq (by assumption) ?_)
    | (refine kept_parcelTests_eq (by assumption) ?_)
    | (refine kept_seqEnd (by assumption) ?_)
    | (refine kept_popPage_eq (by assumption) ?_)
    | (refine kept_grantPages_eq (by assumption) ?_)
    | (refine kept_each _ _ ?_ ?_)
    | split
    | intro _
    | dsimp only
    ))

@[simp] theorem kept_blockBack {s : State} (h : Kept P q u o s) (k : Nat) (b : Block) :
    Kept P q u o (State.blockBack s k b) := by
  simp +contextual (maxDischargeDepth := 60) [State.blockBack, h]

@[simp] theorem kept_dropUnknown {s : State} (h : Kept P q u o s) (k : Nat) (ps : List Parcel) :
    Kept P q u o (State.dropUnknown s k ps).1 := by
  simp +contextual (maxDischargeDepth := 60) [State.dropUnknown, h]
theorem kept_dropUnknown_eq {s t : State} {k : Nat} {ps : List Parcel} {x : (List Parcel)}
    (e : State.dropUnknown s k ps = (t, x)) (h : Kept P q u o s) : Kept P q u o t := by
  have := kept_dropUnknown (P := P) (q := q) (u := u) (o := o) h k ps
  rw [e] at this
  exact this

@[simp] theorem kept_queueBlock {s : State} (h : Kept P q u o s) (k : Nat) (b : Block) (raw : List Byte) :
    Kept P q u o (State.queueBlock s k b raw) := by
  simp +contextual (maxDischargeDepth := 60) [State.queueBlock, h]

@[simp] theorem kept_blockIn {s : State} (h : Kept P q u o s) (k : Nat) (bytes : List Byte) :
    Kept P q u o (State.blockIn s k bytes) := by
  (unfold State.blockIn; repeat' split) <;> simp +contextual (maxDischargeDepth := 60) [*]

@[simp] theorem kept_reach {s : State} (h : Kept P q u o s) (k : Nat) (i : Instr) {f : State → State}
    (hf : ∀ s, Kept P q u o s → Kept P q u o (f s)) : Kept P q u o (s.reach k i f) := by
  unfold State.reach
  split
  · exact kept_mk h ..
  · exact hf _ (kept_wake h _)

@[simp] theorem kept_blockReceive {s : State} (h : Kept P q u o s) (k : Nat) (bytes : List Byte) :
    Kept P q u o (State.blockReceive s k bytes) := by
  simp +contextual (maxDischargeDepth := 60) [State.blockReceive, h]

@[simp] theorem kept_bringEntry {s : State} (h : Kept P q u o s) (y1 r y3 : Nat) (y4 : HandEnt) :
    Kept P q u o (State.bringEntry s y1 r y3 y4) := by
  (unfold State.bringEntry; repeat' split) <;> simp +contextual (maxDischargeDepth := 60) [*]

@[simp] theorem kept_retryCall [PokeClosed P] {s : State} (h : Kept P q u o s) (y1 : Nat) :
    Kept P q u o (State.retryCall s y1) := by
  (unfold State.retryCall; repeat' split) <;> simp +contextual (maxDischargeDepth := 60) [*]

@[simp] theorem kept_callSlotFree [PokeClosed P] {s : State} (h : Kept P q u o s) (y1 : Nat) :
    Kept P q u o (State.callSlotFree s y1) := by
  simp +contextual (maxDischargeDepth := 60) [State.callSlotFree, h]

@[simp] theorem kept_categoryVector {s : State} (h : Kept P q u o s) (y1 : Nat) (pod : Option Nat) :
    Kept P q u o (State.categoryVector s y1 pod) := by
  (unfold State.categoryVector; repeat' split) <;> simp +contextual (maxDischargeDepth := 60) [*]

@[simp] theorem kept_cellHang [PokeClosed P] {s : State} (h : Kept P q u o s) (y1 : Nat) (lines : List Nat) :
    Kept P q u o (State.cellHang s y1 lines) := by
  simp +contextual (maxDischargeDepth := 60) [State.cellHang, h]

@[simp] theorem kept_cellPortParity [PokeClosed P] {s : State} (h : Kept P q u o s) (y1 : Nat) (lines : List Nat) :
    Kept P q u o (State.cellPortParity s y1 lines) := by
  simp +contextual (maxDischargeDepth := 60) [State.cellPortParity, h]

@[simp] theorem kept_chargeLink {s : State} (h : Kept P q u o s) (p bytes : Nat) :
    Kept P q u o (State.chargeLink s p bytes) := by
  simp +contextual (maxDischargeDepth := 60) [State.chargeLink, h]

@[simp] theorem kept_chipReset {s : State} (h : Kept P q u o s)  : Kept P q u o (State.chipReset s) := by
  simp +contextual (maxDischargeDepth := 60) [State.chipReset, h]

@[simp] theorem kept_chooseVictims {s : State} (h : Kept P q u o s) (p : Nat) (l : List (Nat × HandEnt)) (n : Nat) :
    Kept P q u o (s.chooseVictims p l n) := by
  induction l generalizing s n with
  | nil => exact h
  | cons x l ih =>
    cases n with
    | zero => exact h
    | succ n =>
      unfold State.chooseVictims
      split
      · exact ih h _
      · split
        · exact ih h _
        · split
          · exact ih h _
          · exact ih (kept_orderSuspend h _ _ _) _

@[simp] theorem kept_clearBench {s : State} (h : Kept P q u o s) (lv y2 : Nat) : Kept P q u o (State.clearBench s lv y2) := by
  (unfold State.clearBench; repeat' split) <;> simp +contextual (maxDischargeDepth := 60) [*]

@[simp] theorem kept_combineDone {s : State} (h : Kept P q u o s) (y1 : Nat) : Kept P q u o (State.combineDone s y1) := by
  (unfold State.combineDone; repeat' split) <;> simp +contextual (maxDischargeDepth := 60) [*]

@[simp] theorem kept_combineRequest {s : State} (h : Kept P q u o s) (y1 : Nat) : Kept P q u o (State.combineRequest s y1) := by
  (unfold State.combineRequest; repeat' split) <;> simp +contextual (maxDischargeDepth := 60) [*]

@[simp] theorem kept_unblockIdle {s : State} (h : Kept P q u o s) (c : Nat) : Kept P q u o (State.unblockIdle s c) := by
  simp +contextual (maxDischargeDepth := 60) [State.unblockIdle, h]

@[simp] theorem kept_putRecord [PokeClosed P] {s : State} (h : Kept P q u o s) (n : Nat) (r : CplRec) :
    Kept P q u o (State.putRecord s n r) := by
  simp +contextual (maxDischargeDepth := 60) [State.putRecord, h]

@[simp] theorem kept_fileRecord [PokeClosed P] {s : State} (h : Kept P q u o s) (n : Nat) (r : CplRec) :
    Kept P q u o (State.fileRecord s n r) := by
  simp +contextual (maxDischargeDepth := 60) [State.fileRecord, h]

@[simp] theorem kept_dropCmd {s : State} (h : Kept P q u o s) (n seq : Nat) : Kept P q u o (State.dropCmd s n seq) := by
  simp +contextual (maxDischargeDepth := 60) [State.dropCmd, h]

@[simp] theorem kept_freeCmd {s : State} (h : Kept P q u o s) (n seq : Nat) : Kept P q u o (State.freeCmd s n seq) := by
  simp +contextual (maxDischargeDepth := 60) [State.freeCmd, h]

@[simp] theorem kept_retire [PokeClosed P] {s : State} (h : Kept P q u o s) (n seq : Nat) :
    Kept P q u o (State.retire s n seq) := by
  (unfold State.retire; repeat' split) <;> simp +contextual (maxDischargeDepth := 60) [*]

@[simp] theorem kept_commandRetire [PokeClosed P] {s : State} (h : Kept P q u o s) (n seq : Nat) :
    Kept P q u o (State.commandRetire s n seq) := by
  (unfold State.commandRetire; repeat' split) <;> simp +contextual (maxDischargeDepth := 60) [*]

@[simp] theorem kept_endError {s : State} (h : Kept P q u o s) (k : Nat) (f : FaultRec) (y3 : Nat) :
    Kept P q u o (State.endError s k f y3) := by
  simp +contextual (maxDischargeDepth := 60) [State.endError, h]

@[simp] theorem kept_sendCall {s : State} (h : Kept P q u o s) (k : Nat) : Kept P q u o (State.sendCall s k) := by
  (unfold State.sendCall; repeat' (first
    | simp +contextual (maxDischargeDepth := 60) [*]
    | (refine kept_writeBytes (by assumption) ?_)
    | (refine kept_openAll_eq (by assumption) ?_)
    | (refine kept_fanPassTwo_eq (by assumption) ?_)
    | (refine kept_takeBack_eq (by assumption) ?_)
    | (refine kept_inspRead_eq (by assumption) ?_)
    | (refine kept_readReg_eq (by assumption) ?_)
    | (refine kept_readLow_eq (by assumption) ?_)
    | (refine kept_readHigh_eq (by assumption) ?_)
    | (refine kept_readPart_eq (by assumption) ?_)
    | (refine kept_readPage (by assumption) ?_)
    | (refine kept_readData (by assumption) ?_)
    | (refine kept_slotWrite_eq (by assumption) ?_)
    | (refine kept_readEdges_eq (by assumption) ?_)
    | (refine kept_checkNode_eq (by assumption) ?_)
    | (refine kept_reserve (by assumption) ?_)
    | (refine kept_serve (by assumption) ?_)
    | (refine kept_tryCall_eq (by assumption) ?_)
    | (refine kept_parcelHere_eq (by assumption) ?_)
    | (refine kept_judgeE2e_eq (by assumption) ?_)
    | (refine kept_parcelTests_eq (by assumption) ?_)
    | (refine kept_seqEnd (by assumption) ?_)
    | (refine kept_popPage_eq (by assumption) ?_)
    | (refine kept_grantPages_eq (by assumption) ?_)
    | (refine kept_dropUnknown_eq (by assumption) ?_)
    | (refine kept_each _ _ ?_ ?_)
    | split
    | intro _
    | dsimp only
    ))

@[simp] theorem kept_singleOk {s : State} (h : Kept P q u o s) (k : Nat) : Kept P q u o (State.singleOk s k) := by
  simp +contextual (maxDischargeDepth := 60) [State.singleOk, h]

@[simp] theorem kept_completionAccept {s : State} (h : Kept P q u o s) (y1 : Nat) :
    Kept P q u o (State.completionAccept s y1) := by
  (unfold State.completionAccept; repeat' split) <;> simp +contextual (maxDischargeDepth := 60) [*]

@[simp] theorem kept_coreFault {s : State} (h : Kept P q u o s) (k reason : Nat) :
    Kept P q u o (State.coreFault s k reason) := by
  simp +contextual (maxDischargeDepth := 60) [State.coreFault, h]

@[simp] theorem kept_coreExpiry {s : State} (h : Kept P q u o s) (k : Nat) : Kept P q u o (State.coreExpiry s k) := by
  simp +contextual (maxDischargeDepth := 60) [State.coreExpiry, h]

@[simp] theorem kept_corePathParity {s : State} (h : Kept P q u o s) (k : Nat) : Kept P q u o (State.corePathParity s k) := by
  simp +contextual (maxDischargeDepth := 60) [State.corePathParity, h]

@[simp] theorem kept_countCplFull {s : State} (h : Kept P q u o s)  : Kept P q u o (State.countCplFull s) := by
  simp +contextual (maxDischargeDepth := 60) [State.countCplFull, h]

@[simp] theorem kept_countDonated {s : State} (h : Kept P q u o s)  : Kept P q u o (State.countDonated s) := by
  simp +contextual (maxDischargeDepth := 60) [State.countDonated, h]

@[simp] theorem kept_updSlow {s : State} (h : Kept P q u o s) (p : Nat) (f : SlowCount → SlowCount) :
    Kept P q u o (State.updSlow s p f) := by
  simp +contextual (maxDischargeDepth := 60) [State.updSlow, h]

@[simp] theorem kept_countEngine {s : State} (h : Kept P q u o s) (y1 : Nat) (y2 : Engine) :
    Kept P q u o (State.countEngine s y1 y2) := by
  (unfold State.countEngine; repeat' split) <;> simp +contextual (maxDischargeDepth := 60) [*]

@[simp] theorem kept_countHeld {s : State} (h : Kept P q u o s) (p : Nat) : Kept P q u o (State.countHeld s p) := by
  simp +contextual (maxDischargeDepth := 60) [State.countHeld, h]

@[simp] theorem kept_countLink {s : State} (h : Kept P q u o s) (p : Nat) (ps : List Parcel) :
    Kept P q u o (State.countLink s p ps) := by
  simp +contextual (maxDischargeDepth := 60) [State.countLink, h]

@[simp] theorem kept_countRings {s : State} (h : Kept P q u o s)  : Kept P q u o (State.countRings s) := by
  (unfold State.countRings; repeat' (first
    | simp +contextual (maxDischargeDepth := 60) [*]
    | (refine kept_writeBytes (by assumption) ?_)
    | (refine kept_openAll_eq (by assumption) ?_)
    | (refine kept_fanPassTwo_eq (by assumption) ?_)
    | (refine kept_takeBack_eq (by assumption) ?_)
    | (refine kept_inspRead_eq (by assumption) ?_)
    | (refine kept_readReg_eq (by assumption) ?_)
    | (refine kept_readLow_eq (by assumption) ?_)
    | (refine kept_readHigh_eq (by assumption) ?_)
    | (refine kept_readPart_eq (by assumption) ?_)
    | (refine kept_readPage (by assumption) ?_)
    | (refine kept_readData (by assumption) ?_)
    | (refine kept_slotWrite_eq (by assumption) ?_)
    | (refine kept_readEdges_eq (by assumption) ?_)
    | (refine kept_checkNode_eq (by assumption) ?_)
    | (refine kept_reserve (by assumption) ?_)
    | (refine kept_serve (by assumption) ?_)
    | (refine kept_tryCall_eq (by assumption) ?_)
    | (refine kept_parcelHere_eq (by assumption) ?_)
    | (refine kept_judgeE2e_eq (by assumption) ?_)
    | (refine kept_parcelTests_eq (by assumption) ?_)
    | (refine kept_seqEnd (by assumption) ?_)
    | (refine kept_popPage_eq (by assumption) ?_)
    | (refine kept_grantPages_eq (by assumption) ?_)
    | (refine kept_dropUnknown_eq (by assumption) ?_)
    | (refine kept_each _ _ ?_ ?_)
    | split
    | intro _
    | dsimp only
    ))

@[simp] theorem kept_countWaits {s : State} (h : Kept P q u o s)  : Kept P q u o (State.countWaits s) := by
  simp +contextual (maxDischargeDepth := 60) [State.countWaits, h]

@[simp] theorem kept_supplyTick {s : State} (h : Kept P q u o s)  : Kept P q u o (State.supplyTick s) := by
  simp +contextual (maxDischargeDepth := 60) [State.supplyTick, h]

@[simp] theorem kept_trackBlocked {s : State} (h : Kept P q u o s)  : Kept P q u o (State.trackBlocked s) := by
  simp +contextual (maxDischargeDepth := 60) [State.trackBlocked, h]

@[simp] theorem kept_holdCores {s : State} (h : Kept P q u o s)  : Kept P q u o (State.holdCores s) := by
  simp +contextual (maxDischargeDepth := 60) [State.holdCores, h]

@[simp] theorem kept_tickClock {s : State} (h : Kept P q u o s)  : Kept P q u o (State.tickClock s) := by
  simp +contextual (maxDischargeDepth := 60) [State.tickClock, h]

@[simp] theorem kept_sliceEdge {s : State} (h : Kept P q u o s) (p : Nat) : Kept P q u o (State.sliceEdge s p) := by
  simp +contextual (maxDischargeDepth := 60) [State.sliceEdge, h]

@[simp] theorem kept_leadTick {s : State} (h : Kept P q u o s) (p k : Nat) : Kept P q u o (State.leadTick s p k).1 := by
  (unfold State.leadTick; repeat' (first
    | simp +contextual (maxDischargeDepth := 60) [*]
    | (refine kept_writeBytes (by assumption) ?_)
    | (refine kept_openAll_eq (by assumption) ?_)
    | (refine kept_fanPassTwo_eq (by assumption) ?_)
    | (refine kept_takeBack_eq (by assumption) ?_)
    | (refine kept_inspRead_eq (by assumption) ?_)
    | (refine kept_readReg_eq (by assumption) ?_)
    | (refine kept_readLow_eq (by assumption) ?_)
    | (refine kept_readHigh_eq (by assumption) ?_)
    | (refine kept_readPart_eq (by assumption) ?_)
    | (refine kept_readPage (by assumption) ?_)
    | (refine kept_readData (by assumption) ?_)
    | (refine kept_slotWrite_eq (by assumption) ?_)
    | (refine kept_readEdges_eq (by assumption) ?_)
    | (refine kept_checkNode_eq (by assumption) ?_)
    | (refine kept_reserve (by assumption) ?_)
    | (refine kept_serve (by assumption) ?_)
    | (refine kept_tryCall_eq (by assumption) ?_)
    | (refine kept_parcelHere_eq (by assumption) ?_)
    | (refine kept_judgeE2e_eq (by assumption) ?_)
    | (refine kept_parcelTests_eq (by assumption) ?_)
    | (refine kept_seqEnd (by assumption) ?_)
    | (refine kept_popPage_eq (by assumption) ?_)
    | (refine kept_grantPages_eq (by assumption) ?_)
    | (refine kept_dropUnknown_eq (by assumption) ?_)
    | (refine kept_each _ _ ?_ ?_)
    | split
    | intro _
    | dsimp only
    ))
theorem kept_leadTick_eq {s t : State} {p k : Nat} {x : (Bool)}
    (e : State.leadTick s p k = (t, x)) (h : Kept P q u o s) : Kept P q u o t := by
  have := kept_leadTick (P := P) (q := q) (u := u) (o := o) h p k
  rw [e] at this
  exact this

@[simp] theorem kept_podTick {s : State} (h : Kept P q u o s) (p : Nat) : Kept P q u o (State.podTick s p) := by
  simp +contextual (maxDischargeDepth := 60) [State.podTick, h]

@[simp] theorem kept_portReq {s : State} (h : Kept P q u o s) (y1 : SyncReq) : Kept P q u o (State.portReq s y1) := by
  (unfold State.portReq; repeat' split) <;> simp +contextual (maxDischargeDepth := 60) [*]

@[simp] theorem kept_portGo {s : State} (h : Kept P q u o s)  : Kept P q u o (State.portGo s) := by
  simp +contextual (maxDischargeDepth := 60) [State.portGo, h]

@[simp] theorem kept_passMem [PokeClosed P] {s : State} (h : Kept P q u o s) (y1 : MemReq) :
    Kept P q u o (State.passMem s y1) := by
  simp +contextual (maxDischargeDepth := 60) [State.passMem, h]

@[simp] theorem kept_releaseMem [PokeClosed P] {s : State} (h : Kept P q u o s) (p r n : Nat) :
    Kept P q u o (s.releaseMem p r n) := by
  induction n generalizing s with
  | zero => exact h
  | succ n ih =>
    unfold State.releaseMem
    split
    · exact h
    · split
      · exact ih (by simp +contextual (maxDischargeDepth := 60) [h])
      · exact h

@[simp] theorem kept_refillMem [PokeClosed P] {s : State} (h : Kept P q u o s) (p n r : Nat) :
    Kept P q u o (State.refillMem s p n r) := by
  simp +contextual (maxDischargeDepth := 60) [State.refillMem, h]

@[simp] theorem kept_refill [PokeClosed P] {s : State} (h : Kept P q u o s) (p : Nat) : Kept P q u o (State.refill s p) := by
  simp +contextual (maxDischargeDepth := 60) [State.refill, h]

@[simp] theorem kept_holdTimers {s : State} (h : Kept P q u o s)  : Kept P q u o (State.holdTimers s) := by
  simp +contextual (maxDischargeDepth := 60) [State.holdTimers, h]

@[simp] theorem kept_endCommit {s : State} (h : Kept P q u o s) (p : Nat) : Kept P q u o (State.endCommit s p) := by
  (unfold State.endCommit; repeat' split) <;> simp +contextual (maxDischargeDepth := 60) [*]

@[simp] theorem kept_endCommits {s : State} (h : Kept P q u o s)  : Kept P q u o (State.endCommits s) := by
  simp +contextual (maxDischargeDepth := 60) [State.endCommits, h]

@[simp] theorem kept_settleShort {s : State} (h : Kept P q u o s)  : Kept P q u o (State.settleShort s) := by
  simp +contextual (maxDischargeDepth := 60) [State.settleShort, h]

@[simp] theorem kept_dumpStep [PokeClosed P] {s : State} (h : Kept P q u o s)  : Kept P q u o (State.dumpStep s) := by
  simp +contextual (maxDischargeDepth := 60) [State.dumpStep, h]

@[simp] theorem kept_latchDrain [PokeClosed P] : ∀ (l : List LatchRec) {s : State}, Kept P q u o s → Kept P q u o (s.latchDrain l) := by
  intro l
  induction l with
  | nil => intro s h; exact kept_mk h ..
  | cons r t ih =>
    intro s h
    unfold State.latchDrain
    split
    · apply ih
      simp +contextual (maxDischargeDepth := 60) [h]
    · exact h

@[simp] theorem kept_refillObs {s : State} (h : Kept P q u o s)  : Kept P q u o (State.refillObs s) := by
  simp +contextual (maxDischargeDepth := 60) [State.refillObs, h]

@[simp] theorem kept_observeTick [PokeClosed P] {s : State} (h : Kept P q u o s)  : Kept P q u o (State.observeTick s) := by
  simp +contextual (maxDischargeDepth := 60) [State.observeTick, h]

@[simp] theorem kept_tickCore [PokeClosed P] {s : State} (h : Kept P q u o s)  : Kept P q u o (State.tickCore s) := by
  simp +contextual (maxDischargeDepth := 60) [State.tickCore, h]

@[simp] theorem kept_deadlineTick [PokeClosed P] {s : State} (h : Kept P q u o s)  : Kept P q u o (State.deadlineTick s) := by
  simp +contextual (maxDischargeDepth := 60) [State.deadlineTick, h]

@[simp] theorem kept_launch {s : State} (h : Kept P q u o s) (y1 k : Nat) (panel source : Nat) :
    Kept P q u o (State.launch s y1 k panel source) := by
  simp +contextual (maxDischargeDepth := 60) [State.launch, h]

@[simp] theorem kept_resumeOn {s : State} (h : Kept P q u o s) (y1 k : Nat) (y3 : Susp) (source : Nat) :
    Kept P q u o (State.resumeOn s y1 k y3 source) := by
  simp +contextual (maxDischargeDepth := 60) [State.resumeOn, h]

@[simp] theorem kept_draw {s : State} (h : Kept P q u o s) (r k : Nat) (p y4 : Nat) : Kept P q u o (State.draw s r k p y4) := by
  simp +contextual (maxDischargeDepth := 60) [State.draw, h]

@[simp] theorem kept_dealEnt {s : State} (h : Kept P q u o s) (r : Nat) (y2 : HandEnt) (y3 : Nat) :
    Kept P q u o (State.dealEnt s r y2 y3) := by
  (unfold State.dealEnt; repeat' (first
    | simp +contextual (maxDischargeDepth := 60) [*]
    | (refine kept_writeBytes (by assumption) ?_)
    | (refine kept_openAll_eq (by assumption) ?_)
    | (refine kept_fanPassTwo_eq (by assumption) ?_)
    | (refine kept_takeBack_eq (by assumption) ?_)
    | (refine kept_inspRead_eq (by assumption) ?_)
    | (refine kept_readReg_eq (by assumption) ?_)
    | (refine kept_readLow_eq (by assumption) ?_)
    | (refine kept_readHigh_eq (by assumption) ?_)
    | (refine kept_readPart_eq (by assumption) ?_)
    | (refine kept_readPage (by assumption) ?_)
    | (refine kept_readData (by assumption) ?_)
    | (refine kept_slotWrite_eq (by assumption) ?_)
    | (refine kept_readEdges_eq (by assumption) ?_)
    | (refine kept_checkNode_eq (by assumption) ?_)
    | (refine kept_reserve (by assumption) ?_)
    | (refine kept_serve (by assumption) ?_)
    | (refine kept_tryCall_eq (by assumption) ?_)
    | (refine kept_parcelHere_eq (by assumption) ?_)
    | (refine kept_judgeE2e_eq (by assumption) ?_)
    | (refine kept_parcelTests_eq (by assumption) ?_)
    | (refine kept_seqEnd (by assumption) ?_)
    | (refine kept_popPage_eq (by assumption) ?_)
    | (refine kept_grantPages_eq (by assumption) ?_)
    | (refine kept_dropUnknown_eq (by assumption) ?_)
    | (refine kept_leadTick_eq (by assumption) ?_)
    | (refine kept_each _ _ ?_ ?_)
    | split
    | intro _
    | dsimp only
    ))

@[simp] theorem kept_dealConfirmed {s : State} (h : Kept P q u o s) (r : Nat) (c : Nat × Nat) :
    Kept P q u o (State.dealConfirmed s r c) := by
  (unfold State.dealConfirmed; repeat' (first
    | simp +contextual (maxDischargeDepth := 60) [*]
    | (refine kept_writeBytes (by assumption) ?_)
    | (refine kept_openAll_eq (by assumption) ?_)
    | (refine kept_fanPassTwo_eq (by assumption) ?_)
    | (refine kept_takeBack_eq (by assumption) ?_)
    | (refine kept_inspRead_eq (by assumption) ?_)
    | (refine kept_readReg_eq (by assumption) ?_)
    | (refine kept_readLow_eq (by assumption) ?_)
    | (refine kept_readHigh_eq (by assumption) ?_)
    | (refine kept_readPart_eq (by assumption) ?_)
    | (refine kept_readPage (by assumption) ?_)
    | (refine kept_readData (by assumption) ?_)
    | (refine kept_slotWrite_eq (by assumption) ?_)
    | (refine kept_readEdges_eq (by assumption) ?_)
    | (refine kept_checkNode_eq (by assumption) ?_)
    | (refine kept_reserve (by assumption) ?_)
    | (refine kept_serve (by assumption) ?_)
    | (refine kept_tryCall_eq (by assumption) ?_)
    | (refine kept_parcelHere_eq (by assumption) ?_)
    | (refine kept_judgeE2e_eq (by assumption) ?_)
    | (refine kept_parcelTests_eq (by assumption) ?_)
    | (refine kept_seqEnd (by assumption) ?_)
    | (refine kept_popPage_eq (by assumption) ?_)
    | (refine kept_grantPages_eq (by assumption) ?_)
    | (refine kept_dropUnknown_eq (by assumption) ?_)
    | (refine kept_leadTick_eq (by assumption) ?_)
    | (refine kept_each _ _ ?_ ?_)
    | split
    | intro _
    | dsimp only
    ))

@[simp] theorem kept_loseRegion [PokeClosed P] {s : State} (h : Kept P q u o s) (r reason : Nat) :
    Kept P q u o (State.loseRegion s r reason) := by
  simp +contextual (maxDischargeDepth := 60) [State.loseRegion, h]

@[simp] theorem kept_startRebuild {s : State} (h : Kept P q u o s) (r : Nat) : Kept P q u o (State.startRebuild s r) := by
  simp +contextual (maxDischargeDepth := 60) [State.startRebuild, h]

@[simp] theorem kept_dealerParity [PokeClosed P] {s : State} (h : Kept P q u o s) (r : Nat) :
    Kept P q u o (State.dealerParity s r) := by
  simp +contextual (maxDischargeDepth := 60) [State.dealerParity, h]

@[simp] theorem kept_dealerRebuilt {s : State} (h : Kept P q u o s) (r : Nat) : Kept P q u o (State.dealerRebuilt s r) := by
  simp +contextual (maxDischargeDepth := 60) [State.dealerRebuilt, h]

@[simp] theorem kept_destroyEnd [PokeClosed P] {s : State} (h : Kept P q u o s) (n : Nat) :
    Kept P q u o (State.destroyEnd s n) := by
  simp +contextual (maxDischargeDepth := 60) [State.destroyEnd, h]

@[simp] theorem kept_destroyFinish [PokeClosed P] {s : State} (h : Kept P q u o s) (n : Nat) :
    Kept P q u o (State.destroyFinish s n) := by
  simp +contextual (maxDischargeDepth := 60) [State.destroyFinish, h]

@[simp] theorem kept_updSupply {s : State} (h : Kept P q u o s) (d : Nat) (f : Supply → Supply) :
    Kept P q u o (State.updSupply s d f) := by
  simp +contextual (maxDischargeDepth := 60) [State.updSupply, h]

@[simp] theorem kept_dipOver {s : State} (h : Kept P q u o s) (d : Nat) : Kept P q u o (State.dipOver s d) := by
  simp +contextual (maxDischargeDepth := 60) [State.dipOver, h]

@[simp] theorem kept_donateTimeout {s : State} (h : Kept P q u o s) (f : Nat) : Kept P q u o (State.donateTimeout s f) := by
  (unfold State.donateTimeout; repeat' split) <;> simp +contextual (maxDischargeDepth := 60) [*]

@[simp] theorem kept_leftovers {s : State} (h : Kept P q u o s) (y1 c : Nat) : Kept P q u o (State.leftovers s y1 c) := by
  simp +contextual (maxDischargeDepth := 60) [State.leftovers, h]

@[simp] theorem kept_portAccept {s : State} (h : Kept P q u o s) (y1 : Nat) (l : Launch) :
    Kept P q u o (State.portAccept s y1 l) := by
  simp +contextual (maxDischargeDepth := 60) [State.portAccept, h]

@[simp] theorem kept_drainDone {s : State} (h : Kept P q u o s) (y1 : Nat) (st : CellStatus) :
    Kept P q u o (State.drainDone s y1 st) := by
  (unfold State.drainDone; repeat' (first
    | simp +contextual (maxDischargeDepth := 60) [*]
    | (refine kept_writeBytes (by assumption) ?_)
    | (refine kept_openAll_eq (by assumption) ?_)
    | (refine kept_fanPassTwo_eq (by assumption) ?_)
    | (refine kept_takeBack_eq (by assumption) ?_)
    | (refine kept_inspRead_eq (by assumption) ?_)
    | (refine kept_readReg_eq (by assumption) ?_)
    | (refine kept_readLow_eq (by assumption) ?_)
    | (refine kept_readHigh_eq (by assumption) ?_)
    | (refine kept_readPart_eq (by assumption) ?_)
    | (refine kept_readPage (by assumption) ?_)
    | (refine kept_readData (by assumption) ?_)
    | (refine kept_slotWrite_eq (by assumption) ?_)
    | (refine kept_readEdges_eq (by assumption) ?_)
    | (refine kept_checkNode_eq (by assumption) ?_)
    | (refine kept_reserve (by assumption) ?_)
    | (refine kept_serve (by assumption) ?_)
    | (refine kept_tryCall_eq (by assumption) ?_)
    | (refine kept_parcelHere_eq (by assumption) ?_)
    | (refine kept_judgeE2e_eq (by assumption) ?_)
    | (refine kept_parcelTests_eq (by assumption) ?_)
    | (refine kept_seqEnd (by assumption) ?_)
    | (refine kept_popPage_eq (by assumption) ?_)
    | (refine kept_grantPages_eq (by assumption) ?_)
    | (refine kept_dropUnknown_eq (by assumption) ?_)
    | (refine kept_leadTick_eq (by assumption) ?_)
    | (refine kept_each _ _ ?_ ?_)
    | split
    | intro _
    | dsimp only
    ))

@[simp] theorem kept_killCell {s : State} (h : Kept P q u o s) (y1 : Nat) (l : Launch) (lines : List Nat) :
    Kept P q u o (State.killCell s y1 l lines) := by
  simp +contextual (maxDischargeDepth := 60) [State.killCell, h]

@[simp] theorem kept_drainExpiry {s : State} (h : Kept P q u o s) (y1 : Nat) (lines : List Nat) :
    Kept P q u o (State.drainExpiry s y1 lines) := by
  (unfold State.drainExpiry; repeat' (first
    | simp +contextual (maxDischargeDepth := 60) [*]
    | (refine kept_writeBytes (by assumption) ?_)
    | (refine kept_openAll_eq (by assumption) ?_)
    | (refine kept_fanPassTwo_eq (by assumption) ?_)
    | (refine kept_takeBack_eq (by assumption) ?_)
    | (refine kept_inspRead_eq (by assumption) ?_)
    | (refine kept_readReg_eq (by assumption) ?_)
    | (refine kept_readLow_eq (by assumption) ?_)
    | (refine kept_readHigh_eq (by assumption) ?_)
    | (refine kept_readPart_eq (by assumption) ?_)
    | (refine kept_readPage (by assumption) ?_)
    | (refine kept_readData (by assumption) ?_)
    | (refine kept_slotWrite_eq (by assumption) ?_)
    | (refine kept_readEdges_eq (by assumption) ?_)
    | (refine kept_checkNode_eq (by assumption) ?_)
    | (refine kept_reserve (by assumption) ?_)
    | (refine kept_serve (by assumption) ?_)
    | (refine kept_tryCall_eq (by assumption) ?_)
    | (refine kept_parcelHere_eq (by assumption) ?_)
    | (refine kept_judgeE2e_eq (by assumption) ?_)
    | (refine kept_parcelTests_eq (by assumption) ?_)
    | (refine kept_seqEnd (by assumption) ?_)
    | (refine kept_popPage_eq (by assumption) ?_)
    | (refine kept_grantPages_eq (by assumption) ?_)
    | (refine kept_dropUnknown_eq (by assumption) ?_)
    | (refine kept_leadTick_eq (by assumption) ?_)
    | (refine kept_each _ _ ?_ ?_)
    | split
    | intro _
    | dsimp only
    ))

@[simp] theorem kept_draoft [PokeClosed P] {s : State} (h : Kept P q u o s) (i : Instr) : Kept P q u o (State.draoft s i) := by
  simp +contextual (maxDischargeDepth := 60) [State.draoft, h]

@[simp] theorem kept_draoftLine [PokeClosed P] {s : State} (h : Kept P q u o s) (i : Instr) :
    Kept P q u o (State.draoftLine s i) := by
  simp +contextual (maxDischargeDepth := 60) [State.draoftLine, h]

@[simp] theorem kept_instantiateTrick {s : State} (h : Kept P q u o s) (k : Nat) : Kept P q u o (s.instantiateTrick k) := by
  unfold State.instantiateTrick
  split
  · exact h
  · dsimp only
    split
    · simp +contextual (maxDischargeDepth := 60) [h]
    · split
      · simp +contextual (maxDischargeDepth := 60) [h]
      · simp +contextual (maxDischargeDepth := 60) [h]
      · have h1 := kept_instantiate ‹_› h
        simp +contextual (maxDischargeDepth := 60) [h1]

@[simp] theorem kept_dynTry {s : State} (h : Kept P q u o s) (k : Nat) : Kept P q u o (State.dynTry s k) := by
  (unfold State.dynTry; repeat' split) <;> simp +contextual (maxDischargeDepth := 60) [*]

@[simp] theorem kept_dynRetry [PokeClosed P] {s : State} (h : Kept P q u o s) (c : Nat) :
    Kept P q u o (State.dynRetry s c) := by
  (unfold State.dynRetry; repeat' split) <;> simp +contextual (maxDischargeDepth := 60) [*]

@[simp] theorem kept_giveUp [PokeClosed P] {s : State} (h : Kept P q u o s) (y1 : Unanswered) :
    Kept P q u o (State.giveUp s y1) := by
  (unfold State.giveUp; repeat' split) <;> simp +contextual (maxDischargeDepth := 60) [*]

@[simp] theorem kept_e2eResend [PokeClosed P] {s : State} (h : Kept P q u o s) (dst seq : Nat) :
    Kept P q u o (State.e2eResend s dst seq) := by
  (unfold State.e2eResend; repeat' split) <;> simp +contextual (maxDischargeDepth := 60) [*]

@[simp] theorem kept_edgeLost {s : State} (h : Kept P q u o s) (c j : Nat) : Kept P q u o (State.edgeLost s c j) := by
  (unfold State.edgeLost; repeat' split) <;> simp +contextual (maxDischargeDepth := 60) [*]

@[simp] theorem kept_engineDone {s : State} (h : Kept P q u o s) (y1 : Nat) (st : CellStatus) (w : BitVec 32) :
    Kept P q u o (State.engineDone s y1 st w) := by
  (unfold State.engineDone; repeat' (first
    | simp +contextual (maxDischargeDepth := 60) [*]
    | (refine kept_writeBytes (by assumption) ?_)
    | (refine kept_openAll_eq (by assumption) ?_)
    | (refine kept_fanPassTwo_eq (by assumption) ?_)
    | (refine kept_takeBack_eq (by assumption) ?_)
    | (refine kept_inspRead_eq (by assumption) ?_)
    | (refine kept_readReg_eq (by assumption) ?_)
    | (refine kept_readLow_eq (by assumption) ?_)
    | (refine kept_readHigh_eq (by assumption) ?_)
    | (refine kept_readPart_eq (by assumption) ?_)
    | (refine kept_readPage (by assumption) ?_)
    | (refine kept_readData (by assumption) ?_)
    | (refine kept_slotWrite_eq (by assumption) ?_)
    | (refine kept_readEdges_eq (by assumption) ?_)
    | (refine kept_checkNode_eq (by assumption) ?_)
    | (refine kept_reserve (by assumption) ?_)
    | (refine kept_serve (by assumption) ?_)
    | (refine kept_tryCall_eq (by assumption) ?_)
    | (refine kept_parcelHere_eq (by assumption) ?_)
    | (refine kept_judgeE2e_eq (by assumption) ?_)
    | (refine kept_parcelTests_eq (by assumption) ?_)
    | (refine kept_seqEnd (by assumption) ?_)
    | (refine kept_popPage_eq (by assumption) ?_)
    | (refine kept_grantPages_eq (by assumption) ?_)
    | (refine kept_dropUnknown_eq (by assumption) ?_)
    | (refine kept_leadTick_eq (by assumption) ?_)
    | (refine kept_each _ _ ?_ ?_)
    | split
    | intro _
    | dsimp only
    ))

@[simp] theorem kept_engineReq {s : State} (h : Kept P q u o s) (y1 vid : Nat) (sc : Scope) (op : SyncOp) :
    Kept P q u o (State.engineReq s y1 vid sc op) := by
  (unfold State.engineReq; repeat' split) <;> simp +contextual (maxDischargeDepth := 60) [*]

@[simp] theorem kept_enterFatal {s : State} (h : Kept P q u o s) (sub : Nat) : Kept P q u o (State.enterFatal s sub) := by
  (unfold State.enterFatal; repeat' (first
    | simp +contextual (maxDischargeDepth := 60) [*]
    | (refine kept_writeBytes (by assumption) ?_)
    | (refine kept_openAll_eq (by assumption) ?_)
    | (refine kept_fanPassTwo_eq (by assumption) ?_)
    | (refine kept_takeBack_eq (by assumption) ?_)
    | (refine kept_inspRead_eq (by assumption) ?_)
    | (refine kept_readReg_eq (by assumption) ?_)
    | (refine kept_readLow_eq (by assumption) ?_)
    | (refine kept_readHigh_eq (by assumption) ?_)
    | (refine kept_readPart_eq (by assumption) ?_)
    | (refine kept_readPage (by assumption) ?_)
    | (refine kept_readData (by assumption) ?_)
    | (refine kept_slotWrite_eq (by assumption) ?_)
    | (refine kept_readEdges_eq (by assumption) ?_)
    | (refine kept_checkNode_eq (by assumption) ?_)
    | (refine kept_reserve (by assumption) ?_)
    | (refine kept_serve (by assumption) ?_)
    | (refine kept_tryCall_eq (by assumption) ?_)
    | (refine kept_parcelHere_eq (by assumption) ?_)
    | (refine kept_judgeE2e_eq (by assumption) ?_)
    | (refine kept_parcelTests_eq (by assumption) ?_)
    | (refine kept_seqEnd (by assumption) ?_)
    | (refine kept_popPage_eq (by assumption) ?_)
    | (refine kept_grantPages_eq (by assumption) ?_)
    | (refine kept_dropUnknown_eq (by assumption) ?_)
    | (refine kept_leadTick_eq (by assumption) ?_)
    | (refine kept_each _ _ ?_ ?_)
    | split
    | intro _
    | dsimp only
    ))

@[simp] theorem kept_fallbackTaken {s : State} (h : Kept P q u o s) (k : Nat) : Kept P q u o (State.fallbackTaken s k) := by
  simp +contextual (maxDischargeDepth := 60) [State.fallbackTaken, h]

@[simp] theorem kept_evaluate {s : State} (h : Kept P q u o s) (k : Nat) : Kept P q u o (State.evaluate s k) := by
  simp +contextual (maxDischargeDepth := 60) [State.evaluate, h]

@[simp] theorem kept_fanoutComplete {s : State} (h : Kept P q u o s) (k : Nat) : Kept P q u o (State.fanoutComplete s k) := by
  simp +contextual (maxDischargeDepth := 60) [State.fanoutComplete, h]

@[simp] theorem kept_leaveSaved {s : State} (h : Kept P q u o s) (c len crc : Nat) :
    Kept P q u o (State.leaveSaved s c len crc) := by
  simp +contextual (maxDischargeDepth := 60) [State.leaveSaved, h]

@[simp] theorem kept_flushXlat {s : State} (h : Kept P q u o s) (c : Nat) : Kept P q u o (State.flushXlat s c) := by
  simp +contextual (maxDischargeDepth := 60) [State.flushXlat, h]

@[simp] theorem kept_saveRefused [PokeClosed P] {s : State} (h : Kept P q u o s) (c : Nat) :
    Kept P q u o (State.saveRefused s c) := by
  simp +contextual (maxDischargeDepth := 60) [State.saveRefused, h]

@[simp] theorem kept_tellDonations {s : State} (h : Kept P q u o s) (c : Nat) : Kept P q u o (State.tellDonations s c) := by
  (unfold State.tellDonations; repeat' (first
    | simp +contextual (maxDischargeDepth := 60) [*]
    | (refine kept_writeBytes (by assumption) ?_)
    | (refine kept_openAll_eq (by assumption) ?_)
    | (refine kept_fanPassTwo_eq (by assumption) ?_)
    | (refine kept_takeBack_eq (by assumption) ?_)
    | (refine kept_inspRead_eq (by assumption) ?_)
    | (refine kept_readReg_eq (by assumption) ?_)
    | (refine kept_readLow_eq (by assumption) ?_)
    | (refine kept_readHigh_eq (by assumption) ?_)
    | (refine kept_readPart_eq (by assumption) ?_)
    | (refine kept_readPage (by assumption) ?_)
    | (refine kept_readData (by assumption) ?_)
    | (refine kept_slotWrite_eq (by assumption) ?_)
    | (refine kept_readEdges_eq (by assumption) ?_)
    | (refine kept_checkNode_eq (by assumption) ?_)
    | (refine kept_reserve (by assumption) ?_)
    | (refine kept_serve (by assumption) ?_)
    | (refine kept_tryCall_eq (by assumption) ?_)
    | (refine kept_parcelHere_eq (by assumption) ?_)
    | (refine kept_judgeE2e_eq (by assumption) ?_)
    | (refine kept_parcelTests_eq (by assumption) ?_)
    | (refine kept_seqEnd (by assumption) ?_)
    | (refine kept_popPage_eq (by assumption) ?_)
    | (refine kept_grantPages_eq (by assumption) ?_)
    | (refine kept_dropUnknown_eq (by assumption) ?_)
    | (refine kept_leadTick_eq (by assumption) ?_)
    | (refine kept_each _ _ ?_ ?_)
    | split
    | intro _
    | dsimp only
    ))

@[simp] theorem kept_finishSave [PokeClosed P] {s : State} (h : Kept P q u o s) (c : Nat) : Kept P q u o (s.finishSave c) := by
  unfold State.finishSave
  extract_lets s1 img s2
  have h1 : Kept P q u o s1 := by simp +contextual (maxDischargeDepth := 60) [s1, h]
  clear_value s1
  split
  · simp +contextual (maxDischargeDepth := 60) [h1]
  · split
    · simp +contextual (maxDischargeDepth := 60) [s2, h1]
    · have h2 := kept_writeBytes ‹_› h1
      simp +contextual (maxDischargeDepth := 60) [h2]

@[simp] theorem kept_foldCmd {s : State} (h : Kept P q u o s) (n seq : Nat) : Kept P q u o (State.foldCmd s n seq) := by
  simp +contextual (maxDischargeDepth := 60) [State.foldCmd, h]

@[simp] theorem kept_foldCommand [PokeClosed P] {s : State} (h : Kept P q u o s) (n : Nat) :
    Kept P q u o (s.foldCommand n) := by
  refine kept_takeDesc h _ _ (fun _ _ _ h => ?_)
  dsimp only
  simp +contextual (maxDischargeDepth := 60) [h]

@[simp] theorem kept_portPut {s : State} (h : Kept P q u o s) (fseq : Nat) (bs : List Byte) :
    Kept P q u o (State.portPut s fseq bs) := by
  simp +contextual (maxDischargeDepth := 60) [State.portPut, h]

@[simp] theorem kept_sinkPut [PokeClosed P] {s : State} (h : Kept P q u o s) (fseq : Nat) (bs : List Byte) :
    Kept P q u o (State.sinkPut s fseq bs) := by
  simp +contextual (maxDischargeDepth := 60) [State.sinkPut, h]

@[simp] theorem kept_traceEnter {s : State} (h : Kept P q u o s)  : Kept P q u o (State.traceEnter s) := by
  simp +contextual (maxDischargeDepth := 60) [State.traceEnter, h]

@[simp] theorem kept_lossResume {s : State} (h : Kept P q u o s)  : Kept P q u o (State.lossResume s) := by
  simp +contextual (maxDischargeDepth := 60) [State.lossResume, h]

@[simp] theorem kept_frameSend [PokeClosed P] {s : State} (h : Kept P q u o s)  : Kept P q u o (State.frameSend s) := by
  simp +contextual (maxDischargeDepth := 60) [State.frameSend, h]

@[simp] theorem kept_fwLoaded {s : State} (h : Kept P q u o s) (k : Nat) : Kept P q u o (State.fwLoaded s k) := by
  (unfold State.fwLoaded; repeat' split) <;> simp +contextual (maxDischargeDepth := 60) [*]

@[simp] theorem kept_leDone {s : State} (h : Kept P q u o s) (k : Nat) (st : CellStatus) (w : BitVec 32) :
    Kept P q u o (State.leDone s k st w) := by
  (unfold State.leDone; repeat' (first
    | simp +contextual (maxDischargeDepth := 60) [*]
    | (refine kept_writeBytes (by assumption) ?_)
    | (refine kept_openAll_eq (by assumption) ?_)
    | (refine kept_fanPassTwo_eq (by assumption) ?_)
    | (refine kept_takeBack_eq (by assumption) ?_)
    | (refine kept_inspRead_eq (by assumption) ?_)
    | (refine kept_readReg_eq (by assumption) ?_)
    | (refine kept_readLow_eq (by assumption) ?_)
    | (refine kept_readHigh_eq (by assumption) ?_)
    | (refine kept_readPart_eq (by assumption) ?_)
    | (refine kept_readPage (by assumption) ?_)
    | (refine kept_readData (by assumption) ?_)
    | (refine kept_slotWrite_eq (by assumption) ?_)
    | (refine kept_readEdges_eq (by assumption) ?_)
    | (refine kept_checkNode_eq (by assumption) ?_)
    | (refine kept_reserve (by assumption) ?_)
    | (refine kept_serve (by assumption) ?_)
    | (refine kept_tryCall_eq (by assumption) ?_)
    | (refine kept_parcelHere_eq (by assumption) ?_)
    | (refine kept_judgeE2e_eq (by assumption) ?_)
    | (refine kept_parcelTests_eq (by assumption) ?_)
    | (refine kept_seqEnd (by assumption) ?_)
    | (refine kept_popPage_eq (by assumption) ?_)
    | (refine kept_grantPages_eq (by assumption) ?_)
    | (refine kept_dropUnknown_eq (by assumption) ?_)
    | (refine kept_leadTick_eq (by assumption) ?_)
    | (refine kept_each _ _ ?_ ?_)
    | split
    | intro _
    | dsimp only
    ))

@[simp] theorem kept_returnSend {s : State} (h : Kept P q u o s) (y1 y2 off : Nat) (payload : List Byte) :
    Kept P q u o (State.returnSend s y1 y2 off payload) := by
  (unfold State.returnSend; repeat' split) <;> simp +contextual (maxDischargeDepth := 60) [*]

@[simp] theorem kept_nakReceive {s : State} (h : Kept P q u o s) (k seq : Nat) : Kept P q u o (State.nakReceive s k seq) := by
  simp +contextual (maxDischargeDepth := 60) [State.nakReceive, h]

@[simp] theorem kept_phyReady {s : State} (h : Kept P q u o s) (k : Nat) : Kept P q u o (State.phyReady s k) := by
  simp +contextual (maxDischargeDepth := 60) [State.phyReady, h]

@[simp] theorem kept_gateRow [PokeClosed P] {s : State} (h : Kept P q u o s) (i : Instr) :
    Kept P q u o (State.gateRow s i) := by
  (unfold State.gateRow; repeat' split) <;> simp +contextual (maxDischargeDepth := 60) [*]

@[simp] theorem kept_gateOpen [PokeClosed P] {s : State} (h : Kept P q u o s)  : Kept P q u o (State.gateOpen s) := by
  simp +contextual (maxDischargeDepth := 60) [State.gateOpen, h]

@[simp] theorem kept_gateStop {s : State} (h : Kept P q u o s) (y1 : Nat) : Kept P q u o (State.gateStop s y1) := by
  simp +contextual (maxDischargeDepth := 60) [State.gateStop, h]

@[simp] theorem kept_gsInit {s : State} (h : Kept P q u o s)  : Kept P q u o (State.gsInit s) := by
  simp +contextual (maxDischargeDepth := 60) [State.gsInit, h]

@[simp] theorem kept_helloSend {s : State} (h : Kept P q u o s) (k : Nat) : Kept P q u o (State.helloSend s k) := by
  simp +contextual (maxDischargeDepth := 60) [State.helloSend, h]

@[simp] theorem kept_holdFor {s : State} (h : Kept P q u o s) (y1 y2 : Nat) : Kept P q u o (State.holdFor s y1 y2) := by
  (unfold State.holdFor; repeat' (first
    | simp +contextual (maxDischargeDepth := 60) [*]
    | (refine kept_writeBytes (by assumption) ?_)
    | (refine kept_openAll_eq (by assumption) ?_)
    | (refine kept_fanPassTwo_eq (by assumption) ?_)
    | (refine kept_takeBack_eq (by assumption) ?_)
    | (refine kept_inspRead_eq (by assumption) ?_)
    | (refine kept_readReg_eq (by assumption) ?_)
    | (refine kept_readLow_eq (by assumption) ?_)
    | (refine kept_readHigh_eq (by assumption) ?_)
    | (refine kept_readPart_eq (by assumption) ?_)
    | (refine kept_readPage (by assumption) ?_)
    | (refine kept_readData (by assumption) ?_)
    | (refine kept_slotWrite_eq (by assumption) ?_)
    | (refine kept_readEdges_eq (by assumption) ?_)
    | (refine kept_checkNode_eq (by assumption) ?_)
    | (refine kept_reserve (by assumption) ?_)
    | (refine kept_serve (by assumption) ?_)
    | (refine kept_tryCall_eq (by assumption) ?_)
    | (refine kept_parcelHere_eq (by assumption) ?_)
    | (refine kept_judgeE2e_eq (by assumption) ?_)
    | (refine kept_parcelTests_eq (by assumption) ?_)
    | (refine kept_seqEnd (by assumption) ?_)
    | (refine kept_popPage_eq (by assumption) ?_)
    | (refine kept_grantPages_eq (by assumption) ?_)
    | (refine kept_dropUnknown_eq (by assumption) ?_)
    | (refine kept_leadTick_eq (by assumption) ?_)
    | (refine kept_each _ _ ?_ ?_)
    | split
    | intro _
    | dsimp only
    ))

@[simp] theorem kept_hopTimeout {s : State} (h : Kept P q u o s) (k : Nat) : Kept P q u o (State.hopTimeout s k) := by
  (unfold State.hopTimeout; repeat' split) <;> simp +contextual (maxDischargeDepth := 60) [*]

@[simp] theorem kept_wakeBusy {s : State} (h : Kept P q u o s)  : Kept P q u o (State.wakeBusy s) := by
  simp +contextual (maxDischargeDepth := 60) [State.wakeBusy, h]

@[simp] theorem kept_hubCycle [PokeClosed P] {s : State} (h : Kept P q u o s)  : Kept P q u o (State.hubCycle s) := by
  simp +contextual (maxDischargeDepth := 60) [State.hubCycle, h]

@[simp] theorem kept_importLanded [PokeClosed P] {s : State} (h : Kept P q u o s) (y1 : Nat) :
    Kept P q u o (State.importLanded s y1) := by
  (unfold State.importLanded; repeat' split) <;> simp +contextual (maxDischargeDepth := 60) [*]

@[simp] theorem kept_internalTick {s : State} (h : Kept P q u o s)  : Kept P q u o (State.internalTick s) := by
  simp +contextual (maxDischargeDepth := 60) [State.internalTick, h]

@[simp] theorem kept_invalEnd {s : State} (h : Kept P q u o s) (y1 : Nat) : Kept P q u o (State.invalEnd s y1) := by
  simp +contextual (maxDischargeDepth := 60) [State.invalEnd, h]

@[simp] theorem kept_invalRequest {s : State} (h : Kept P q u o s) (y1 addr len : Nat) :
    Kept P q u o (State.invalRequest s y1 addr len) := by
  simp +contextual (maxDischargeDepth := 60) [State.invalRequest, h]

@[simp] theorem kept_irqTimeout {s : State} (h : Kept P q u o s) (n : Nat) : Kept P q u o (State.irqTimeout s n) := by
  (unfold State.irqTimeout; repeat' split) <;> simp +contextual (maxDischargeDepth := 60) [*]

@[simp] theorem kept_movePtr {s : State} (h : Kept P q u o s) (r p : Nat) (cls y4 : Nat) :
    Kept P q u o (State.movePtr s r p cls y4) := by
  simp +contextual (maxDischargeDepth := 60) [State.movePtr, h]

@[simp] theorem kept_issueSlot {s : State} (h : Kept P q u o s) (r : Nat) : Kept P q u o (State.issueSlot s r) := by
  (unfold State.issueSlot; repeat' split) <;> simp +contextual (maxDischargeDepth := 60) [*]

@[simp] theorem kept_iterationEnd {s : State} (h : Kept P q u o s) (k : Nat) : Kept P q u o (State.iterationEnd s k) := by
  (unfold State.iterationEnd; repeat' (first
    | simp +contextual (maxDischargeDepth := 60) [*]
    | (refine kept_writeBytes (by assumption) ?_)
    | (refine kept_openAll_eq (by assumption) ?_)
    | (refine kept_fanPassTwo_eq (by assumption) ?_)
    | (refine kept_takeBack_eq (by assumption) ?_)
    | (refine kept_inspRead_eq (by assumption) ?_)
    | (refine kept_readReg_eq (by assumption) ?_)
    | (refine kept_readLow_eq (by assumption) ?_)
    | (refine kept_readHigh_eq (by assumption) ?_)
    | (refine kept_readPart_eq (by assumption) ?_)
    | (refine kept_readPage (by assumption) ?_)
    | (refine kept_readData (by assumption) ?_)
    | (refine kept_slotWrite_eq (by assumption) ?_)
    | (refine kept_readEdges_eq (by assumption) ?_)
    | (refine kept_checkNode_eq (by assumption) ?_)
    | (refine kept_reserve (by assumption) ?_)
    | (refine kept_serve (by assumption) ?_)
    | (refine kept_tryCall_eq (by assumption) ?_)
    | (refine kept_parcelHere_eq (by assumption) ?_)
    | (refine kept_judgeE2e_eq (by assumption) ?_)
    | (refine kept_parcelTests_eq (by assumption) ?_)
    | (refine kept_seqEnd (by assumption) ?_)
    | (refine kept_popPage_eq (by assumption) ?_)
    | (refine kept_grantPages_eq (by assumption) ?_)
    | (refine kept_dropUnknown_eq (by assumption) ?_)
    | (refine kept_leadTick_eq (by assumption) ?_)
    | (refine kept_each _ _ ?_ ?_)
    | split
    | intro _
    | dsimp only
    ))

@[simp] theorem kept_landingFree {s : State} (h : Kept P q u o s) (l : Nat) : Kept P q u o (State.landingFree s l) := by
  (unfold State.landingFree; repeat' (first
    | simp +contextual (maxDischargeDepth := 60) [*]
    | (refine kept_writeBytes (by assumption) ?_)
    | (refine kept_openAll_eq (by assumption) ?_)
    | (refine kept_fanPassTwo_eq (by assumption) ?_)
    | (refine kept_takeBack_eq (by assumption) ?_)
    | (refine kept_inspRead_eq (by assumption) ?_)
    | (refine kept_readReg_eq (by assumption) ?_)
    | (refine kept_readLow_eq (by assumption) ?_)
    | (refine kept_readHigh_eq (by assumption) ?_)
    | (refine kept_readPart_eq (by assumption) ?_)
    | (refine kept_readPage (by assumption) ?_)
    | (refine kept_readData (by assumption) ?_)
    | (refine kept_slotWrite_eq (by assumption) ?_)
    | (refine kept_readEdges_eq (by assumption) ?_)
    | (refine kept_checkNode_eq (by assumption) ?_)
    | (refine kept_reserve (by assumption) ?_)
    | (refine kept_serve (by assumption) ?_)
    | (refine kept_tryCall_eq (by assumption) ?_)
    | (refine kept_parcelHere_eq (by assumption) ?_)
    | (refine kept_judgeE2e_eq (by assumption) ?_)
    | (refine kept_parcelTests_eq (by assumption) ?_)
    | (refine kept_seqEnd (by assumption) ?_)
    | (refine kept_popPage_eq (by assumption) ?_)
    | (refine kept_grantPages_eq (by assumption) ?_)
    | (refine kept_dropUnknown_eq (by assumption) ?_)
    | (refine kept_leadTick_eq (by assumption) ?_)
    | (refine kept_each _ _ ?_ ?_)
    | split
    | intro _
    | dsimp only
    ))

@[simp] theorem kept_landingResume {s : State} (h : Kept P q u o s)  : Kept P q u o (State.landingResume s) := by
  (unfold State.landingResume; repeat' split) <;> simp +contextual (maxDischargeDepth := 60) [*]

@[simp] theorem kept_landingTimeout [PokeClosed P] {s : State} (h : Kept P q u o s) (l : Nat) :
    Kept P q u o (State.landingTimeout s l) := by
  (unfold State.landingTimeout; repeat' split) <;> simp +contextual (maxDischargeDepth := 60) [*]

@[simp] theorem kept_leBench [PokeClosed P] {s : State} (h : Kept P q u o s) (k reason : Nat) :
    Kept P q u o (State.leBench s k reason) := by
  simp +contextual (maxDischargeDepth := 60) [State.leBench, h]

@[simp] theorem kept_leIssueSlot {s : State} (h : Kept P q u o s)  : Kept P q u o (State.leIssueSlot s) := by
  (unfold State.leIssueSlot; repeat' split) <;> simp +contextual (maxDischargeDepth := 60) [*]

@[simp] theorem kept_linkSilent {s : State} (h : Kept P q u o s) (k : Nat) : Kept P q u o (State.linkSilent s k) := by
  simp +contextual (maxDischargeDepth := 60) [State.linkSilent, h]

@[simp] theorem kept_lockstepTick [PokeClosed P] {s : State} (h : Kept P q u o s)  : Kept P q u o (State.lockstepTick s) := by
  simp +contextual (maxDischargeDepth := 60) [State.lockstepTick, h]

@[simp] theorem kept_logWrite [PokeClosed P] {s : State} (h : Kept P q u o s) (k : Nat) : Kept P q u o (s.logWrite k) := by
  unfold State.logWrite
  split
  · exact h
  · split
    · exact h
    · dsimp only
      split
      · simp +contextual (maxDischargeDepth := 60) [h]
      · rename_i heq
        obtain ⟨y, e1, e2⟩ := Option.bind_eq_some_iff.1 heq
        have hy : Kept P q u o y := by
          split at e1
          · cases e1; exact h
          · exact kept_writeBytes e1 h
        exact kept_trickOver (kept_setReg (kept_writeBytes e2 hy) _ _) _ _

@[simp] theorem kept_markSent {s : State} (h : Kept P q u o s) (us : List Unanswered) : Kept P q u o (State.markSent s us) := by
  simp +contextual (maxDischargeDepth := 60) [State.markSent, h]

@[simp] theorem kept_takeType [PokeClosed P] {s : State} (h : Kept P q u o s) (k y2 typ : Nat) :
    Kept P q u o (State.takeType s k y2 typ) := by
  (unfold State.takeType; repeat' split) <;> simp +contextual (maxDischargeDepth := 60) [*]

@[simp] theorem kept_markerReceive [PokeClosed P] {s : State} (h : Kept P q u o s) (k y2 : Nat) :
    Kept P q u o (State.markerReceive s k y2) := by
  (unfold State.markerReceive; repeat' split) <;> simp +contextual (maxDischargeDepth := 60) [*]

@[simp] theorem kept_markerTimeout {s : State} (h : Kept P q u o s) (k : Nat) : Kept P q u o (State.markerTimeout s k) := by
  simp +contextual (maxDischargeDepth := 60) [State.markerTimeout, h]

@[simp] theorem kept_memRequest [PokeClosed P] {s : State} (h : Kept P q u o s) (y1 addr granules : Nat) (data : List Byte) : Kept P q u o (State.memRequest s y1 addr granules data) := by
  (unfold State.memRequest; repeat' split) <;> simp +contextual (maxDischargeDepth := 60) [*]

@[simp] theorem kept_mirrorParity [PokeClosed P] {s : State} (h : Kept P q u o s) (tile : Nat) (lines : List Nat) :
    Kept P q u o (State.mirrorParity s tile lines) := by
  simp +contextual (maxDischargeDepth := 60) [State.mirrorParity, h]

@[simp] theorem kept_monitor {s : State} (h : Kept P q u o s) (k : Nat) : Kept P q u o (State.monitor s k) := by
  simp +contextual (maxDischargeDepth := 60) [State.monitor, h]

@[simp] theorem kept_msixUnmask {s : State} (h : Kept P q u o s) (v : Nat) : Kept P q u o (State.msixUnmask s v) := by
  simp +contextual (maxDischargeDepth := 60) [State.msixUnmask, h]

@[simp] theorem kept_nodeDispatch {s : State} (h : Kept P q u o s) (k : Nat) : Kept P q u o (State.nodeDispatch s k) := by
  simp +contextual (maxDischargeDepth := 60) [State.nodeDispatch, h]

@[simp] theorem kept_nop [PokeClosed P] {s : State} (h : Kept P q u o s) (n : Nat) : Kept P q u o (State.nop s n) := by
  (unfold State.nop; repeat' split) <;> simp +contextual (maxDischargeDepth := 60) [*]

@[simp] theorem kept_noteBad {s : State} (h : Kept P q u o s) (c : Choice) : Kept P q u o (State.noteBad s c) := by
  (unfold State.noteBad; repeat' split) <;> simp +contextual (maxDischargeDepth := 60) [*]

@[simp] theorem kept_releaseOrphan {s : State} (h : Kept P q u o s) (key : Nat) (w : Waiter) :
    Kept P q u o (State.releaseOrphan s key w) := by
  simp +contextual (maxDischargeDepth := 60) [State.releaseOrphan, h]

@[simp] theorem kept_orphan {s : State} (h : Kept P q u o s) (key : Nat) : Kept P q u o (State.orphan s key) := by
  simp +contextual (maxDischargeDepth := 60) [State.orphan, h]

@[simp] theorem kept_objectLost {s : State} (h : Kept P q u o s) (key : Nat) : Kept P q u o (State.objectLost s key) := by
  simp +contextual (maxDischargeDepth := 60) [State.objectLost, h]

@[simp] theorem kept_offerAnswer {s : State} (h : Kept P q u o s) (r k : Nat) : Kept P q u o (State.offerAnswer s r k) := by
  (unfold State.offerAnswer; repeat' (first
    | simp +contextual (maxDischargeDepth := 60) [*]
    | (refine kept_writeBytes (by assumption) ?_)
    | (refine kept_openAll_eq (by assumption) ?_)
    | (refine kept_fanPassTwo_eq (by assumption) ?_)
    | (refine kept_takeBack_eq (by assumption) ?_)
    | (refine kept_inspRead_eq (by assumption) ?_)
    | (refine kept_readReg_eq (by assumption) ?_)
    | (refine kept_readLow_eq (by assumption) ?_)
    | (refine kept_readHigh_eq (by assumption) ?_)
    | (refine kept_readPart_eq (by assumption) ?_)
    | (refine kept_readPage (by assumption) ?_)
    | (refine kept_readData (by assumption) ?_)
    | (refine kept_slotWrite_eq (by assumption) ?_)
    | (refine kept_readEdges_eq (by assumption) ?_)
    | (refine kept_checkNode_eq (by assumption) ?_)
    | (refine kept_reserve (by assumption) ?_)
    | (refine kept_serve (by assumption) ?_)
    | (refine kept_tryCall_eq (by assumption) ?_)
    | (refine kept_parcelHere_eq (by assumption) ?_)
    | (refine kept_judgeE2e_eq (by assumption) ?_)
    | (refine kept_parcelTests_eq (by assumption) ?_)
    | (refine kept_seqEnd (by assumption) ?_)
    | (refine kept_popPage_eq (by assumption) ?_)
    | (refine kept_grantPages_eq (by assumption) ?_)
    | (refine kept_dropUnknown_eq (by assumption) ?_)
    | (refine kept_leadTick_eq (by assumption) ?_)
    | (refine kept_each _ _ ?_ ?_)
    | split
    | intro _
    | dsimp only
    ))

@[simp] theorem kept_offerConfirm {s : State} (h : Kept P q u o s) (r k : Nat) : Kept P q u o (State.offerConfirm s r k) := by
  (unfold State.offerConfirm; repeat' (first
    | simp +contextual (maxDischargeDepth := 60) [*]
    | (refine kept_writeBytes (by assumption) ?_)
    | (refine kept_openAll_eq (by assumption) ?_)
    | (refine kept_fanPassTwo_eq (by assumption) ?_)
    | (refine kept_takeBack_eq (by assumption) ?_)
    | (refine kept_inspRead_eq (by assumption) ?_)
    | (refine kept_readReg_eq (by assumption) ?_)
    | (refine kept_readLow_eq (by assumption) ?_)
    | (refine kept_readHigh_eq (by assumption) ?_)
    | (refine kept_readPart_eq (by assumption) ?_)
    | (refine kept_readPage (by assumption) ?_)
    | (refine kept_readData (by assumption) ?_)
    | (refine kept_slotWrite_eq (by assumption) ?_)
    | (refine kept_readEdges_eq (by assumption) ?_)
    | (refine kept_checkNode_eq (by assumption) ?_)
    | (refine kept_reserve (by assumption) ?_)
    | (refine kept_serve (by assumption) ?_)
    | (refine kept_tryCall_eq (by assumption) ?_)
    | (refine kept_parcelHere_eq (by assumption) ?_)
    | (refine kept_judgeE2e_eq (by assumption) ?_)
    | (refine kept_parcelTests_eq (by assumption) ?_)
    | (refine kept_seqEnd (by assumption) ?_)
    | (refine kept_popPage_eq (by assumption) ?_)
    | (refine kept_grantPages_eq (by assumption) ?_)
    | (refine kept_dropUnknown_eq (by assumption) ?_)
    | (refine kept_leadTick_eq (by assumption) ?_)
    | (refine kept_each _ _ ?_ ?_)
    | split
    | intro _
    | dsimp only
    ))

@[simp] theorem kept_offerWithdraw {s : State} (h : Kept P q u o s) (r k : Nat) : Kept P q u o (State.offerWithdraw s r k) := by
  (unfold State.offerWithdraw; repeat' (first
    | simp +contextual (maxDischargeDepth := 60) [*]
    | (refine kept_writeBytes (by assumption) ?_)
    | (refine kept_openAll_eq (by assumption) ?_)
    | (refine kept_fanPassTwo_eq (by assumption) ?_)
    | (refine kept_takeBack_eq (by assumption) ?_)
    | (refine kept_inspRead_eq (by assumption) ?_)
    | (refine kept_readReg_eq (by assumption) ?_)
    | (refine kept_readLow_eq (by assumption) ?_)
    | (refine kept_readHigh_eq (by assumption) ?_)
    | (refine kept_readPart_eq (by assumption) ?_)
    | (refine kept_readPage (by assumption) ?_)
    | (refine kept_readData (by assumption) ?_)
    | (refine kept_slotWrite_eq (by assumption) ?_)
    | (refine kept_readEdges_eq (by assumption) ?_)
    | (refine kept_checkNode_eq (by assumption) ?_)
    | (refine kept_reserve (by assumption) ?_)
    | (refine kept_serve (by assumption) ?_)
    | (refine kept_tryCall_eq (by assumption) ?_)
    | (refine kept_parcelHere_eq (by assumption) ?_)
    | (refine kept_judgeE2e_eq (by assumption) ?_)
    | (refine kept_parcelTests_eq (by assumption) ?_)
    | (refine kept_seqEnd (by assumption) ?_)
    | (refine kept_popPage_eq (by assumption) ?_)
    | (refine kept_grantPages_eq (by assumption) ?_)
    | (refine kept_dropUnknown_eq (by assumption) ?_)
    | (refine kept_leadTick_eq (by assumption) ?_)
    | (refine kept_each _ _ ?_ ?_)
    | split
    | intro _
    | dsimp only
    ))

@[simp] theorem kept_packetDone {s : State} (h : Kept P q u o s) (p : Packet) (seq : Nat) :
    Kept P q u o (State.packetDone s p seq) := by
  (unfold State.packetDone; repeat' split) <;> simp +contextual (maxDischargeDepth := 60) [*]

@[simp] theorem kept_refillFifo {s : State} (h : Kept P q u o s)  : Kept P q u o (State.refillFifo s) := by
  simp +contextual (maxDischargeDepth := 60) [State.refillFifo, h]

theorem kept_rqPut [PokeClosed P] {s t : State} {bs : List Byte} (e : s.rqPut bs = some t) (h : Kept P q u o s) :
    Kept P q u o t := by
  unfold State.rqPut at e
  split at e
  · cases e
  · have h1 := kept_writeBytes ‹_› h
    exact kept_writeWord e (by simp +contextual (maxDischargeDepth := 60) [h1])

@[simp] theorem kept_writePacket [PokeClosed P] {s : State} (h : Kept P q u o s) (p : Packet) (rest : List Packet) :
    Kept P q u o (s.writePacket p rest) := by
  unfold State.writePacket
  dsimp only
  split
  · exact h
  · split
    · simp +contextual (maxDischargeDepth := 60) [h]
    · rename_i t heq
      have h1 : Kept P q u o t := by
        split at heq
        · cases heq; exact h
        · exact kept_rqPut heq h
      split
      · simp +contextual (maxDischargeDepth := 60) [h1]
      · have h2 := kept_rqPut ‹_› h1
        simp +contextual (maxDischargeDepth := 60) [h2]

@[simp] theorem kept_packetWrite [PokeClosed P] {s : State} (h : Kept P q u o s)  : Kept P q u o (State.packetWrite s) := by
  (unfold State.packetWrite; repeat' split) <;> simp +contextual (maxDischargeDepth := 60) [*]

@[simp] theorem kept_pathFault [PokeClosed P] {s : State} (h : Kept P q u o s) (r seq : Nat) :
    Kept P q u o (State.pathFault s r seq) := by
  simp +contextual (maxDischargeDepth := 60) [State.pathFault, h]

@[simp] theorem kept_pathResend {s : State} (h : Kept P q u o s) (resends : Nat) :
    Kept P q u o (State.pathResend s resends) := by
  simp +contextual (maxDischargeDepth := 60) [State.pathResend, h]

@[simp] theorem kept_pathResetDone [PokeClosed P] {s : State} (h : Kept P q u o s) (r : Nat) (ok : Bool) :
    Kept P q u o (State.pathResetDone s r ok) := by
  simp +contextual (maxDischargeDepth := 60) [State.pathResetDone, h]

@[simp] theorem kept_pinInverted {s : State} (h : Kept P q u o s)  : Kept P q u o (State.pinInverted s) := by
  simp +contextual (maxDischargeDepth := 60) [State.pinInverted, h]

@[simp] theorem kept_updClock {s : State} (h : Kept P q u o s) (d : Nat) (f : Clock → Clock) :
    Kept P q u o (State.updClock s d f) := by
  simp +contextual (maxDischargeDepth := 60) [State.updClock, h]

@[simp] theorem kept_pllStable {s : State} (h : Kept P q u o s) (d : Nat) : Kept P q u o (State.pllStable s d) := by
  simp +contextual (maxDischargeDepth := 60) [State.pllStable, h]

@[simp] theorem kept_quiesceReached {s : State} (h : Kept P q u o s)  : Kept P q u o (State.quiesceReached s) := by
  simp +contextual (maxDischargeDepth := 60) [State.quiesceReached, h]

@[simp] theorem kept_raiseAllBlocked {s : State} (h : Kept P q u o s) (p : Nat) : Kept P q u o (State.raiseAllBlocked s p) := by
  (unfold State.raiseAllBlocked; repeat' split) <;> simp +contextual (maxDischargeDepth := 60) [*]

@[simp] theorem kept_rampStep {s : State} (h : Kept P q u o s) (d : Nat) : Kept P q u o (State.rampStep s d) := by
  simp +contextual (maxDischargeDepth := 60) [State.rampStep, h]

@[simp] theorem kept_recordGrant {s : State} (h : Kept P q u o s)  : Kept P q u o (s.recordGrant) := by
  unfold State.recordGrant
  split
  · exact h
  · split
    · extract_lets r t
      have ht : Kept P q u o t := by simp only [t]; split <;> simp +contextual (maxDischargeDepth := 60) [h]
      clear_value t
      exact kept_mk ht ..
    · exact h

@[simp] theorem kept_recordWrite [PokeClosed P] {s : State} (h : Kept P q u o s) (n : Nat) :
    Kept P q u o (State.recordWrite s n) := by
  (unfold State.recordWrite; repeat' split) <;> simp +contextual (maxDischargeDepth := 60) [*]

@[simp] theorem kept_refuseStart {s : State} (h : Kept P q u o s) (k : Nat) : Kept P q u o (State.refuseStart s k) := by
  simp +contextual (maxDischargeDepth := 60) [State.refuseStart, h]

@[simp] theorem kept_refuseTx {s : State} (h : Kept P q u o s) (k : Nat) : Kept P q u o (State.refuseTx s k) := by
  simp +contextual (maxDischargeDepth := 60) [State.refuseTx, h]

@[simp] theorem kept_regIn [PokeClosed P] {s : State} (h : Kept P q u o s) (who : Requester) (r : Reg) (v : BitVec 64) :
    Kept P q u o (State.regIn s who r v) := by
  simp +contextual (maxDischargeDepth := 60) [State.regIn, h]

@[simp] theorem kept_releaseRange {s : State} (h : Kept P q u o s) (n : Nat) (d : RingDesc) (seq : Nat) :
    Kept P q u o (State.releaseRange s n d seq) := by
  (unfold State.releaseRange; repeat' (first
    | simp +contextual (maxDischargeDepth := 60) [*]
    | (refine kept_writeBytes (by assumption) ?_)
    | (refine kept_openAll_eq (by assumption) ?_)
    | (refine kept_fanPassTwo_eq (by assumption) ?_)
    | (refine kept_takeBack_eq (by assumption) ?_)
    | (refine kept_inspRead_eq (by assumption) ?_)
    | (refine kept_readReg_eq (by assumption) ?_)
    | (refine kept_readLow_eq (by assumption) ?_)
    | (refine kept_readHigh_eq (by assumption) ?_)
    | (refine kept_readPart_eq (by assumption) ?_)
    | (refine kept_readPage (by assumption) ?_)
    | (refine kept_readData (by assumption) ?_)
    | (refine kept_slotWrite_eq (by assumption) ?_)
    | (refine kept_readEdges_eq (by assumption) ?_)
    | (refine kept_checkNode_eq (by assumption) ?_)
    | (refine kept_reserve (by assumption) ?_)
    | (refine kept_serve (by assumption) ?_)
    | (refine kept_tryCall_eq (by assumption) ?_)
    | (refine kept_parcelHere_eq (by assumption) ?_)
    | (refine kept_judgeE2e_eq (by assumption) ?_)
    | (refine kept_parcelTests_eq (by assumption) ?_)
    | (refine kept_seqEnd (by assumption) ?_)
    | (refine kept_popPage_eq (by assumption) ?_)
    | (refine kept_grantPages_eq (by assumption) ?_)
    | (refine kept_dropUnknown_eq (by assumption) ?_)
    | (refine kept_leadTick_eq (by assumption) ?_)
    | (refine kept_each _ _ ?_ ?_)
    | split
    | intro _
    | dsimp only
    ))

@[simp] theorem kept_reloadComplete [PokeClosed P] {s : State} (h : Kept P q u o s) (f : FlashRead) :
    Kept P q u o (State.reloadComplete s f) := by
  simp +contextual (maxDischargeDepth := 60) [State.reloadComplete, h]

@[simp] theorem kept_remoteApply {s : State} (h : Kept P q u o s)  : Kept P q u o (State.remoteApply s) := by
  (unfold State.remoteApply; repeat' split) <;> simp +contextual (maxDischargeDepth := 60) [*]

@[simp] theorem kept_remoteSend {s : State} (h : Kept P q u o s) (k : Nat) : Kept P q u o (State.remoteSend s k) := by
  simp +contextual (maxDischargeDepth := 60) [State.remoteSend, h]

@[simp] theorem kept_reportDesc [PokeClosed P] {s : State} (h : Kept P q u o s) (n : Nat) : Kept P q u o (s.reportDesc n) := by
  refine kept_takeDesc h _ _ (fun _ _ _ h => ?_)
  simp +contextual (maxDischargeDepth := 60) [h]

@[simp] theorem kept_resetDone {s : State} (h : Kept P q u o s) (y1 : Nat) : Kept P q u o (State.resetDone s y1) := by
  simp +contextual (maxDischargeDepth := 60) [State.resetDone, h]

@[simp] theorem kept_resetTimeout [PokeClosed P] {s : State} (h : Kept P q u o s) (y1 : Nat) :
    Kept P q u o (State.resetTimeout s y1) := by
  (unfold State.resetTimeout; repeat' split) <;> simp +contextual (maxDischargeDepth := 60) [*]

@[simp] theorem kept_resolverUpdate {s : State} (h : Kept P q u o s)  : Kept P q u o (State.resolverUpdate s) := by
  simp +contextual (maxDischargeDepth := 60) [State.resolverUpdate, h]

@[simp] theorem kept_retireWrite [PokeClosed P] {s : State} (h : Kept P q u o s) (k : Nat) :
    Kept P q u o (s.retireWrite k) := by
  unfold State.retireWrite
  split
  · exact h
  · split
    · exact h
    · extract_lets wr a x s1
      have h1 : Kept P q u o s1 := by simp +contextual (maxDischargeDepth := 60) [s1, h]
      clear_value s1
      cases hv : x with
      | none => simp +contextual (maxDischargeDepth := 60) [h1]
      | some v =>
        have hw := kept_writeBytes hv h
        have h2 : Kept P q u o { s1 with mem := v.mem, poison := v.poison } := ⟨h1.1, h1.2.1, h1.2.2.1, hw.2.2.2⟩
        dsimp only
        split
        · exact kept_vector (kept_setReg h2 _ _) _
        · exact kept_setReg h2 _ _

@[simp] theorem kept_retrainExpiry {s : State} (h : Kept P q u o s) (k : Nat) : Kept P q u o (State.retrainExpiry s k) := by
  simp +contextual (maxDischargeDepth := 60) [State.retrainExpiry, h]

@[simp] theorem kept_viaHost {s : State} (h : Kept P q u o s) (sp a : Nat) (i : Instr) {f : State → State}
    (hf : ∀ s, Kept P q u o s → Kept P q u o (f s)) : Kept P q u o (s.viaHost sp a i f) := by
  unfold State.viaHost
  split
  · exact hf _ h
  · simp +contextual (maxDischargeDepth := 60) [h]

@[simp] theorem kept_ringFetch [PokeClosed P] {s : State} (h : Kept P q u o s) (n : Nat) :
    Kept P q u o (State.ringFetch s n) := by
  simp +contextual (maxDischargeDepth := 60) [State.ringFetch, h]

@[simp] theorem kept_swapNext {s : State} (h : Kept P q u o s) (p : Nat) : Kept P q u o (State.swapNext s p) := by
  simp +contextual (maxDischargeDepth := 60) [State.swapNext, h]

@[simp] theorem kept_saveImageWrite [PokeClosed P] {s : State} (h : Kept P q u o s) (c : Nat) :
    Kept P q u o (State.saveImageWrite s c) := by
  simp +contextual (maxDischargeDepth := 60) [State.saveImageWrite, h]

@[simp] theorem kept_upset {s : State} (h : Kept P q u o s) (c i : Nat) (y3 : Upset) : Kept P q u o (State.upset s c i y3) := by
  (unfold State.upset; repeat' split) <;> simp +contextual (maxDischargeDepth := 60) [*]

@[simp] theorem kept_scrub {s : State} (h : Kept P q u o s) (c i : Nat) (y3 : Upset) : Kept P q u o (State.scrub s c i y3) := by
  simp +contextual (maxDischargeDepth := 60) [State.scrub, h]

@[simp] theorem kept_sendBlock {s : State} (h : Kept P q u o s) (k y2 : Nat) (ps : List Parcel) :
    Kept P q u o (State.sendBlock s k y2 ps) := by
  simp +contextual (maxDischargeDepth := 60) [State.sendBlock, h]

@[simp] theorem kept_sendStarting {s : State} (h : Kept P q u o s) (k : Nat) : Kept P q u o (State.sendStarting s k) := by
  (unfold State.sendStarting; repeat' (first
    | simp +contextual (maxDischargeDepth := 60) [*]
    | (refine kept_writeBytes (by assumption) ?_)
    | (refine kept_openAll_eq (by assumption) ?_)
    | (refine kept_fanPassTwo_eq (by assumption) ?_)
    | (refine kept_takeBack_eq (by assumption) ?_)
    | (refine kept_inspRead_eq (by assumption) ?_)
    | (refine kept_readReg_eq (by assumption) ?_)
    | (refine kept_readLow_eq (by assumption) ?_)
    | (refine kept_readHigh_eq (by assumption) ?_)
    | (refine kept_readPart_eq (by assumption) ?_)
    | (refine kept_readPage (by assumption) ?_)
    | (refine kept_readData (by assumption) ?_)
    | (refine kept_slotWrite_eq (by assumption) ?_)
    | (refine kept_readEdges_eq (by assumption) ?_)
    | (refine kept_checkNode_eq (by assumption) ?_)
    | (refine kept_reserve (by assumption) ?_)
    | (refine kept_serve (by assumption) ?_)
    | (refine kept_tryCall_eq (by assumption) ?_)
    | (refine kept_parcelHere_eq (by assumption) ?_)
    | (refine kept_judgeE2e_eq (by assumption) ?_)
    | (refine kept_parcelTests_eq (by assumption) ?_)
    | (refine kept_seqEnd (by assumption) ?_)
    | (refine kept_popPage_eq (by assumption) ?_)
    | (refine kept_grantPages_eq (by assumption) ?_)
    | (refine kept_dropUnknown_eq (by assumption) ?_)
    | (refine kept_leadTick_eq (by assumption) ?_)
    | (refine kept_each _ _ ?_ ?_)
    | split
    | intro _
    | dsimp only
    ))

@[simp] theorem kept_settingsRead [PokeClosed P] {s : State} (h : Kept P q u o s) (f : FlashRead) :
    Kept P q u o (State.settingsRead s f) := by
  simp +contextual (maxDischargeDepth := 60) [State.settingsRead, h]

@[simp] theorem kept_shareDone {s : State} (h : Kept P q u o s) (r k : Nat) : Kept P q u o (State.shareDone s r k) := by
  simp +contextual (maxDischargeDepth := 60) [State.shareDone, h]

@[simp] theorem kept_signalNode {s : State} (h : Kept P q u o s) (k : Nat) : Kept P q u o (State.signalNode s k) := by
  simp +contextual (maxDischargeDepth := 60) [State.signalNode, h]

@[simp] theorem kept_slowReport [PokeClosed P] {s : State} (h : Kept P q u o s)  : Kept P q u o (s.slowReport) := by
  unfold State.slowReport
  split
  · extract_lets a seq t
    have ht : Kept P q u o t := by
      simp only [t]
      split
      · exact h
      · split
        · exact kept_writeBytes ‹_› h
        · simp +contextual (maxDischargeDepth := 60) [h]
    clear_value t
    exact kept_mk ht ..
  · exact h

@[simp] theorem kept_snapDumpDone [PokeClosed P] {s : State} (h : Kept P q u o s)  : Kept P q u o (State.snapDumpDone s) := by
  simp +contextual (maxDischargeDepth := 60) [State.snapDumpDone, h]

@[simp] theorem kept_spiDone {s : State} (h : Kept P q u o s) (rx : List Byte) : Kept P q u o (State.spiDone s rx) := by
  simp +contextual (maxDischargeDepth := 60) [State.spiDone, h]

@[simp] theorem kept_startReady {s : State} (h : Kept P q u o s)  : Kept P q u o (State.startReady s) := by
  simp +contextual (maxDischargeDepth := 60) [State.startReady, h]

@[simp] theorem kept_startReport {s : State} (h : Kept P q u o s) (y1 : Nat) : Kept P q u o (State.startReport s y1) := by
  (unfold State.startReport; repeat' split) <;> simp +contextual (maxDischargeDepth := 60) [*]

@[simp] theorem kept_supplyClear {s : State} (h : Kept P q u o s) (d : Nat) : Kept P q u o (State.supplyClear s d) := by
  simp +contextual (maxDischargeDepth := 60) [State.supplyClear, h]

@[simp] theorem kept_supplyRecover {s : State} (h : Kept P q u o s) (d : Nat) : Kept P q u o (State.supplyRecover s d) := by
  simp +contextual (maxDischargeDepth := 60) [State.supplyRecover, h]

@[simp] theorem kept_supplyWarn {s : State} (h : Kept P q u o s) (d : Nat) : Kept P q u o (State.supplyWarn s d) := by
  simp +contextual (maxDischargeDepth := 60) [State.supplyWarn, h]

@[simp] theorem kept_suspendReport {s : State} (h : Kept P q u o s) (y1 : Nat) : Kept P q u o (State.suspendReport s y1) := by
  (unfold State.suspendReport; repeat' (first
    | simp +contextual (maxDischargeDepth := 60) [*]
    | (refine kept_writeBytes (by assumption) ?_)
    | (refine kept_openAll_eq (by assumption) ?_)
    | (refine kept_fanPassTwo_eq (by assumption) ?_)
    | (refine kept_takeBack_eq (by assumption) ?_)
    | (refine kept_inspRead_eq (by assumption) ?_)
    | (refine kept_readReg_eq (by assumption) ?_)
    | (refine kept_readLow_eq (by assumption) ?_)
    | (refine kept_readHigh_eq (by assumption) ?_)
    | (refine kept_readPart_eq (by assumption) ?_)
    | (refine kept_readPage (by assumption) ?_)
    | (refine kept_readData (by assumption) ?_)
    | (refine kept_slotWrite_eq (by assumption) ?_)
    | (refine kept_readEdges_eq (by assumption) ?_)
    | (refine kept_checkNode_eq (by assumption) ?_)
    | (refine kept_reserve (by assumption) ?_)
    | (refine kept_serve (by assumption) ?_)
    | (refine kept_tryCall_eq (by assumption) ?_)
    | (refine kept_parcelHere_eq (by assumption) ?_)
    | (refine kept_judgeE2e_eq (by assumption) ?_)
    | (refine kept_parcelTests_eq (by assumption) ?_)
    | (refine kept_seqEnd (by assumption) ?_)
    | (refine kept_popPage_eq (by assumption) ?_)
    | (refine kept_grantPages_eq (by assumption) ?_)
    | (refine kept_dropUnknown_eq (by assumption) ?_)
    | (refine kept_leadTick_eq (by assumption) ?_)
    | (refine kept_each _ _ ?_ ?_)
    | split
    | intro _
    | dsimp only
    ))

@[simp] theorem kept_suspendTimeout {s : State} (h : Kept P q u o s) (y1 : Nat) : Kept P q u o (State.suspendTimeout s y1) := by
  (unfold State.suspendTimeout; repeat' (first
    | simp +contextual (maxDischargeDepth := 60) [*]
    | (refine kept_writeBytes (by assumption) ?_)
    | (refine kept_openAll_eq (by assumption) ?_)
    | (refine kept_fanPassTwo_eq (by assumption) ?_)
    | (refine kept_takeBack_eq (by assumption) ?_)
    | (refine kept_inspRead_eq (by assumption) ?_)
    | (refine kept_readReg_eq (by assumption) ?_)
    | (refine kept_readLow_eq (by assumption) ?_)
    | (refine kept_readHigh_eq (by assumption) ?_)
    | (refine kept_readPart_eq (by assumption) ?_)
    | (refine kept_readPage (by assumption) ?_)
    | (refine kept_readData (by assumption) ?_)
    | (refine kept_slotWrite_eq (by assumption) ?_)
    | (refine kept_readEdges_eq (by assumption) ?_)
    | (refine kept_checkNode_eq (by assumption) ?_)
    | (refine kept_reserve (by assumption) ?_)
    | (refine kept_serve (by assumption) ?_)
    | (refine kept_tryCall_eq (by assumption) ?_)
    | (refine kept_parcelHere_eq (by assumption) ?_)
    | (refine kept_judgeE2e_eq (by assumption) ?_)
    | (refine kept_parcelTests_eq (by assumption) ?_)
    | (refine kept_seqEnd (by assumption) ?_)
    | (refine kept_popPage_eq (by assumption) ?_)
    | (refine kept_grantPages_eq (by assumption) ?_)
    | (refine kept_dropUnknown_eq (by assumption) ?_)
    | (refine kept_leadTick_eq (by assumption) ?_)
    | (refine kept_each _ _ ?_ ?_)
    | split
    | intro _
    | dsimp only
    ))

@[simp] theorem kept_swapRestore {s : State} (h : Kept P q u o s) (p : Nat) : Kept P q u o (State.swapRestore s p) := by
  (unfold State.swapRestore; repeat' split) <;> simp +contextual (maxDischargeDepth := 60) [*]

@[simp] theorem kept_syDumpEnd [PokeClosed P] {s : State} (h : Kept P q u o s)  : Kept P q u o (State.syDumpEnd s) := by
  simp +contextual (maxDischargeDepth := 60) [State.syDumpEnd, h]

@[simp] theorem kept_tearFree {s : State} (h : Kept P q u o s) (c : Nat) : Kept P q u o (State.tearFree s c) := by
  simp +contextual (maxDischargeDepth := 60) [State.tearFree, h]

@[simp] theorem kept_tearLinks {s : State} (h : Kept P q u o s) (c : Nat) : Kept P q u o (State.tearLinks s c) := by
  simp +contextual (maxDischargeDepth := 60) [State.tearLinks, h]

@[simp] theorem kept_tearObjects {s : State} (h : Kept P q u o s) (c : Nat) : Kept P q u o (State.tearObjects s c) := by
  simp +contextual (maxDischargeDepth := 60) [State.tearObjects, h]

@[simp] theorem kept_tearRetire [PokeClosed P] {s : State} (h : Kept P q u o s) (c status cause : Nat) :
    Kept P q u o (State.tearRetire s c status cause) := by
  simp +contextual (maxDischargeDepth := 60) [State.tearRetire, h]

@[simp] theorem kept_writeTearDump [PokeClosed P] {s : State} (h : Kept P q u o s) (c : Nat) :
    Kept P q u o (State.writeTearDump s c) := by
  simp +contextual (maxDischargeDepth := 60) [State.writeTearDump, h]

@[simp] theorem kept_tearTrick [PokeClosed P] {s : State} (h : Kept P q u o s) (k : Nat) :
    Kept P q u o (State.tearTrick s k) := by
  (unfold State.tearTrick; repeat' split) <;> simp +contextual (maxDischargeDepth := 60) [*]

@[simp] theorem kept_tearSeqs [PokeClosed P] {s : State} (h : Kept P q u o s) (k : Nat) :
    Kept P q u o (State.tearSeqs s k).1 := by
  simp +contextual (maxDischargeDepth := 60) [State.tearSeqs, h]
theorem kept_tearSeqs_eq [PokeClosed P] {s t : State} {k : Nat} {x : (Nat)}
    (e : State.tearSeqs s k = (t, x)) (h : Kept P q u o s) : Kept P q u o t := by
  have := kept_tearSeqs (P := P) (q := q) (u := u) (o := o) h k
  rw [e] at this
  exact this

@[simp] theorem kept_tearRoster [PokeClosed P] {s : State} (h : Kept P q u o s) (k : Nat) :
    Kept P q u o (State.tearRoster s k).1 := by
  (unfold State.tearRoster; repeat' (first
    | simp +contextual (maxDischargeDepth := 60) [*]
    | (refine kept_writeBytes (by assumption) ?_)
    | (refine kept_openAll_eq (by assumption) ?_)
    | (refine kept_fanPassTwo_eq (by assumption) ?_)
    | (refine kept_takeBack_eq (by assumption) ?_)
    | (refine kept_inspRead_eq (by assumption) ?_)
    | (refine kept_readReg_eq (by assumption) ?_)
    | (refine kept_readLow_eq (by assumption) ?_)
    | (refine kept_readHigh_eq (by assumption) ?_)
    | (refine kept_readPart_eq (by assumption) ?_)
    | (refine kept_readPage (by assumption) ?_)
    | (refine kept_readData (by assumption) ?_)
    | (refine kept_slotWrite_eq (by assumption) ?_)
    | (refine kept_readEdges_eq (by assumption) ?_)
    | (refine kept_checkNode_eq (by assumption) ?_)
    | (refine kept_reserve (by assumption) ?_)
    | (refine kept_serve (by assumption) ?_)
    | (refine kept_tryCall_eq (by assumption) ?_)
    | (refine kept_parcelHere_eq (by assumption) ?_)
    | (refine kept_judgeE2e_eq (by assumption) ?_)
    | (refine kept_parcelTests_eq (by assumption) ?_)
    | (refine kept_seqEnd (by assumption) ?_)
    | (refine kept_popPage_eq (by assumption) ?_)
    | (refine kept_grantPages_eq (by assumption) ?_)
    | (refine kept_dropUnknown_eq (by assumption) ?_)
    | (refine kept_leadTick_eq (by assumption) ?_)
    | (refine kept_tearSeqs_eq (by assumption) ?_)
    | (refine kept_each _ _ ?_ ?_)
    | split
    | intro _
    | dsimp only
    ))
theorem kept_tearRoster_eq [PokeClosed P] {s t : State} {k : Nat} {x : (Nat)}
    (e : State.tearRoster s k = (t, x)) (h : Kept P q u o s) : Kept P q u o t := by
  have := kept_tearRoster (P := P) (q := q) (u := u) (o := o) h k
  rw [e] at this
  exact this

@[simp] theorem kept_tearOn [PokeClosed P] {s : State} (h : Kept P q u o s) (c : Nat) : Kept P q u o (s.tearOn c) := by
  unfold State.tearOn
  extract_lets f r s1 orphans s2 cmds total drained killed freed s3 s4
  have hr : Kept P q u o r.1 := by
    have : ∀ (l : List Nat) (a : State × Nat), Kept P q u o a.1 →
        Kept P q u o (l.foldl (fun (a : State × Nat) k => let t := a.1.tearRoster k; (t.1, a.2 + t.2)) a).1 := by
      intro l
      induction l with
      | nil => exact fun a h => h
      | cons x l ih => exact fun a h => ih _ (kept_tearRoster h x)
    exact this _ _ h
  clear_value r
  have h1 : Kept P q u o s1 := by simp +contextual (maxDischargeDepth := 60) [s1, hr]
  clear_value s1
  have h2 : Kept P q u o s2 := by simp +contextual (maxDischargeDepth := 60) [s2, h1]
  clear_value s2
  have h3 : Kept P q u o s3 := by simp +contextual (maxDischargeDepth := 60) [s3, h2]
  clear_value s3
  simp +contextual (maxDischargeDepth := 60) [s4, h3]

@[simp] theorem kept_teardownContinue [PokeClosed P] {s : State} (h : Kept P q u o s) (c : Nat) :
    Kept P q u o (State.teardownContinue s c) := by
  simp +contextual (maxDischargeDepth := 60) [State.teardownContinue, h]

@[simp] theorem kept_templateRelease [PokeClosed P] {s : State} (h : Kept P q u o s) (n : Nat) :
    Kept P q u o (s.templateRelease n) := by
  refine kept_takeDesc h _ _ (fun _ _ _ h => ?_)
  simp +contextual (maxDischargeDepth := 60) [h]

@[simp] theorem kept_tileDeparted {s : State} (h : Kept P q u o s) (i : Nat) : Kept P q u o (State.tileDeparted s i) := by
  simp +contextual (maxDischargeDepth := 60) [State.tileDeparted, h]

@[simp] theorem kept_toLargest {s : State} (h : Kept P q u o s) (k : Nat) : Kept P q u o (State.toLargest s k) := by
  (unfold State.toLargest; repeat' split) <;> simp +contextual (maxDischargeDepth := 60) [*]

@[simp] theorem kept_traceFault {s : State} (h : Kept P q u o s) (seq : Nat) : Kept P q u o (State.traceFault s seq) := by
  simp +contextual (maxDischargeDepth := 60) [State.traceFault, h]

@[simp] theorem kept_transmitSlot {s : State} (h : Kept P q u o s) (k : Nat) : Kept P q u o (State.transmitSlot s k) := by
  (unfold State.transmitSlot; repeat' (first
    | simp +contextual (maxDischargeDepth := 60) [*]
    | (refine kept_writeBytes (by assumption) ?_)
    | (refine kept_openAll_eq (by assumption) ?_)
    | (refine kept_fanPassTwo_eq (by assumption) ?_)
    | (refine kept_takeBack_eq (by assumption) ?_)
    | (refine kept_inspRead_eq (by assumption) ?_)
    | (refine kept_readReg_eq (by assumption) ?_)
    | (refine kept_readLow_eq (by assumption) ?_)
    | (refine kept_readHigh_eq (by assumption) ?_)
    | (refine kept_readPart_eq (by assumption) ?_)
    | (refine kept_readPage (by assumption) ?_)
    | (refine kept_readData (by assumption) ?_)
    | (refine kept_slotWrite_eq (by assumption) ?_)
    | (refine kept_readEdges_eq (by assumption) ?_)
    | (refine kept_checkNode_eq (by assumption) ?_)
    | (refine kept_reserve (by assumption) ?_)
    | (refine kept_serve (by assumption) ?_)
    | (refine kept_tryCall_eq (by assumption) ?_)
    | (refine kept_parcelHere_eq (by assumption) ?_)
    | (refine kept_judgeE2e_eq (by assumption) ?_)
    | (refine kept_parcelTests_eq (by assumption) ?_)
    | (refine kept_seqEnd (by assumption) ?_)
    | (refine kept_popPage_eq (by assumption) ?_)
    | (refine kept_grantPages_eq (by assumption) ?_)
    | (refine kept_dropUnknown_eq (by assumption) ?_)
    | (refine kept_leadTick_eq (by assumption) ?_)
    | (refine kept_tearSeqs_eq (by assumption) ?_)
    | (refine kept_tearRoster_eq (by assumption) ?_)
    | (refine kept_each _ _ ?_ ?_)
    | split
    | intro _
    | dsimp only
    ))

@[simp] theorem kept_trickInstantiate {s : State} (h : Kept P q u o s) (k : Nat) :
    Kept P q u o (State.trickInstantiate s k) := by
  (unfold State.trickInstantiate; repeat' split) <;> simp +contextual (maxDischargeDepth := 60) [*]

@[simp] theorem kept_uartFault {s : State} (h : Kept P q u o s)  : Kept P q u o (State.uartFault s) := by
  simp +contextual (maxDischargeDepth := 60) [State.uartFault, h]

@[simp] theorem kept_uartRecover {s : State} (h : Kept P q u o s)  : Kept P q u o (State.uartRecover s) := by
  simp +contextual (maxDischargeDepth := 60) [State.uartRecover, h]

@[simp] theorem kept_unbenchEnd [PokeClosed P] {s : State} (h : Kept P q u o s) (ok : Bool) :
    Kept P q u o (State.unbenchEnd s ok) := by
  (unfold State.unbenchEnd; repeat' split) <;> simp +contextual (maxDischargeDepth := 60) [*]

@[simp] theorem kept_vectorSignal {s : State} (h : Kept P q u o s) (v : Nat) : Kept P q u o (State.vectorSignal s v) := by
  simp +contextual (maxDischargeDepth := 60) [State.vectorSignal, h]

@[simp] theorem kept_viaHostAt {s : State} (h : Kept P q u o s) (w : Option (Nat × Nat)) (i : Instr) {f : State → State}
    (hf : ∀ s, Kept P q u o s → Kept P q u o (f s)) : Kept P q u o (s.viaHostAt w i f) := by
  unfold State.viaHostAt
  split
  · exact hf _ h
  · exact kept_viaHost h _ _ _ hf

@[simp] theorem kept_waitRegister {s : State} (h : Kept P q u o s) (k : Nat) : Kept P q u o (State.waitRegister s k) := by
  simp +contextual (maxDischargeDepth := 60) [State.waitRegister, h]

@[simp] theorem kept_watchdog {s : State} (h : Kept P q u o s) (n seq : Nat) : Kept P q u o (State.watchdog s n seq) := by
  (unfold State.watchdog; repeat' split) <;> simp +contextual (maxDischargeDepth := 60) [*]

@[simp] theorem kept_windowClose {s : State} (h : Kept P q u o s) (k : Nat) : Kept P q u o (State.windowClose s k) := by
  (unfold State.windowClose; repeat' (first
    | simp +contextual (maxDischargeDepth := 60) [*]
    | (refine kept_writeBytes (by assumption) ?_)
    | (refine kept_openAll_eq (by assumption) ?_)
    | (refine kept_fanPassTwo_eq (by assumption) ?_)
    | (refine kept_takeBack_eq (by assumption) ?_)
    | (refine kept_inspRead_eq (by assumption) ?_)
    | (refine kept_readReg_eq (by assumption) ?_)
    | (refine kept_readLow_eq (by assumption) ?_)
    | (refine kept_readHigh_eq (by assumption) ?_)
    | (refine kept_readPart_eq (by assumption) ?_)
    | (refine kept_readPage (by assumption) ?_)
    | (refine kept_readData (by assumption) ?_)
    | (refine kept_slotWrite_eq (by assumption) ?_)
    | (refine kept_readEdges_eq (by assumption) ?_)
    | (refine kept_checkNode_eq (by assumption) ?_)
    | (refine kept_reserve (by assumption) ?_)
    | (refine kept_serve (by assumption) ?_)
    | (refine kept_tryCall_eq (by assumption) ?_)
    | (refine kept_parcelHere_eq (by assumption) ?_)
    | (refine kept_judgeE2e_eq (by assumption) ?_)
    | (refine kept_parcelTests_eq (by assumption) ?_)
    | (refine kept_seqEnd (by assumption) ?_)
    | (refine kept_popPage_eq (by assumption) ?_)
    | (refine kept_grantPages_eq (by assumption) ?_)
    | (refine kept_dropUnknown_eq (by assumption) ?_)
    | (refine kept_leadTick_eq (by assumption) ?_)
    | (refine kept_tearSeqs_eq (by assumption) ?_)
    | (refine kept_tearRoster_eq (by assumption) ?_)
    | (refine kept_each _ _ ?_ ?_)
    | split
    | intro _
    | dsimp only
    ))

@[simp] theorem kept_xlatInvEnd {s : State} (h : Kept P q u o s)  : Kept P q u o (State.xlatInvEnd s) := by
  (unfold State.xlatInvEnd; repeat' split) <;> simp +contextual (maxDischargeDepth := 60) [*]

end Sys2Proof.Machine
end

