-- ==== Sys2Proof/Laws/State.lean ====
section
/-! SUPPORT. What each named update of the state leaves alone, one lemma per field, and what a read of the updated piece gives. -/
namespace Sys2Proof.Machine

variable (s : State)

/-! ### setReg -/

@[simp] theorem State.setReg_pending (r : Reg) (v : BitVec 64) : (s.setReg r v).pending = s.pending := rfl
@[simp] theorem State.setReg_now (r : Reg) (v : BitVec 64) : (s.setReg r v).now = s.now := rfl
@[simp] theorem State.setReg_mem (r : Reg) (v : BitVec 64) : (s.setReg r v).mem = s.mem := rfl
@[simp] theorem State.setReg_poison (r : Reg) (v : BitVec 64) : (s.setReg r v).poison = s.poison := rfl
@[simp] theorem State.setReg_mmu (r : Reg) (v : BitVec 64) : (s.setReg r v).mmu = s.mmu := rfl
@[simp] theorem State.setReg_latches (r : Reg) (v : BitVec 64) : (s.setReg r v).latches = s.latches := rfl
@[simp] theorem State.setReg_fe (r : Reg) (v : BitVec 64) : (s.setReg r v).fe = s.fe := rfl
@[simp] theorem State.setReg_gs (r : Reg) (v : BitVec 64) : (s.setReg r v).gs = s.gs := rfl
@[simp] theorem State.setReg_dl (r : Reg) (v : BitVec 64) : (s.setReg r v).dl = s.dl := rfl
@[simp] theorem State.setReg_sy (r : Reg) (v : BitVec 64) : (s.setReg r v).sy = s.sy := rfl
@[simp] theorem State.setReg_rs (r : Reg) (v : BitVec 64) : (s.setReg r v).rs = s.rs := rfl
@[simp] theorem State.setReg_tb (r : Reg) (v : BitVec 64) : (s.setReg r v).tb = s.tb := rfl
@[simp] theorem State.setReg_li (r : Reg) (v : BitVec 64) : (s.setReg r v).li = s.li := rfl
@[simp] theorem State.setReg_fc (r : Reg) (v : BitVec 64) : (s.setReg r v).fc = s.fc := rfl
@[simp] theorem State.setReg_st (r : Reg) (v : BitVec 64) : (s.setReg r v).st = s.st := rfl
@[simp] theorem State.setReg_ob (r : Reg) (v : BitVec 64) : (s.setReg r v).ob = s.ob := rfl
@[simp] theorem State.setReg_sv (r : Reg) (v : BitVec 64) : (s.setReg r v).sv = s.sv := rfl
@[simp] theorem State.setReg_out (r : Reg) (v : BitVec 64) : (s.setReg r v).out = s.out := rfl

/-! ### setFld -/

@[simp] theorem State.setFld_pending (r : Reg) (lo w x : Nat) : (s.setFld r lo w x).pending = s.pending := rfl
@[simp] theorem State.setFld_now (r : Reg) (lo w x : Nat) : (s.setFld r lo w x).now = s.now := rfl
@[simp] theorem State.setFld_mem (r : Reg) (lo w x : Nat) : (s.setFld r lo w x).mem = s.mem := rfl
@[simp] theorem State.setFld_poison (r : Reg) (lo w x : Nat) : (s.setFld r lo w x).poison = s.poison := rfl
@[simp] theorem State.setFld_mmu (r : Reg) (lo w x : Nat) : (s.setFld r lo w x).mmu = s.mmu := rfl
@[simp] theorem State.setFld_latches (r : Reg) (lo w x : Nat) : (s.setFld r lo w x).latches = s.latches := rfl
@[simp] theorem State.setFld_fe (r : Reg) (lo w x : Nat) : (s.setFld r lo w x).fe = s.fe := rfl
@[simp] theorem State.setFld_gs (r : Reg) (lo w x : Nat) : (s.setFld r lo w x).gs = s.gs := rfl
@[simp] theorem State.setFld_dl (r : Reg) (lo w x : Nat) : (s.setFld r lo w x).dl = s.dl := rfl
@[simp] theorem State.setFld_sy (r : Reg) (lo w x : Nat) : (s.setFld r lo w x).sy = s.sy := rfl
@[simp] theorem State.setFld_rs (r : Reg) (lo w x : Nat) : (s.setFld r lo w x).rs = s.rs := rfl
@[simp] theorem State.setFld_tb (r : Reg) (lo w x : Nat) : (s.setFld r lo w x).tb = s.tb := rfl
@[simp] theorem State.setFld_li (r : Reg) (lo w x : Nat) : (s.setFld r lo w x).li = s.li := rfl
@[simp] theorem State.setFld_fc (r : Reg) (lo w x : Nat) : (s.setFld r lo w x).fc = s.fc := rfl
@[simp] theorem State.setFld_st (r : Reg) (lo w x : Nat) : (s.setFld r lo w x).st = s.st := rfl
@[simp] theorem State.setFld_ob (r : Reg) (lo w x : Nat) : (s.setFld r lo w x).ob = s.ob := rfl
@[simp] theorem State.setFld_sv (r : Reg) (lo w x : Nat) : (s.setFld r lo w x).sv = s.sv := rfl
@[simp] theorem State.setFld_out (r : Reg) (lo w x : Nat) : (s.setFld r lo w x).out = s.out := rfl

/-! ### orReg -/

@[simp] theorem State.orReg_pending (r : Reg) (v : BitVec 64) : (s.orReg r v).pending = s.pending := rfl
@[simp] theorem State.orReg_now (r : Reg) (v : BitVec 64) : (s.orReg r v).now = s.now := rfl
@[simp] theorem State.orReg_mem (r : Reg) (v : BitVec 64) : (s.orReg r v).mem = s.mem := rfl
@[simp] theorem State.orReg_poison (r : Reg) (v : BitVec 64) : (s.orReg r v).poison = s.poison := rfl
@[simp] theorem State.orReg_mmu (r : Reg) (v : BitVec 64) : (s.orReg r v).mmu = s.mmu := rfl
@[simp] theorem State.orReg_latches (r : Reg) (v : BitVec 64) : (s.orReg r v).latches = s.latches := rfl
@[simp] theorem State.orReg_fe (r : Reg) (v : BitVec 64) : (s.orReg r v).fe = s.fe := rfl
@[simp] theorem State.orReg_gs (r : Reg) (v : BitVec 64) : (s.orReg r v).gs = s.gs := rfl
@[simp] theorem State.orReg_dl (r : Reg) (v : BitVec 64) : (s.orReg r v).dl = s.dl := rfl
@[simp] theorem State.orReg_sy (r : Reg) (v : BitVec 64) : (s.orReg r v).sy = s.sy := rfl
@[simp] theorem State.orReg_rs (r : Reg) (v : BitVec 64) : (s.orReg r v).rs = s.rs := rfl
@[simp] theorem State.orReg_tb (r : Reg) (v : BitVec 64) : (s.orReg r v).tb = s.tb := rfl
@[simp] theorem State.orReg_li (r : Reg) (v : BitVec 64) : (s.orReg r v).li = s.li := rfl
@[simp] theorem State.orReg_fc (r : Reg) (v : BitVec 64) : (s.orReg r v).fc = s.fc := rfl
@[simp] theorem State.orReg_st (r : Reg) (v : BitVec 64) : (s.orReg r v).st = s.st := rfl
@[simp] theorem State.orReg_ob (r : Reg) (v : BitVec 64) : (s.orReg r v).ob = s.ob := rfl
@[simp] theorem State.orReg_sv (r : Reg) (v : BitVec 64) : (s.orReg r v).sv = s.sv := rfl
@[simp] theorem State.orReg_out (r : Reg) (v : BitVec 64) : (s.orReg r v).out = s.out := rfl

/-! ### bump -/

@[simp] theorem State.bump_pending (r : Reg) (n : Nat) : (s.bump r n).pending = s.pending := rfl
@[simp] theorem State.bump_now (r : Reg) (n : Nat) : (s.bump r n).now = s.now := rfl
@[simp] theorem State.bump_mem (r : Reg) (n : Nat) : (s.bump r n).mem = s.mem := rfl
@[simp] theorem State.bump_poison (r : Reg) (n : Nat) : (s.bump r n).poison = s.poison := rfl
@[simp] theorem State.bump_mmu (r : Reg) (n : Nat) : (s.bump r n).mmu = s.mmu := rfl
@[simp] theorem State.bump_latches (r : Reg) (n : Nat) : (s.bump r n).latches = s.latches := rfl
@[simp] theorem State.bump_fe (r : Reg) (n : Nat) : (s.bump r n).fe = s.fe := rfl
@[simp] theorem State.bump_gs (r : Reg) (n : Nat) : (s.bump r n).gs = s.gs := rfl
@[simp] theorem State.bump_dl (r : Reg) (n : Nat) : (s.bump r n).dl = s.dl := rfl
@[simp] theorem State.bump_sy (r : Reg) (n : Nat) : (s.bump r n).sy = s.sy := rfl
@[simp] theorem State.bump_rs (r : Reg) (n : Nat) : (s.bump r n).rs = s.rs := rfl
@[simp] theorem State.bump_tb (r : Reg) (n : Nat) : (s.bump r n).tb = s.tb := rfl
@[simp] theorem State.bump_li (r : Reg) (n : Nat) : (s.bump r n).li = s.li := rfl
@[simp] theorem State.bump_fc (r : Reg) (n : Nat) : (s.bump r n).fc = s.fc := rfl
@[simp] theorem State.bump_st (r : Reg) (n : Nat) : (s.bump r n).st = s.st := rfl
@[simp] theorem State.bump_ob (r : Reg) (n : Nat) : (s.bump r n).ob = s.ob := rfl
@[simp] theorem State.bump_sv (r : Reg) (n : Nat) : (s.bump r n).sv = s.sv := rfl
@[simp] theorem State.bump_out (r : Reg) (n : Nat) : (s.bump r n).out = s.out := rfl

/-! ### setNode -/

@[simp] theorem State.setNode_pending (k : Nat) (n : Node) : (s.setNode k n).pending = s.pending := rfl
@[simp] theorem State.setNode_now (k : Nat) (n : Node) : (s.setNode k n).now = s.now := rfl
@[simp] theorem State.setNode_regs (k : Nat) (n : Node) : (s.setNode k n).regs = s.regs := rfl
@[simp] theorem State.setNode_mem (k : Nat) (n : Node) : (s.setNode k n).mem = s.mem := rfl
@[simp] theorem State.setNode_poison (k : Nat) (n : Node) : (s.setNode k n).poison = s.poison := rfl
@[simp] theorem State.setNode_mmu (k : Nat) (n : Node) : (s.setNode k n).mmu = s.mmu := rfl
@[simp] theorem State.setNode_latches (k : Nat) (n : Node) : (s.setNode k n).latches = s.latches := rfl
@[simp] theorem State.setNode_fe (k : Nat) (n : Node) : (s.setNode k n).fe = s.fe := rfl
@[simp] theorem State.setNode_dl (k : Nat) (n : Node) : (s.setNode k n).dl = s.dl := rfl
@[simp] theorem State.setNode_sy (k : Nat) (n : Node) : (s.setNode k n).sy = s.sy := rfl
@[simp] theorem State.setNode_rs (k : Nat) (n : Node) : (s.setNode k n).rs = s.rs := rfl
@[simp] theorem State.setNode_tb (k : Nat) (n : Node) : (s.setNode k n).tb = s.tb := rfl
@[simp] theorem State.setNode_li (k : Nat) (n : Node) : (s.setNode k n).li = s.li := rfl
@[simp] theorem State.setNode_fc (k : Nat) (n : Node) : (s.setNode k n).fc = s.fc := rfl
@[simp] theorem State.setNode_st (k : Nat) (n : Node) : (s.setNode k n).st = s.st := rfl
@[simp] theorem State.setNode_ob (k : Nat) (n : Node) : (s.setNode k n).ob = s.ob := rfl
@[simp] theorem State.setNode_sv (k : Nat) (n : Node) : (s.setNode k n).sv = s.sv := rfl
@[simp] theorem State.setNode_out (k : Nat) (n : Node) : (s.setNode k n).out = s.out := rfl

/-! ### updNode -/

@[simp] theorem State.updNode_pending (k : Nat) (f : Node → Node) : (s.updNode k f).pending = s.pending := rfl
@[simp] theorem State.updNode_now (k : Nat) (f : Node → Node) : (s.updNode k f).now = s.now := rfl
@[simp] theorem State.updNode_regs (k : Nat) (f : Node → Node) : (s.updNode k f).regs = s.regs := rfl
@[simp] theorem State.updNode_mem (k : Nat) (f : Node → Node) : (s.updNode k f).mem = s.mem := rfl
@[simp] theorem State.updNode_poison (k : Nat) (f : Node → Node) : (s.updNode k f).poison = s.poison := rfl
@[simp] theorem State.updNode_mmu (k : Nat) (f : Node → Node) : (s.updNode k f).mmu = s.mmu := rfl
@[simp] theorem State.updNode_latches (k : Nat) (f : Node → Node) : (s.updNode k f).latches = s.latches := rfl
@[simp] theorem State.updNode_fe (k : Nat) (f : Node → Node) : (s.updNode k f).fe = s.fe := rfl
@[simp] theorem State.updNode_dl (k : Nat) (f : Node → Node) : (s.updNode k f).dl = s.dl := rfl
@[simp] theorem State.updNode_sy (k : Nat) (f : Node → Node) : (s.updNode k f).sy = s.sy := rfl
@[simp] theorem State.updNode_rs (k : Nat) (f : Node → Node) : (s.updNode k f).rs = s.rs := rfl
@[simp] theorem State.updNode_tb (k : Nat) (f : Node → Node) : (s.updNode k f).tb = s.tb := rfl
@[simp] theorem State.updNode_li (k : Nat) (f : Node → Node) : (s.updNode k f).li = s.li := rfl
@[simp] theorem State.updNode_fc (k : Nat) (f : Node → Node) : (s.updNode k f).fc = s.fc := rfl
@[simp] theorem State.updNode_st (k : Nat) (f : Node → Node) : (s.updNode k f).st = s.st := rfl
@[simp] theorem State.updNode_ob (k : Nat) (f : Node → Node) : (s.updNode k f).ob = s.ob := rfl
@[simp] theorem State.updNode_sv (k : Nat) (f : Node → Node) : (s.updNode k f).sv = s.sv := rfl
@[simp] theorem State.updNode_out (k : Nat) (f : Node → Node) : (s.updNode k f).out = s.out := rfl

/-! ### setEdge -/

@[simp] theorem State.setEdge_pending (k : Nat) (v : BitVec 32) : (s.setEdge k v).pending = s.pending := rfl
@[simp] theorem State.setEdge_now (k : Nat) (v : BitVec 32) : (s.setEdge k v).now = s.now := rfl
@[simp] theorem State.setEdge_regs (k : Nat) (v : BitVec 32) : (s.setEdge k v).regs = s.regs := rfl
@[simp] theorem State.setEdge_mem (k : Nat) (v : BitVec 32) : (s.setEdge k v).mem = s.mem := rfl
@[simp] theorem State.setEdge_poison (k : Nat) (v : BitVec 32) : (s.setEdge k v).poison = s.poison := rfl
@[simp] theorem State.setEdge_mmu (k : Nat) (v : BitVec 32) : (s.setEdge k v).mmu = s.mmu := rfl
@[simp] theorem State.setEdge_latches (k : Nat) (v : BitVec 32) : (s.setEdge k v).latches = s.latches := rfl
@[simp] theorem State.setEdge_fe (k : Nat) (v : BitVec 32) : (s.setEdge k v).fe = s.fe := rfl
@[simp] theorem State.setEdge_dl (k : Nat) (v : BitVec 32) : (s.setEdge k v).dl = s.dl := rfl
@[simp] theorem State.setEdge_sy (k : Nat) (v : BitVec 32) : (s.setEdge k v).sy = s.sy := rfl
@[simp] theorem State.setEdge_rs (k : Nat) (v : BitVec 32) : (s.setEdge k v).rs = s.rs := rfl
@[simp] theorem State.setEdge_tb (k : Nat) (v : BitVec 32) : (s.setEdge k v).tb = s.tb := rfl
@[simp] theorem State.setEdge_li (k : Nat) (v : BitVec 32) : (s.setEdge k v).li = s.li := rfl
@[simp] theorem State.setEdge_fc (k : Nat) (v : BitVec 32) : (s.setEdge k v).fc = s.fc := rfl
@[simp] theorem State.setEdge_st (k : Nat) (v : BitVec 32) : (s.setEdge k v).st = s.st := rfl
@[simp] theorem State.setEdge_ob (k : Nat) (v : BitVec 32) : (s.setEdge k v).ob = s.ob := rfl
@[simp] theorem State.setEdge_sv (k : Nat) (v : BitVec 32) : (s.setEdge k v).sv = s.sv := rfl
@[simp] theorem State.setEdge_out (k : Nat) (v : BitVec 32) : (s.setEdge k v).out = s.out := rfl

/-! ### updCtx -/

@[simp] theorem State.updCtx_pending (c : Nat) (f : Ctx → Ctx) : (s.updCtx c f).pending = s.pending := rfl
@[simp] theorem State.updCtx_now (c : Nat) (f : Ctx → Ctx) : (s.updCtx c f).now = s.now := rfl
@[simp] theorem State.updCtx_regs (c : Nat) (f : Ctx → Ctx) : (s.updCtx c f).regs = s.regs := rfl
@[simp] theorem State.updCtx_mem (c : Nat) (f : Ctx → Ctx) : (s.updCtx c f).mem = s.mem := rfl
@[simp] theorem State.updCtx_poison (c : Nat) (f : Ctx → Ctx) : (s.updCtx c f).poison = s.poison := rfl
@[simp] theorem State.updCtx_mmu (c : Nat) (f : Ctx → Ctx) : (s.updCtx c f).mmu = s.mmu := rfl
@[simp] theorem State.updCtx_latches (c : Nat) (f : Ctx → Ctx) : (s.updCtx c f).latches = s.latches := rfl
@[simp] theorem State.updCtx_fe (c : Nat) (f : Ctx → Ctx) : (s.updCtx c f).fe = s.fe := rfl
@[simp] theorem State.updCtx_dl (c : Nat) (f : Ctx → Ctx) : (s.updCtx c f).dl = s.dl := rfl
@[simp] theorem State.updCtx_sy (c : Nat) (f : Ctx → Ctx) : (s.updCtx c f).sy = s.sy := rfl
@[simp] theorem State.updCtx_rs (c : Nat) (f : Ctx → Ctx) : (s.updCtx c f).rs = s.rs := rfl
@[simp] theorem State.updCtx_tb (c : Nat) (f : Ctx → Ctx) : (s.updCtx c f).tb = s.tb := rfl
@[simp] theorem State.updCtx_li (c : Nat) (f : Ctx → Ctx) : (s.updCtx c f).li = s.li := rfl
@[simp] theorem State.updCtx_fc (c : Nat) (f : Ctx → Ctx) : (s.updCtx c f).fc = s.fc := rfl
@[simp] theorem State.updCtx_st (c : Nat) (f : Ctx → Ctx) : (s.updCtx c f).st = s.st := rfl
@[simp] theorem State.updCtx_ob (c : Nat) (f : Ctx → Ctx) : (s.updCtx c f).ob = s.ob := rfl
@[simp] theorem State.updCtx_sv (c : Nat) (f : Ctx → Ctx) : (s.updCtx c f).sv = s.sv := rfl
@[simp] theorem State.updCtx_out (c : Nat) (f : Ctx → Ctx) : (s.updCtx c f).out = s.out := rfl

/-! ### updSlot -/

@[simp] theorem State.updSlot_pending (n : Nat) (f : Slot → Slot) : (s.updSlot n f).pending = s.pending := rfl
@[simp] theorem State.updSlot_now (n : Nat) (f : Slot → Slot) : (s.updSlot n f).now = s.now := rfl
@[simp] theorem State.updSlot_regs (n : Nat) (f : Slot → Slot) : (s.updSlot n f).regs = s.regs := rfl
@[simp] theorem State.updSlot_mem (n : Nat) (f : Slot → Slot) : (s.updSlot n f).mem = s.mem := rfl
@[simp] theorem State.updSlot_poison (n : Nat) (f : Slot → Slot) : (s.updSlot n f).poison = s.poison := rfl
@[simp] theorem State.updSlot_mmu (n : Nat) (f : Slot → Slot) : (s.updSlot n f).mmu = s.mmu := rfl
@[simp] theorem State.updSlot_latches (n : Nat) (f : Slot → Slot) : (s.updSlot n f).latches = s.latches := rfl
@[simp] theorem State.updSlot_gs (n : Nat) (f : Slot → Slot) : (s.updSlot n f).gs = s.gs := rfl
@[simp] theorem State.updSlot_dl (n : Nat) (f : Slot → Slot) : (s.updSlot n f).dl = s.dl := rfl
@[simp] theorem State.updSlot_sy (n : Nat) (f : Slot → Slot) : (s.updSlot n f).sy = s.sy := rfl
@[simp] theorem State.updSlot_rs (n : Nat) (f : Slot → Slot) : (s.updSlot n f).rs = s.rs := rfl
@[simp] theorem State.updSlot_tb (n : Nat) (f : Slot → Slot) : (s.updSlot n f).tb = s.tb := rfl
@[simp] theorem State.updSlot_li (n : Nat) (f : Slot → Slot) : (s.updSlot n f).li = s.li := rfl
@[simp] theorem State.updSlot_fc (n : Nat) (f : Slot → Slot) : (s.updSlot n f).fc = s.fc := rfl
@[simp] theorem State.updSlot_st (n : Nat) (f : Slot → Slot) : (s.updSlot n f).st = s.st := rfl
@[simp] theorem State.updSlot_ob (n : Nat) (f : Slot → Slot) : (s.updSlot n f).ob = s.ob := rfl
@[simp] theorem State.updSlot_sv (n : Nat) (f : Slot → Slot) : (s.updSlot n f).sv = s.sv := rfl
@[simp] theorem State.updSlot_out (n : Nat) (f : Slot → Slot) : (s.updSlot n f).out = s.out := rfl

/-! ### setCmd -/

@[simp] theorem State.setCmd_pending (n q : Nat) (c : Cmd) : (s.setCmd n q c).pending = s.pending := rfl
@[simp] theorem State.setCmd_now (n q : Nat) (c : Cmd) : (s.setCmd n q c).now = s.now := rfl
@[simp] theorem State.setCmd_regs (n q : Nat) (c : Cmd) : (s.setCmd n q c).regs = s.regs := rfl
@[simp] theorem State.setCmd_mem (n q : Nat) (c : Cmd) : (s.setCmd n q c).mem = s.mem := rfl
@[simp] theorem State.setCmd_poison (n q : Nat) (c : Cmd) : (s.setCmd n q c).poison = s.poison := rfl
@[simp] theorem State.setCmd_mmu (n q : Nat) (c : Cmd) : (s.setCmd n q c).mmu = s.mmu := rfl
@[simp] theorem State.setCmd_latches (n q : Nat) (c : Cmd) : (s.setCmd n q c).latches = s.latches := rfl
@[simp] theorem State.setCmd_gs (n q : Nat) (c : Cmd) : (s.setCmd n q c).gs = s.gs := rfl
@[simp] theorem State.setCmd_dl (n q : Nat) (c : Cmd) : (s.setCmd n q c).dl = s.dl := rfl
@[simp] theorem State.setCmd_sy (n q : Nat) (c : Cmd) : (s.setCmd n q c).sy = s.sy := rfl
@[simp] theorem State.setCmd_rs (n q : Nat) (c : Cmd) : (s.setCmd n q c).rs = s.rs := rfl
@[simp] theorem State.setCmd_tb (n q : Nat) (c : Cmd) : (s.setCmd n q c).tb = s.tb := rfl
@[simp] theorem State.setCmd_li (n q : Nat) (c : Cmd) : (s.setCmd n q c).li = s.li := rfl
@[simp] theorem State.setCmd_fc (n q : Nat) (c : Cmd) : (s.setCmd n q c).fc = s.fc := rfl
@[simp] theorem State.setCmd_st (n q : Nat) (c : Cmd) : (s.setCmd n q c).st = s.st := rfl
@[simp] theorem State.setCmd_ob (n q : Nat) (c : Cmd) : (s.setCmd n q c).ob = s.ob := rfl
@[simp] theorem State.setCmd_sv (n q : Nat) (c : Cmd) : (s.setCmd n q c).sv = s.sv := rfl
@[simp] theorem State.setCmd_out (n q : Nat) (c : Cmd) : (s.setCmd n q c).out = s.out := rfl

/-! ### dropCmd -/

@[simp] theorem State.dropCmd_pending (n q : Nat) : (s.dropCmd n q).pending = s.pending := rfl
@[simp] theorem State.dropCmd_now (n q : Nat) : (s.dropCmd n q).now = s.now := rfl
@[simp] theorem State.dropCmd_regs (n q : Nat) : (s.dropCmd n q).regs = s.regs := rfl
@[simp] theorem State.dropCmd_mem (n q : Nat) : (s.dropCmd n q).mem = s.mem := rfl
@[simp] theorem State.dropCmd_poison (n q : Nat) : (s.dropCmd n q).poison = s.poison := rfl
@[simp] theorem State.dropCmd_mmu (n q : Nat) : (s.dropCmd n q).mmu = s.mmu := rfl
@[simp] theorem State.dropCmd_latches (n q : Nat) : (s.dropCmd n q).latches = s.latches := rfl
@[simp] theorem State.dropCmd_gs (n q : Nat) : (s.dropCmd n q).gs = s.gs := rfl
@[simp] theorem State.dropCmd_dl (n q : Nat) : (s.dropCmd n q).dl = s.dl := rfl
@[simp] theorem State.dropCmd_sy (n q : Nat) : (s.dropCmd n q).sy = s.sy := rfl
@[simp] theorem State.dropCmd_rs (n q : Nat) : (s.dropCmd n q).rs = s.rs := rfl
@[simp] theorem State.dropCmd_tb (n q : Nat) : (s.dropCmd n q).tb = s.tb := rfl
@[simp] theorem State.dropCmd_li (n q : Nat) : (s.dropCmd n q).li = s.li := rfl
@[simp] theorem State.dropCmd_fc (n q : Nat) : (s.dropCmd n q).fc = s.fc := rfl
@[simp] theorem State.dropCmd_st (n q : Nat) : (s.dropCmd n q).st = s.st := rfl
@[simp] theorem State.dropCmd_ob (n q : Nat) : (s.dropCmd n q).ob = s.ob := rfl
@[simp] theorem State.dropCmd_sv (n q : Nat) : (s.dropCmd n q).sv = s.sv := rfl
@[simp] theorem State.dropCmd_out (n q : Nat) : (s.dropCmd n q).out = s.out := rfl

/-! ### updEng -/

@[simp] theorem State.updEng_pending (e : Nat) (f : Engine → Engine) : (s.updEng e f).pending = s.pending := rfl
@[simp] theorem State.updEng_now (e : Nat) (f : Engine → Engine) : (s.updEng e f).now = s.now := rfl
@[simp] theorem State.updEng_regs (e : Nat) (f : Engine → Engine) : (s.updEng e f).regs = s.regs := rfl
@[simp] theorem State.updEng_mem (e : Nat) (f : Engine → Engine) : (s.updEng e f).mem = s.mem := rfl
@[simp] theorem State.updEng_poison (e : Nat) (f : Engine → Engine) : (s.updEng e f).poison = s.poison := rfl
@[simp] theorem State.updEng_mmu (e : Nat) (f : Engine → Engine) : (s.updEng e f).mmu = s.mmu := rfl
@[simp] theorem State.updEng_latches (e : Nat) (f : Engine → Engine) : (s.updEng e f).latches = s.latches := rfl
@[simp] theorem State.updEng_fe (e : Nat) (f : Engine → Engine) : (s.updEng e f).fe = s.fe := rfl
@[simp] theorem State.updEng_gs (e : Nat) (f : Engine → Engine) : (s.updEng e f).gs = s.gs := rfl
@[simp] theorem State.updEng_sy (e : Nat) (f : Engine → Engine) : (s.updEng e f).sy = s.sy := rfl
@[simp] theorem State.updEng_rs (e : Nat) (f : Engine → Engine) : (s.updEng e f).rs = s.rs := rfl
@[simp] theorem State.updEng_tb (e : Nat) (f : Engine → Engine) : (s.updEng e f).tb = s.tb := rfl
@[simp] theorem State.updEng_li (e : Nat) (f : Engine → Engine) : (s.updEng e f).li = s.li := rfl
@[simp] theorem State.updEng_fc (e : Nat) (f : Engine → Engine) : (s.updEng e f).fc = s.fc := rfl
@[simp] theorem State.updEng_st (e : Nat) (f : Engine → Engine) : (s.updEng e f).st = s.st := rfl
@[simp] theorem State.updEng_ob (e : Nat) (f : Engine → Engine) : (s.updEng e f).ob = s.ob := rfl
@[simp] theorem State.updEng_sv (e : Nat) (f : Engine → Engine) : (s.updEng e f).sv = s.sv := rfl
@[simp] theorem State.updEng_out (e : Nat) (f : Engine → Engine) : (s.updEng e f).out = s.out := rfl

/-! ### updDealer -/

@[simp] theorem State.updDealer_pending (r : Nat) (f : Dealer → Dealer) : (s.updDealer r f).pending = s.pending := rfl
@[simp] theorem State.updDealer_now (r : Nat) (f : Dealer → Dealer) : (s.updDealer r f).now = s.now := rfl
@[simp] theorem State.updDealer_regs (r : Nat) (f : Dealer → Dealer) : (s.updDealer r f).regs = s.regs := rfl
@[simp] theorem State.updDealer_mem (r : Nat) (f : Dealer → Dealer) : (s.updDealer r f).mem = s.mem := rfl
@[simp] theorem State.updDealer_poison (r : Nat) (f : Dealer → Dealer) : (s.updDealer r f).poison = s.poison := rfl
@[simp] theorem State.updDealer_mmu (r : Nat) (f : Dealer → Dealer) : (s.updDealer r f).mmu = s.mmu := rfl
@[simp] theorem State.updDealer_latches (r : Nat) (f : Dealer → Dealer) : (s.updDealer r f).latches = s.latches := rfl
@[simp] theorem State.updDealer_fe (r : Nat) (f : Dealer → Dealer) : (s.updDealer r f).fe = s.fe := rfl
@[simp] theorem State.updDealer_gs (r : Nat) (f : Dealer → Dealer) : (s.updDealer r f).gs = s.gs := rfl
@[simp] theorem State.updDealer_sy (r : Nat) (f : Dealer → Dealer) : (s.updDealer r f).sy = s.sy := rfl
@[simp] theorem State.updDealer_rs (r : Nat) (f : Dealer → Dealer) : (s.updDealer r f).rs = s.rs := rfl
@[simp] theorem State.updDealer_tb (r : Nat) (f : Dealer → Dealer) : (s.updDealer r f).tb = s.tb := rfl
@[simp] theorem State.updDealer_li (r : Nat) (f : Dealer → Dealer) : (s.updDealer r f).li = s.li := rfl
@[simp] theorem State.updDealer_fc (r : Nat) (f : Dealer → Dealer) : (s.updDealer r f).fc = s.fc := rfl
@[simp] theorem State.updDealer_st (r : Nat) (f : Dealer → Dealer) : (s.updDealer r f).st = s.st := rfl
@[simp] theorem State.updDealer_ob (r : Nat) (f : Dealer → Dealer) : (s.updDealer r f).ob = s.ob := rfl
@[simp] theorem State.updDealer_sv (r : Nat) (f : Dealer → Dealer) : (s.updDealer r f).sv = s.sv := rfl
@[simp] theorem State.updDealer_out (r : Nat) (f : Dealer → Dealer) : (s.updDealer r f).out = s.out := rfl

/-! ### updPod -/

@[simp] theorem State.updPod_pending (p : Nat) (f : Pod → Pod) : (s.updPod p f).pending = s.pending := rfl
@[simp] theorem State.updPod_now (p : Nat) (f : Pod → Pod) : (s.updPod p f).now = s.now := rfl
@[simp] theorem State.updPod_regs (p : Nat) (f : Pod → Pod) : (s.updPod p f).regs = s.regs := rfl
@[simp] theorem State.updPod_mem (p : Nat) (f : Pod → Pod) : (s.updPod p f).mem = s.mem := rfl
@[simp] theorem State.updPod_poison (p : Nat) (f : Pod → Pod) : (s.updPod p f).poison = s.poison := rfl
@[simp] theorem State.updPod_mmu (p : Nat) (f : Pod → Pod) : (s.updPod p f).mmu = s.mmu := rfl
@[simp] theorem State.updPod_latches (p : Nat) (f : Pod → Pod) : (s.updPod p f).latches = s.latches := rfl
@[simp] theorem State.updPod_fe (p : Nat) (f : Pod → Pod) : (s.updPod p f).fe = s.fe := rfl
@[simp] theorem State.updPod_gs (p : Nat) (f : Pod → Pod) : (s.updPod p f).gs = s.gs := rfl
@[simp] theorem State.updPod_sy (p : Nat) (f : Pod → Pod) : (s.updPod p f).sy = s.sy := rfl
@[simp] theorem State.updPod_rs (p : Nat) (f : Pod → Pod) : (s.updPod p f).rs = s.rs := rfl
@[simp] theorem State.updPod_tb (p : Nat) (f : Pod → Pod) : (s.updPod p f).tb = s.tb := rfl
@[simp] theorem State.updPod_li (p : Nat) (f : Pod → Pod) : (s.updPod p f).li = s.li := rfl
@[simp] theorem State.updPod_fc (p : Nat) (f : Pod → Pod) : (s.updPod p f).fc = s.fc := rfl
@[simp] theorem State.updPod_st (p : Nat) (f : Pod → Pod) : (s.updPod p f).st = s.st := rfl
@[simp] theorem State.updPod_ob (p : Nat) (f : Pod → Pod) : (s.updPod p f).ob = s.ob := rfl
@[simp] theorem State.updPod_sv (p : Nat) (f : Pod → Pod) : (s.updPod p f).sv = s.sv := rfl
@[simp] theorem State.updPod_out (p : Nat) (f : Pod → Pod) : (s.updPod p f).out = s.out := rfl

/-! ### setObj -/

@[simp] theorem State.setObj_pending (k : Nat) (x : SyncObj) : (s.setObj k x).pending = s.pending := rfl
@[simp] theorem State.setObj_now (k : Nat) (x : SyncObj) : (s.setObj k x).now = s.now := rfl
@[simp] theorem State.setObj_regs (k : Nat) (x : SyncObj) : (s.setObj k x).regs = s.regs := rfl
@[simp] theorem State.setObj_mem (k : Nat) (x : SyncObj) : (s.setObj k x).mem = s.mem := rfl
@[simp] theorem State.setObj_poison (k : Nat) (x : SyncObj) : (s.setObj k x).poison = s.poison := rfl
@[simp] theorem State.setObj_mmu (k : Nat) (x : SyncObj) : (s.setObj k x).mmu = s.mmu := rfl
@[simp] theorem State.setObj_latches (k : Nat) (x : SyncObj) : (s.setObj k x).latches = s.latches := rfl
@[simp] theorem State.setObj_fe (k : Nat) (x : SyncObj) : (s.setObj k x).fe = s.fe := rfl
@[simp] theorem State.setObj_gs (k : Nat) (x : SyncObj) : (s.setObj k x).gs = s.gs := rfl
@[simp] theorem State.setObj_dl (k : Nat) (x : SyncObj) : (s.setObj k x).dl = s.dl := rfl
@[simp] theorem State.setObj_rs (k : Nat) (x : SyncObj) : (s.setObj k x).rs = s.rs := rfl
@[simp] theorem State.setObj_tb (k : Nat) (x : SyncObj) : (s.setObj k x).tb = s.tb := rfl
@[simp] theorem State.setObj_li (k : Nat) (x : SyncObj) : (s.setObj k x).li = s.li := rfl
@[simp] theorem State.setObj_fc (k : Nat) (x : SyncObj) : (s.setObj k x).fc = s.fc := rfl
@[simp] theorem State.setObj_st (k : Nat) (x : SyncObj) : (s.setObj k x).st = s.st := rfl
@[simp] theorem State.setObj_ob (k : Nat) (x : SyncObj) : (s.setObj k x).ob = s.ob := rfl
@[simp] theorem State.setObj_sv (k : Nat) (x : SyncObj) : (s.setObj k x).sv = s.sv := rfl
@[simp] theorem State.setObj_out (k : Nat) (x : SyncObj) : (s.setObj k x).out = s.out := rfl

/-! ### updObj -/

@[simp] theorem State.updObj_pending (k : Nat) (f : SyncObj → SyncObj) : (s.updObj k f).pending = s.pending := rfl
@[simp] theorem State.updObj_now (k : Nat) (f : SyncObj → SyncObj) : (s.updObj k f).now = s.now := rfl
@[simp] theorem State.updObj_regs (k : Nat) (f : SyncObj → SyncObj) : (s.updObj k f).regs = s.regs := rfl
@[simp] theorem State.updObj_mem (k : Nat) (f : SyncObj → SyncObj) : (s.updObj k f).mem = s.mem := rfl
@[simp] theorem State.updObj_poison (k : Nat) (f : SyncObj → SyncObj) : (s.updObj k f).poison = s.poison := rfl
@[simp] theorem State.updObj_mmu (k : Nat) (f : SyncObj → SyncObj) : (s.updObj k f).mmu = s.mmu := rfl
@[simp] theorem State.updObj_latches (k : Nat) (f : SyncObj → SyncObj) : (s.updObj k f).latches = s.latches := rfl
@[simp] theorem State.updObj_fe (k : Nat) (f : SyncObj → SyncObj) : (s.updObj k f).fe = s.fe := rfl
@[simp] theorem State.updObj_gs (k : Nat) (f : SyncObj → SyncObj) : (s.updObj k f).gs = s.gs := rfl
@[simp] theorem State.updObj_dl (k : Nat) (f : SyncObj → SyncObj) : (s.updObj k f).dl = s.dl := rfl
@[simp] theorem State.updObj_rs (k : Nat) (f : SyncObj → SyncObj) : (s.updObj k f).rs = s.rs := rfl
@[simp] theorem State.updObj_tb (k : Nat) (f : SyncObj → SyncObj) : (s.updObj k f).tb = s.tb := rfl
@[simp] theorem State.updObj_li (k : Nat) (f : SyncObj → SyncObj) : (s.updObj k f).li = s.li := rfl
@[simp] theorem State.updObj_fc (k : Nat) (f : SyncObj → SyncObj) : (s.updObj k f).fc = s.fc := rfl
@[simp] theorem State.updObj_st (k : Nat) (f : SyncObj → SyncObj) : (s.updObj k f).st = s.st := rfl
@[simp] theorem State.updObj_ob (k : Nat) (f : SyncObj → SyncObj) : (s.updObj k f).ob = s.ob := rfl
@[simp] theorem State.updObj_sv (k : Nat) (f : SyncObj → SyncObj) : (s.updObj k f).sv = s.sv := rfl
@[simp] theorem State.updObj_out (k : Nat) (f : SyncObj → SyncObj) : (s.updObj k f).out = s.out := rfl

/-! ### updSeq -/

@[simp] theorem State.updSeq_pending (q : Nat) (f : SeqEnt → SeqEnt) : (s.updSeq q f).pending = s.pending := rfl
@[simp] theorem State.updSeq_now (q : Nat) (f : SeqEnt → SeqEnt) : (s.updSeq q f).now = s.now := rfl
@[simp] theorem State.updSeq_regs (q : Nat) (f : SeqEnt → SeqEnt) : (s.updSeq q f).regs = s.regs := rfl
@[simp] theorem State.updSeq_mem (q : Nat) (f : SeqEnt → SeqEnt) : (s.updSeq q f).mem = s.mem := rfl
@[simp] theorem State.updSeq_poison (q : Nat) (f : SeqEnt → SeqEnt) : (s.updSeq q f).poison = s.poison := rfl
@[simp] theorem State.updSeq_mmu (q : Nat) (f : SeqEnt → SeqEnt) : (s.updSeq q f).mmu = s.mmu := rfl
@[simp] theorem State.updSeq_latches (q : Nat) (f : SeqEnt → SeqEnt) : (s.updSeq q f).latches = s.latches := rfl
@[simp] theorem State.updSeq_fe (q : Nat) (f : SeqEnt → SeqEnt) : (s.updSeq q f).fe = s.fe := rfl
@[simp] theorem State.updSeq_gs (q : Nat) (f : SeqEnt → SeqEnt) : (s.updSeq q f).gs = s.gs := rfl
@[simp] theorem State.updSeq_dl (q : Nat) (f : SeqEnt → SeqEnt) : (s.updSeq q f).dl = s.dl := rfl
@[simp] theorem State.updSeq_sy (q : Nat) (f : SeqEnt → SeqEnt) : (s.updSeq q f).sy = s.sy := rfl
@[simp] theorem State.updSeq_tb (q : Nat) (f : SeqEnt → SeqEnt) : (s.updSeq q f).tb = s.tb := rfl
@[simp] theorem State.updSeq_li (q : Nat) (f : SeqEnt → SeqEnt) : (s.updSeq q f).li = s.li := rfl
@[simp] theorem State.updSeq_fc (q : Nat) (f : SeqEnt → SeqEnt) : (s.updSeq q f).fc = s.fc := rfl
@[simp] theorem State.updSeq_st (q : Nat) (f : SeqEnt → SeqEnt) : (s.updSeq q f).st = s.st := rfl
@[simp] theorem State.updSeq_ob (q : Nat) (f : SeqEnt → SeqEnt) : (s.updSeq q f).ob = s.ob := rfl
@[simp] theorem State.updSeq_sv (q : Nat) (f : SeqEnt → SeqEnt) : (s.updSeq q f).sv = s.sv := rfl
@[simp] theorem State.updSeq_out (q : Nat) (f : SeqEnt → SeqEnt) : (s.updSeq q f).out = s.out := rfl

/-! ### updRos -/

@[simp] theorem State.updRos_pending (k : Nat) (f : Ros → Ros) : (s.updRos k f).pending = s.pending := rfl
@[simp] theorem State.updRos_now (k : Nat) (f : Ros → Ros) : (s.updRos k f).now = s.now := rfl
@[simp] theorem State.updRos_regs (k : Nat) (f : Ros → Ros) : (s.updRos k f).regs = s.regs := rfl
@[simp] theorem State.updRos_mem (k : Nat) (f : Ros → Ros) : (s.updRos k f).mem = s.mem := rfl
@[simp] theorem State.updRos_poison (k : Nat) (f : Ros → Ros) : (s.updRos k f).poison = s.poison := rfl
@[simp] theorem State.updRos_mmu (k : Nat) (f : Ros → Ros) : (s.updRos k f).mmu = s.mmu := rfl
@[simp] theorem State.updRos_latches (k : Nat) (f : Ros → Ros) : (s.updRos k f).latches = s.latches := rfl
@[simp] theorem State.updRos_fe (k : Nat) (f : Ros → Ros) : (s.updRos k f).fe = s.fe := rfl
@[simp] theorem State.updRos_gs (k : Nat) (f : Ros → Ros) : (s.updRos k f).gs = s.gs := rfl
@[simp] theorem State.updRos_dl (k : Nat) (f : Ros → Ros) : (s.updRos k f).dl = s.dl := rfl
@[simp] theorem State.updRos_sy (k : Nat) (f : Ros → Ros) : (s.updRos k f).sy = s.sy := rfl
@[simp] theorem State.updRos_tb (k : Nat) (f : Ros → Ros) : (s.updRos k f).tb = s.tb := rfl
@[simp] theorem State.updRos_li (k : Nat) (f : Ros → Ros) : (s.updRos k f).li = s.li := rfl
@[simp] theorem State.updRos_fc (k : Nat) (f : Ros → Ros) : (s.updRos k f).fc = s.fc := rfl
@[simp] theorem State.updRos_st (k : Nat) (f : Ros → Ros) : (s.updRos k f).st = s.st := rfl
@[simp] theorem State.updRos_ob (k : Nat) (f : Ros → Ros) : (s.updRos k f).ob = s.ob := rfl
@[simp] theorem State.updRos_sv (k : Nat) (f : Ros → Ros) : (s.updRos k f).sv = s.sv := rfl
@[simp] theorem State.updRos_out (k : Nat) (f : Ros → Ros) : (s.updRos k f).out = s.out := rfl

/-! ### updPort -/

@[simp] theorem State.updPort_pending (k : Nat) (f : Port → Port) : (s.updPort k f).pending = s.pending := rfl
@[simp] theorem State.updPort_now (k : Nat) (f : Port → Port) : (s.updPort k f).now = s.now := rfl
@[simp] theorem State.updPort_regs (k : Nat) (f : Port → Port) : (s.updPort k f).regs = s.regs := rfl
@[simp] theorem State.updPort_mem (k : Nat) (f : Port → Port) : (s.updPort k f).mem = s.mem := rfl
@[simp] theorem State.updPort_poison (k : Nat) (f : Port → Port) : (s.updPort k f).poison = s.poison := rfl
@[simp] theorem State.updPort_mmu (k : Nat) (f : Port → Port) : (s.updPort k f).mmu = s.mmu := rfl
@[simp] theorem State.updPort_latches (k : Nat) (f : Port → Port) : (s.updPort k f).latches = s.latches := rfl
@[simp] theorem State.updPort_fe (k : Nat) (f : Port → Port) : (s.updPort k f).fe = s.fe := rfl
@[simp] theorem State.updPort_gs (k : Nat) (f : Port → Port) : (s.updPort k f).gs = s.gs := rfl
@[simp] theorem State.updPort_dl (k : Nat) (f : Port → Port) : (s.updPort k f).dl = s.dl := rfl
@[simp] theorem State.updPort_sy (k : Nat) (f : Port → Port) : (s.updPort k f).sy = s.sy := rfl
@[simp] theorem State.updPort_rs (k : Nat) (f : Port → Port) : (s.updPort k f).rs = s.rs := rfl
@[simp] theorem State.updPort_tb (k : Nat) (f : Port → Port) : (s.updPort k f).tb = s.tb := rfl
@[simp] theorem State.updPort_fc (k : Nat) (f : Port → Port) : (s.updPort k f).fc = s.fc := rfl
@[simp] theorem State.updPort_st (k : Nat) (f : Port → Port) : (s.updPort k f).st = s.st := rfl
@[simp] theorem State.updPort_ob (k : Nat) (f : Port → Port) : (s.updPort k f).ob = s.ob := rfl
@[simp] theorem State.updPort_sv (k : Nat) (f : Port → Port) : (s.updPort k f).sv = s.sv := rfl
@[simp] theorem State.updPort_out (k : Nat) (f : Port → Port) : (s.updPort k f).out = s.out := rfl

/-! ### updLanding -/

@[simp] theorem State.updLanding_pending (l : Nat) (f : Landing → Landing) : (s.updLanding l f).pending = s.pending := rfl
@[simp] theorem State.updLanding_now (l : Nat) (f : Landing → Landing) : (s.updLanding l f).now = s.now := rfl
@[simp] theorem State.updLanding_regs (l : Nat) (f : Landing → Landing) : (s.updLanding l f).regs = s.regs := rfl
@[simp] theorem State.updLanding_mem (l : Nat) (f : Landing → Landing) : (s.updLanding l f).mem = s.mem := rfl
@[simp] theorem State.updLanding_poison (l : Nat) (f : Landing → Landing) : (s.updLanding l f).poison = s.poison := rfl
@[simp] theorem State.updLanding_mmu (l : Nat) (f : Landing → Landing) : (s.updLanding l f).mmu = s.mmu := rfl
@[simp] theorem State.updLanding_latches (l : Nat) (f : Landing → Landing) : (s.updLanding l f).latches = s.latches := rfl
@[simp] theorem State.updLanding_fe (l : Nat) (f : Landing → Landing) : (s.updLanding l f).fe = s.fe := rfl
@[simp] theorem State.updLanding_gs (l : Nat) (f : Landing → Landing) : (s.updLanding l f).gs = s.gs := rfl
@[simp] theorem State.updLanding_dl (l : Nat) (f : Landing → Landing) : (s.updLanding l f).dl = s.dl := rfl
@[simp] theorem State.updLanding_sy (l : Nat) (f : Landing → Landing) : (s.updLanding l f).sy = s.sy := rfl
@[simp] theorem State.updLanding_rs (l : Nat) (f : Landing → Landing) : (s.updLanding l f).rs = s.rs := rfl
@[simp] theorem State.updLanding_tb (l : Nat) (f : Landing → Landing) : (s.updLanding l f).tb = s.tb := rfl
@[simp] theorem State.updLanding_fc (l : Nat) (f : Landing → Landing) : (s.updLanding l f).fc = s.fc := rfl
@[simp] theorem State.updLanding_st (l : Nat) (f : Landing → Landing) : (s.updLanding l f).st = s.st := rfl
@[simp] theorem State.updLanding_ob (l : Nat) (f : Landing → Landing) : (s.updLanding l f).ob = s.ob := rfl
@[simp] theorem State.updLanding_sv (l : Nat) (f : Landing → Landing) : (s.updLanding l f).sv = s.sv := rfl
@[simp] theorem State.updLanding_out (l : Nat) (f : Landing → Landing) : (s.updLanding l f).out = s.out := rfl

/-! ### updCall -/

@[simp] theorem State.updCall_pending (x : Nat) (f : CallSlot → CallSlot) : (s.updCall x f).pending = s.pending := rfl
@[simp] theorem State.updCall_now (x : Nat) (f : CallSlot → CallSlot) : (s.updCall x f).now = s.now := rfl
@[simp] theorem State.updCall_regs (x : Nat) (f : CallSlot → CallSlot) : (s.updCall x f).regs = s.regs := rfl
@[simp] theorem State.updCall_mem (x : Nat) (f : CallSlot → CallSlot) : (s.updCall x f).mem = s.mem := rfl
@[simp] theorem State.updCall_poison (x : Nat) (f : CallSlot → CallSlot) : (s.updCall x f).poison = s.poison := rfl
@[simp] theorem State.updCall_mmu (x : Nat) (f : CallSlot → CallSlot) : (s.updCall x f).mmu = s.mmu := rfl
@[simp] theorem State.updCall_latches (x : Nat) (f : CallSlot → CallSlot) : (s.updCall x f).latches = s.latches := rfl
@[simp] theorem State.updCall_fe (x : Nat) (f : CallSlot → CallSlot) : (s.updCall x f).fe = s.fe := rfl
@[simp] theorem State.updCall_gs (x : Nat) (f : CallSlot → CallSlot) : (s.updCall x f).gs = s.gs := rfl
@[simp] theorem State.updCall_dl (x : Nat) (f : CallSlot → CallSlot) : (s.updCall x f).dl = s.dl := rfl
@[simp] theorem State.updCall_sy (x : Nat) (f : CallSlot → CallSlot) : (s.updCall x f).sy = s.sy := rfl
@[simp] theorem State.updCall_rs (x : Nat) (f : CallSlot → CallSlot) : (s.updCall x f).rs = s.rs := rfl
@[simp] theorem State.updCall_tb (x : Nat) (f : CallSlot → CallSlot) : (s.updCall x f).tb = s.tb := rfl
@[simp] theorem State.updCall_fc (x : Nat) (f : CallSlot → CallSlot) : (s.updCall x f).fc = s.fc := rfl
@[simp] theorem State.updCall_st (x : Nat) (f : CallSlot → CallSlot) : (s.updCall x f).st = s.st := rfl
@[simp] theorem State.updCall_ob (x : Nat) (f : CallSlot → CallSlot) : (s.updCall x f).ob = s.ob := rfl
@[simp] theorem State.updCall_sv (x : Nat) (f : CallSlot → CallSlot) : (s.updCall x f).sv = s.sv := rfl
@[simp] theorem State.updCall_out (x : Nat) (f : CallSlot → CallSlot) : (s.updCall x f).out = s.out := rfl

/-! ### updCore -/

@[simp] theorem State.updCore_pending (k : Nat) (f : Core → Core) : (s.updCore k f).pending = s.pending := rfl
@[simp] theorem State.updCore_now (k : Nat) (f : Core → Core) : (s.updCore k f).now = s.now := rfl
@[simp] theorem State.updCore_regs (k : Nat) (f : Core → Core) : (s.updCore k f).regs = s.regs := rfl
@[simp] theorem State.updCore_mem (k : Nat) (f : Core → Core) : (s.updCore k f).mem = s.mem := rfl
@[simp] theorem State.updCore_poison (k : Nat) (f : Core → Core) : (s.updCore k f).poison = s.poison := rfl
@[simp] theorem State.updCore_mmu (k : Nat) (f : Core → Core) : (s.updCore k f).mmu = s.mmu := rfl
@[simp] theorem State.updCore_latches (k : Nat) (f : Core → Core) : (s.updCore k f).latches = s.latches := rfl
@[simp] theorem State.updCore_fe (k : Nat) (f : Core → Core) : (s.updCore k f).fe = s.fe := rfl
@[simp] theorem State.updCore_gs (k : Nat) (f : Core → Core) : (s.updCore k f).gs = s.gs := rfl
@[simp] theorem State.updCore_dl (k : Nat) (f : Core → Core) : (s.updCore k f).dl = s.dl := rfl
@[simp] theorem State.updCore_sy (k : Nat) (f : Core → Core) : (s.updCore k f).sy = s.sy := rfl
@[simp] theorem State.updCore_rs (k : Nat) (f : Core → Core) : (s.updCore k f).rs = s.rs := rfl
@[simp] theorem State.updCore_tb (k : Nat) (f : Core → Core) : (s.updCore k f).tb = s.tb := rfl
@[simp] theorem State.updCore_li (k : Nat) (f : Core → Core) : (s.updCore k f).li = s.li := rfl
@[simp] theorem State.updCore_fc (k : Nat) (f : Core → Core) : (s.updCore k f).fc = s.fc := rfl
@[simp] theorem State.updCore_st (k : Nat) (f : Core → Core) : (s.updCore k f).st = s.st := rfl
@[simp] theorem State.updCore_ob (k : Nat) (f : Core → Core) : (s.updCore k f).ob = s.ob := rfl
@[simp] theorem State.updCore_out (k : Nat) (f : Core → Core) : (s.updCore k f).out = s.out := rfl

/-! ### updClock -/

@[simp] theorem State.updClock_pending (d : Nat) (f : Clock → Clock) : (s.updClock d f).pending = s.pending := rfl
@[simp] theorem State.updClock_now (d : Nat) (f : Clock → Clock) : (s.updClock d f).now = s.now := rfl
@[simp] theorem State.updClock_regs (d : Nat) (f : Clock → Clock) : (s.updClock d f).regs = s.regs := rfl
@[simp] theorem State.updClock_mem (d : Nat) (f : Clock → Clock) : (s.updClock d f).mem = s.mem := rfl
@[simp] theorem State.updClock_poison (d : Nat) (f : Clock → Clock) : (s.updClock d f).poison = s.poison := rfl
@[simp] theorem State.updClock_mmu (d : Nat) (f : Clock → Clock) : (s.updClock d f).mmu = s.mmu := rfl
@[simp] theorem State.updClock_latches (d : Nat) (f : Clock → Clock) : (s.updClock d f).latches = s.latches := rfl
@[simp] theorem State.updClock_fe (d : Nat) (f : Clock → Clock) : (s.updClock d f).fe = s.fe := rfl
@[simp] theorem State.updClock_gs (d : Nat) (f : Clock → Clock) : (s.updClock d f).gs = s.gs := rfl
@[simp] theorem State.updClock_dl (d : Nat) (f : Clock → Clock) : (s.updClock d f).dl = s.dl := rfl
@[simp] theorem State.updClock_sy (d : Nat) (f : Clock → Clock) : (s.updClock d f).sy = s.sy := rfl
@[simp] theorem State.updClock_rs (d : Nat) (f : Clock → Clock) : (s.updClock d f).rs = s.rs := rfl
@[simp] theorem State.updClock_tb (d : Nat) (f : Clock → Clock) : (s.updClock d f).tb = s.tb := rfl
@[simp] theorem State.updClock_li (d : Nat) (f : Clock → Clock) : (s.updClock d f).li = s.li := rfl
@[simp] theorem State.updClock_st (d : Nat) (f : Clock → Clock) : (s.updClock d f).st = s.st := rfl
@[simp] theorem State.updClock_ob (d : Nat) (f : Clock → Clock) : (s.updClock d f).ob = s.ob := rfl
@[simp] theorem State.updClock_sv (d : Nat) (f : Clock → Clock) : (s.updClock d f).sv = s.sv := rfl
@[simp] theorem State.updClock_out (d : Nat) (f : Clock → Clock) : (s.updClock d f).out = s.out := rfl

/-! ### updSupply -/

@[simp] theorem State.updSupply_pending (d : Nat) (f : Supply → Supply) : (s.updSupply d f).pending = s.pending := rfl
@[simp] theorem State.updSupply_now (d : Nat) (f : Supply → Supply) : (s.updSupply d f).now = s.now := rfl
@[simp] theorem State.updSupply_regs (d : Nat) (f : Supply → Supply) : (s.updSupply d f).regs = s.regs := rfl
@[simp] theorem State.updSupply_mem (d : Nat) (f : Supply → Supply) : (s.updSupply d f).mem = s.mem := rfl
@[simp] theorem State.updSupply_poison (d : Nat) (f : Supply → Supply) : (s.updSupply d f).poison = s.poison := rfl
@[simp] theorem State.updSupply_mmu (d : Nat) (f : Supply → Supply) : (s.updSupply d f).mmu = s.mmu := rfl
@[simp] theorem State.updSupply_latches (d : Nat) (f : Supply → Supply) : (s.updSupply d f).latches = s.latches := rfl
@[simp] theorem State.updSupply_fe (d : Nat) (f : Supply → Supply) : (s.updSupply d f).fe = s.fe := rfl
@[simp] theorem State.updSupply_gs (d : Nat) (f : Supply → Supply) : (s.updSupply d f).gs = s.gs := rfl
@[simp] theorem State.updSupply_dl (d : Nat) (f : Supply → Supply) : (s.updSupply d f).dl = s.dl := rfl
@[simp] theorem State.updSupply_sy (d : Nat) (f : Supply → Supply) : (s.updSupply d f).sy = s.sy := rfl
@[simp] theorem State.updSupply_rs (d : Nat) (f : Supply → Supply) : (s.updSupply d f).rs = s.rs := rfl
@[simp] theorem State.updSupply_tb (d : Nat) (f : Supply → Supply) : (s.updSupply d f).tb = s.tb := rfl
@[simp] theorem State.updSupply_li (d : Nat) (f : Supply → Supply) : (s.updSupply d f).li = s.li := rfl
@[simp] theorem State.updSupply_st (d : Nat) (f : Supply → Supply) : (s.updSupply d f).st = s.st := rfl
@[simp] theorem State.updSupply_ob (d : Nat) (f : Supply → Supply) : (s.updSupply d f).ob = s.ob := rfl
@[simp] theorem State.updSupply_sv (d : Nat) (f : Supply → Supply) : (s.updSupply d f).sv = s.sv := rfl
@[simp] theorem State.updSupply_out (d : Nat) (f : Supply → Supply) : (s.updSupply d f).out = s.out := rfl

/-! ### payObs -/

@[simp] theorem State.payObs_pending (g : Nat) : (s.payObs g).pending = s.pending := rfl
@[simp] theorem State.payObs_now (g : Nat) : (s.payObs g).now = s.now := rfl
@[simp] theorem State.payObs_regs (g : Nat) : (s.payObs g).regs = s.regs := rfl
@[simp] theorem State.payObs_mem (g : Nat) : (s.payObs g).mem = s.mem := rfl
@[simp] theorem State.payObs_poison (g : Nat) : (s.payObs g).poison = s.poison := rfl
@[simp] theorem State.payObs_mmu (g : Nat) : (s.payObs g).mmu = s.mmu := rfl
@[simp] theorem State.payObs_latches (g : Nat) : (s.payObs g).latches = s.latches := rfl
@[simp] theorem State.payObs_fe (g : Nat) : (s.payObs g).fe = s.fe := rfl
@[simp] theorem State.payObs_gs (g : Nat) : (s.payObs g).gs = s.gs := rfl
@[simp] theorem State.payObs_sy (g : Nat) : (s.payObs g).sy = s.sy := rfl
@[simp] theorem State.payObs_rs (g : Nat) : (s.payObs g).rs = s.rs := rfl
@[simp] theorem State.payObs_tb (g : Nat) : (s.payObs g).tb = s.tb := rfl
@[simp] theorem State.payObs_li (g : Nat) : (s.payObs g).li = s.li := rfl
@[simp] theorem State.payObs_fc (g : Nat) : (s.payObs g).fc = s.fc := rfl
@[simp] theorem State.payObs_st (g : Nat) : (s.payObs g).st = s.st := rfl
@[simp] theorem State.payObs_ob (g : Nat) : (s.payObs g).ob = s.ob := rfl
@[simp] theorem State.payObs_sv (g : Nat) : (s.payObs g).sv = s.sv := rfl
@[simp] theorem State.payObs_out (g : Nat) : (s.payObs g).out = s.out := rfl

/-! ### wakeRoster -/

@[simp] theorem State.wakeRoster_pending (k : Nat) : (s.wakeRoster k).pending = s.pending := rfl
@[simp] theorem State.wakeRoster_now (k : Nat) : (s.wakeRoster k).now = s.now := rfl
@[simp] theorem State.wakeRoster_regs (k : Nat) : (s.wakeRoster k).regs = s.regs := rfl
@[simp] theorem State.wakeRoster_mem (k : Nat) : (s.wakeRoster k).mem = s.mem := rfl
@[simp] theorem State.wakeRoster_poison (k : Nat) : (s.wakeRoster k).poison = s.poison := rfl
@[simp] theorem State.wakeRoster_mmu (k : Nat) : (s.wakeRoster k).mmu = s.mmu := rfl
@[simp] theorem State.wakeRoster_latches (k : Nat) : (s.wakeRoster k).latches = s.latches := rfl
@[simp] theorem State.wakeRoster_fe (k : Nat) : (s.wakeRoster k).fe = s.fe := rfl
@[simp] theorem State.wakeRoster_gs (k : Nat) : (s.wakeRoster k).gs = s.gs := rfl
@[simp] theorem State.wakeRoster_dl (k : Nat) : (s.wakeRoster k).dl = s.dl := rfl
@[simp] theorem State.wakeRoster_sy (k : Nat) : (s.wakeRoster k).sy = s.sy := rfl
@[simp] theorem State.wakeRoster_tb (k : Nat) : (s.wakeRoster k).tb = s.tb := rfl
@[simp] theorem State.wakeRoster_li (k : Nat) : (s.wakeRoster k).li = s.li := rfl
@[simp] theorem State.wakeRoster_fc (k : Nat) : (s.wakeRoster k).fc = s.fc := rfl
@[simp] theorem State.wakeRoster_st (k : Nat) : (s.wakeRoster k).st = s.st := rfl
@[simp] theorem State.wakeRoster_ob (k : Nat) : (s.wakeRoster k).ob = s.ob := rfl
@[simp] theorem State.wakeRoster_sv (k : Nat) : (s.wakeRoster k).sv = s.sv := rfl
@[simp] theorem State.wakeRoster_out (k : Nat) : (s.wakeRoster k).out = s.out := rfl

/-! ### xlatPush -/

@[simp] theorem State.xlatPush_pending (q : SyncReq) : (s.xlatPush q).pending = s.pending := rfl
@[simp] theorem State.xlatPush_now (q : SyncReq) : (s.xlatPush q).now = s.now := rfl
@[simp] theorem State.xlatPush_regs (q : SyncReq) : (s.xlatPush q).regs = s.regs := rfl
@[simp] theorem State.xlatPush_mem (q : SyncReq) : (s.xlatPush q).mem = s.mem := rfl
@[simp] theorem State.xlatPush_poison (q : SyncReq) : (s.xlatPush q).poison = s.poison := rfl
@[simp] theorem State.xlatPush_mmu (q : SyncReq) : (s.xlatPush q).mmu = s.mmu := rfl
@[simp] theorem State.xlatPush_latches (q : SyncReq) : (s.xlatPush q).latches = s.latches := rfl
@[simp] theorem State.xlatPush_fe (q : SyncReq) : (s.xlatPush q).fe = s.fe := rfl
@[simp] theorem State.xlatPush_gs (q : SyncReq) : (s.xlatPush q).gs = s.gs := rfl
@[simp] theorem State.xlatPush_dl (q : SyncReq) : (s.xlatPush q).dl = s.dl := rfl
@[simp] theorem State.xlatPush_rs (q : SyncReq) : (s.xlatPush q).rs = s.rs := rfl
@[simp] theorem State.xlatPush_tb (q : SyncReq) : (s.xlatPush q).tb = s.tb := rfl
@[simp] theorem State.xlatPush_li (q : SyncReq) : (s.xlatPush q).li = s.li := rfl
@[simp] theorem State.xlatPush_fc (q : SyncReq) : (s.xlatPush q).fc = s.fc := rfl
@[simp] theorem State.xlatPush_st (q : SyncReq) : (s.xlatPush q).st = s.st := rfl
@[simp] theorem State.xlatPush_ob (q : SyncReq) : (s.xlatPush q).ob = s.ob := rfl
@[simp] theorem State.xlatPush_sv (q : SyncReq) : (s.xlatPush q).sv = s.sv := rfl
@[simp] theorem State.xlatPush_out (q : SyncReq) : (s.xlatPush q).out = s.out := rfl

/-! ### updMemWait -/

@[simp] theorem State.updMemWait_pending (f : MemReq → MemReq) : (s.updMemWait f).pending = s.pending := rfl
@[simp] theorem State.updMemWait_now (f : MemReq → MemReq) : (s.updMemWait f).now = s.now := rfl
@[simp] theorem State.updMemWait_regs (f : MemReq → MemReq) : (s.updMemWait f).regs = s.regs := rfl
@[simp] theorem State.updMemWait_mem (f : MemReq → MemReq) : (s.updMemWait f).mem = s.mem := rfl
@[simp] theorem State.updMemWait_poison (f : MemReq → MemReq) : (s.updMemWait f).poison = s.poison := rfl
@[simp] theorem State.updMemWait_mmu (f : MemReq → MemReq) : (s.updMemWait f).mmu = s.mmu := rfl
@[simp] theorem State.updMemWait_latches (f : MemReq → MemReq) : (s.updMemWait f).latches = s.latches := rfl
@[simp] theorem State.updMemWait_fe (f : MemReq → MemReq) : (s.updMemWait f).fe = s.fe := rfl
@[simp] theorem State.updMemWait_gs (f : MemReq → MemReq) : (s.updMemWait f).gs = s.gs := rfl
@[simp] theorem State.updMemWait_sy (f : MemReq → MemReq) : (s.updMemWait f).sy = s.sy := rfl
@[simp] theorem State.updMemWait_rs (f : MemReq → MemReq) : (s.updMemWait f).rs = s.rs := rfl
@[simp] theorem State.updMemWait_tb (f : MemReq → MemReq) : (s.updMemWait f).tb = s.tb := rfl
@[simp] theorem State.updMemWait_li (f : MemReq → MemReq) : (s.updMemWait f).li = s.li := rfl
@[simp] theorem State.updMemWait_fc (f : MemReq → MemReq) : (s.updMemWait f).fc = s.fc := rfl
@[simp] theorem State.updMemWait_st (f : MemReq → MemReq) : (s.updMemWait f).st = s.st := rfl
@[simp] theorem State.updMemWait_ob (f : MemReq → MemReq) : (s.updMemWait f).ob = s.ob := rfl
@[simp] theorem State.updMemWait_sv (f : MemReq → MemReq) : (s.updMemWait f).sv = s.sv := rfl
@[simp] theorem State.updMemWait_out (f : MemReq → MemReq) : (s.updMemWait f).out = s.out := rfl

/-! ### cutMade -/

@[simp] theorem State.cutMade_pending (c : StopState) : (s.cutMade c).pending = s.pending := rfl
@[simp] theorem State.cutMade_now (c : StopState) : (s.cutMade c).now = s.now := rfl
@[simp] theorem State.cutMade_regs (c : StopState) : (s.cutMade c).regs = s.regs := rfl
@[simp] theorem State.cutMade_mem (c : StopState) : (s.cutMade c).mem = s.mem := rfl
@[simp] theorem State.cutMade_poison (c : StopState) : (s.cutMade c).poison = s.poison := rfl
@[simp] theorem State.cutMade_mmu (c : StopState) : (s.cutMade c).mmu = s.mmu := rfl
@[simp] theorem State.cutMade_latches (c : StopState) : (s.cutMade c).latches = s.latches := rfl
@[simp] theorem State.cutMade_fe (c : StopState) : (s.cutMade c).fe = s.fe := rfl
@[simp] theorem State.cutMade_gs (c : StopState) : (s.cutMade c).gs = s.gs := rfl
@[simp] theorem State.cutMade_dl (c : StopState) : (s.cutMade c).dl = s.dl := rfl
@[simp] theorem State.cutMade_sy (c : StopState) : (s.cutMade c).sy = s.sy := rfl
@[simp] theorem State.cutMade_rs (c : StopState) : (s.cutMade c).rs = s.rs := rfl
@[simp] theorem State.cutMade_tb (c : StopState) : (s.cutMade c).tb = s.tb := rfl
@[simp] theorem State.cutMade_li (c : StopState) : (s.cutMade c).li = s.li := rfl
@[simp] theorem State.cutMade_fc (c : StopState) : (s.cutMade c).fc = s.fc := rfl
@[simp] theorem State.cutMade_st (c : StopState) : (s.cutMade c).st = s.st := rfl
@[simp] theorem State.cutMade_sv (c : StopState) : (s.cutMade c).sv = s.sv := rfl
@[simp] theorem State.cutMade_out (c : StopState) : (s.cutMade c).out = s.out := rfl

/-! ### setGated -/

@[simp] theorem State.setGated_pending (u : Nat) (b : Bool) : (s.setGated u b).pending = s.pending := rfl
@[simp] theorem State.setGated_now (u : Nat) (b : Bool) : (s.setGated u b).now = s.now := rfl
@[simp] theorem State.setGated_mem (u : Nat) (b : Bool) : (s.setGated u b).mem = s.mem := rfl
@[simp] theorem State.setGated_poison (u : Nat) (b : Bool) : (s.setGated u b).poison = s.poison := rfl
@[simp] theorem State.setGated_mmu (u : Nat) (b : Bool) : (s.setGated u b).mmu = s.mmu := rfl
@[simp] theorem State.setGated_latches (u : Nat) (b : Bool) : (s.setGated u b).latches = s.latches := rfl
@[simp] theorem State.setGated_fe (u : Nat) (b : Bool) : (s.setGated u b).fe = s.fe := rfl
@[simp] theorem State.setGated_gs (u : Nat) (b : Bool) : (s.setGated u b).gs = s.gs := rfl
@[simp] theorem State.setGated_dl (u : Nat) (b : Bool) : (s.setGated u b).dl = s.dl := rfl
@[simp] theorem State.setGated_sy (u : Nat) (b : Bool) : (s.setGated u b).sy = s.sy := rfl
@[simp] theorem State.setGated_rs (u : Nat) (b : Bool) : (s.setGated u b).rs = s.rs := rfl
@[simp] theorem State.setGated_tb (u : Nat) (b : Bool) : (s.setGated u b).tb = s.tb := rfl
@[simp] theorem State.setGated_li (u : Nat) (b : Bool) : (s.setGated u b).li = s.li := rfl
@[simp] theorem State.setGated_fc (u : Nat) (b : Bool) : (s.setGated u b).fc = s.fc := rfl
@[simp] theorem State.setGated_st (u : Nat) (b : Bool) : (s.setGated u b).st = s.st := rfl
@[simp] theorem State.setGated_ob (u : Nat) (b : Bool) : (s.setGated u b).ob = s.ob := rfl
@[simp] theorem State.setGated_sv (u : Nat) (b : Bool) : (s.setGated u b).sv = s.sv := rfl
@[simp] theorem State.setGated_out (u : Nat) (b : Bool) : (s.setGated u b).out = s.out := rfl

/-! ### setHalves -/

@[simp] theorem State.setHalves_pending (w : Requester) (l : Latch) : (s.setHalves w l).pending = s.pending := rfl
@[simp] theorem State.setHalves_now (w : Requester) (l : Latch) : (s.setHalves w l).now = s.now := rfl
@[simp] theorem State.setHalves_regs (w : Requester) (l : Latch) : (s.setHalves w l).regs = s.regs := rfl
@[simp] theorem State.setHalves_mem (w : Requester) (l : Latch) : (s.setHalves w l).mem = s.mem := rfl
@[simp] theorem State.setHalves_poison (w : Requester) (l : Latch) : (s.setHalves w l).poison = s.poison := rfl
@[simp] theorem State.setHalves_mmu (w : Requester) (l : Latch) : (s.setHalves w l).mmu = s.mmu := rfl
@[simp] theorem State.setHalves_fe (w : Requester) (l : Latch) : (s.setHalves w l).fe = s.fe := rfl
@[simp] theorem State.setHalves_gs (w : Requester) (l : Latch) : (s.setHalves w l).gs = s.gs := rfl
@[simp] theorem State.setHalves_dl (w : Requester) (l : Latch) : (s.setHalves w l).dl = s.dl := rfl
@[simp] theorem State.setHalves_sy (w : Requester) (l : Latch) : (s.setHalves w l).sy = s.sy := rfl
@[simp] theorem State.setHalves_rs (w : Requester) (l : Latch) : (s.setHalves w l).rs = s.rs := rfl
@[simp] theorem State.setHalves_tb (w : Requester) (l : Latch) : (s.setHalves w l).tb = s.tb := rfl
@[simp] theorem State.setHalves_li (w : Requester) (l : Latch) : (s.setHalves w l).li = s.li := rfl
@[simp] theorem State.setHalves_fc (w : Requester) (l : Latch) : (s.setHalves w l).fc = s.fc := rfl
@[simp] theorem State.setHalves_st (w : Requester) (l : Latch) : (s.setHalves w l).st = s.st := rfl
@[simp] theorem State.setHalves_ob (w : Requester) (l : Latch) : (s.setHalves w l).ob = s.ob := rfl
@[simp] theorem State.setHalves_sv (w : Requester) (l : Latch) : (s.setHalves w l).sv = s.sv := rfl
@[simp] theorem State.setHalves_out (w : Requester) (l : Latch) : (s.setHalves w l).out = s.out := rfl

/-! ### clearRq -/

@[simp] theorem State.clearRq_pending  : (s.clearRq ).pending = s.pending := rfl
@[simp] theorem State.clearRq_now  : (s.clearRq ).now = s.now := rfl
@[simp] theorem State.clearRq_regs  : (s.clearRq ).regs = s.regs := rfl
@[simp] theorem State.clearRq_mem  : (s.clearRq ).mem = s.mem := rfl
@[simp] theorem State.clearRq_poison  : (s.clearRq ).poison = s.poison := rfl
@[simp] theorem State.clearRq_mmu  : (s.clearRq ).mmu = s.mmu := rfl
@[simp] theorem State.clearRq_latches  : (s.clearRq ).latches = s.latches := rfl
@[simp] theorem State.clearRq_gs  : (s.clearRq ).gs = s.gs := rfl
@[simp] theorem State.clearRq_dl  : (s.clearRq ).dl = s.dl := rfl
@[simp] theorem State.clearRq_sy  : (s.clearRq ).sy = s.sy := rfl
@[simp] theorem State.clearRq_rs  : (s.clearRq ).rs = s.rs := rfl
@[simp] theorem State.clearRq_tb  : (s.clearRq ).tb = s.tb := rfl
@[simp] theorem State.clearRq_li  : (s.clearRq ).li = s.li := rfl
@[simp] theorem State.clearRq_fc  : (s.clearRq ).fc = s.fc := rfl
@[simp] theorem State.clearRq_st  : (s.clearRq ).st = s.st := rfl
@[simp] theorem State.clearRq_ob  : (s.clearRq ).ob = s.ob := rfl
@[simp] theorem State.clearRq_sv  : (s.clearRq ).sv = s.sv := rfl
@[simp] theorem State.clearRq_out  : (s.clearRq ).out = s.out := rfl

/-! ### poisonLines -/

@[simp] theorem State.poisonLines_pending (l : List Nat) : (s.poisonLines l).pending = s.pending := rfl
@[simp] theorem State.poisonLines_now (l : List Nat) : (s.poisonLines l).now = s.now := rfl
@[simp] theorem State.poisonLines_regs (l : List Nat) : (s.poisonLines l).regs = s.regs := rfl
@[simp] theorem State.poisonLines_mem (l : List Nat) : (s.poisonLines l).mem = s.mem := rfl
@[simp] theorem State.poisonLines_mmu (l : List Nat) : (s.poisonLines l).mmu = s.mmu := rfl
@[simp] theorem State.poisonLines_latches (l : List Nat) : (s.poisonLines l).latches = s.latches := rfl
@[simp] theorem State.poisonLines_fe (l : List Nat) : (s.poisonLines l).fe = s.fe := rfl
@[simp] theorem State.poisonLines_gs (l : List Nat) : (s.poisonLines l).gs = s.gs := rfl
@[simp] theorem State.poisonLines_dl (l : List Nat) : (s.poisonLines l).dl = s.dl := rfl
@[simp] theorem State.poisonLines_sy (l : List Nat) : (s.poisonLines l).sy = s.sy := rfl
@[simp] theorem State.poisonLines_rs (l : List Nat) : (s.poisonLines l).rs = s.rs := rfl
@[simp] theorem State.poisonLines_tb (l : List Nat) : (s.poisonLines l).tb = s.tb := rfl
@[simp] theorem State.poisonLines_li (l : List Nat) : (s.poisonLines l).li = s.li := rfl
@[simp] theorem State.poisonLines_fc (l : List Nat) : (s.poisonLines l).fc = s.fc := rfl
@[simp] theorem State.poisonLines_st (l : List Nat) : (s.poisonLines l).st = s.st := rfl
@[simp] theorem State.poisonLines_ob (l : List Nat) : (s.poisonLines l).ob = s.ob := rfl
@[simp] theorem State.poisonLines_sv (l : List Nat) : (s.poisonLines l).sv = s.sv := rfl
@[simp] theorem State.poisonLines_out (l : List Nat) : (s.poisonLines l).out = s.out := rfl

/-! ### emit -/

@[simp] theorem State.emit_pending (x : Out) : (s.emit x).pending = s.pending := rfl
@[simp] theorem State.emit_now (x : Out) : (s.emit x).now = s.now := rfl
@[simp] theorem State.emit_regs (x : Out) : (s.emit x).regs = s.regs := rfl
@[simp] theorem State.emit_mem (x : Out) : (s.emit x).mem = s.mem := rfl
@[simp] theorem State.emit_poison (x : Out) : (s.emit x).poison = s.poison := rfl
@[simp] theorem State.emit_mmu (x : Out) : (s.emit x).mmu = s.mmu := rfl
@[simp] theorem State.emit_latches (x : Out) : (s.emit x).latches = s.latches := rfl
@[simp] theorem State.emit_fe (x : Out) : (s.emit x).fe = s.fe := rfl
@[simp] theorem State.emit_gs (x : Out) : (s.emit x).gs = s.gs := rfl
@[simp] theorem State.emit_dl (x : Out) : (s.emit x).dl = s.dl := rfl
@[simp] theorem State.emit_sy (x : Out) : (s.emit x).sy = s.sy := rfl
@[simp] theorem State.emit_rs (x : Out) : (s.emit x).rs = s.rs := rfl
@[simp] theorem State.emit_tb (x : Out) : (s.emit x).tb = s.tb := rfl
@[simp] theorem State.emit_li (x : Out) : (s.emit x).li = s.li := rfl
@[simp] theorem State.emit_fc (x : Out) : (s.emit x).fc = s.fc := rfl
@[simp] theorem State.emit_st (x : Out) : (s.emit x).st = s.st := rfl
@[simp] theorem State.emit_ob (x : Out) : (s.emit x).ob = s.ob := rfl
@[simp] theorem State.emit_sv (x : Out) : (s.emit x).sv = s.sv := rfl

/-! ### Reading what was written -/

variable {s}

theorem State.setNode_same (h : tsorted 0 s.gs.nodes) (k : Nat) (n : Node) : (s.setNode k n).node k = n := tget_tput_same h _ _
theorem State.setNode_other (h : tsorted 0 s.gs.nodes) (k : Nat) (n : Node) {j : Nat} (hj : j ≠ k) : (s.setNode k n).node j = s.node j := tget_tput_ne h hj _
theorem State.updNode_same (h : tsorted 0 s.gs.nodes) (k : Nat) (f : Node → Node) : (s.updNode k f).node k = f (s.node k) := tget_tput_same h _ _
theorem State.updNode_other (h : tsorted 0 s.gs.nodes) (k : Nat) (f : Node → Node) {j : Nat} (hj : j ≠ k) : (s.updNode k f).node j = s.node j := tget_tput_ne h hj _
theorem State.setEdge_same (h : tsorted 0 s.gs.edges) (k : Nat) (v : BitVec 32) : (s.setEdge k v).edge k = v := tget_tput_same h _ _
theorem State.setEdge_other (h : tsorted 0 s.gs.edges) (k : Nat) (v : BitVec 32) {j : Nat} (hj : j ≠ k) : (s.setEdge k v).edge j = s.edge j := tget_tput_ne h hj _
theorem State.updCtx_same (h : tsorted 0 s.gs.ctxs) (k : Nat) (f : Ctx → Ctx) : (s.updCtx k f).ctx k = f (s.ctx k) := tget_tput_same h _ _
theorem State.updCtx_other (h : tsorted 0 s.gs.ctxs) (k : Nat) (f : Ctx → Ctx) {j : Nat} (hj : j ≠ k) : (s.updCtx k f).ctx j = s.ctx j := tget_tput_ne h hj _
theorem State.updSlot_same (h : tsorted 0 s.fe.slots) (k : Nat) (f : Slot → Slot) : (s.updSlot k f).slot k = f (s.slot k) := tget_tput_same h _ _
theorem State.updSlot_other (h : tsorted 0 s.fe.slots) (k : Nat) (f : Slot → Slot) {j : Nat} (hj : j ≠ k) : (s.updSlot k f).slot j = s.slot j := tget_tput_ne h hj _
theorem State.updEng_same (h : tsorted 0 s.dl.engines) (k : Nat) (f : Engine → Engine) : (s.updEng k f).eng k = f (s.eng k) := tget_tput_same h _ _
theorem State.updEng_other (h : tsorted 0 s.dl.engines) (k : Nat) (f : Engine → Engine) {j : Nat} (hj : j ≠ k) : (s.updEng k f).eng j = s.eng j := tget_tput_ne h hj _
theorem State.updDealer_same (h : tsorted 0 s.dl.dealers) (k : Nat) (f : Dealer → Dealer) : (s.updDealer k f).dealer k = f (s.dealer k) := tget_tput_same h _ _
theorem State.updDealer_other (h : tsorted 0 s.dl.dealers) (k : Nat) (f : Dealer → Dealer) {j : Nat} (hj : j ≠ k) : (s.updDealer k f).dealer j = s.dealer j := tget_tput_ne h hj _
theorem State.updPod_same (h : tsorted 0 s.dl.pods) (k : Nat) (f : Pod → Pod) : (s.updPod k f).pod k = f (s.pod k) := tget_tput_same h _ _
theorem State.updPod_other (h : tsorted 0 s.dl.pods) (k : Nat) (f : Pod → Pod) {j : Nat} (hj : j ≠ k) : (s.updPod k f).pod j = s.pod j := tget_tput_ne h hj _
theorem State.setObj_same (h : tsorted 0 s.sy.objs) (k : Nat) (x : SyncObj) : (s.setObj k x).obj k = x := tget_tput_same h _ _
theorem State.setObj_other (h : tsorted 0 s.sy.objs) (k : Nat) (x : SyncObj) {j : Nat} (hj : j ≠ k) : (s.setObj k x).obj j = s.obj j := tget_tput_ne h hj _
theorem State.updObj_same (h : tsorted 0 s.sy.objs) (k : Nat) (f : SyncObj → SyncObj) : (s.updObj k f).obj k = f (s.obj k) := tget_tput_same h _ _
theorem State.updObj_other (h : tsorted 0 s.sy.objs) (k : Nat) (f : SyncObj → SyncObj) {j : Nat} (hj : j ≠ k) : (s.updObj k f).obj j = s.obj j := tget_tput_ne h hj _
theorem State.updSeq_same (h : tsorted 0 s.rs.seqs) (k : Nat) (f : SeqEnt → SeqEnt) : (s.updSeq k f).seqEnt k = f (s.seqEnt k) := tget_tput_same h _ _
theorem State.updSeq_other (h : tsorted 0 s.rs.seqs) (k : Nat) (f : SeqEnt → SeqEnt) {j : Nat} (hj : j ≠ k) : (s.updSeq k f).seqEnt j = s.seqEnt j := tget_tput_ne h hj _
theorem State.updRos_same (h : tsorted 0 s.rs.ros) (k : Nat) (f : Ros → Ros) : (s.updRos k f).ros k = f (s.ros k) := tget_tput_same h _ _
theorem State.updRos_other (h : tsorted 0 s.rs.ros) (k : Nat) (f : Ros → Ros) {j : Nat} (hj : j ≠ k) : (s.updRos k f).ros j = s.ros j := tget_tput_ne h hj _
theorem State.updPort_same (h : tsorted 0 s.li.ports) (k : Nat) (f : Port → Port) : (s.updPort k f).port k = f (s.port k) := tget_tput_same h _ _
theorem State.updPort_other (h : tsorted 0 s.li.ports) (k : Nat) (f : Port → Port) {j : Nat} (hj : j ≠ k) : (s.updPort k f).port j = s.port j := tget_tput_ne h hj _
theorem State.updLanding_same (h : tsorted 0 s.li.landings) (k : Nat) (f : Landing → Landing) : (s.updLanding k f).landing k = f (s.landing k) := tget_tput_same h _ _
theorem State.updLanding_other (h : tsorted 0 s.li.landings) (k : Nat) (f : Landing → Landing) {j : Nat} (hj : j ≠ k) : (s.updLanding k f).landing j = s.landing j := tget_tput_ne h hj _
theorem State.updCall_same (h : tsorted 0 s.li.calls) (k : Nat) (f : CallSlot → CallSlot) : (s.updCall k f).callSlot k = f (s.callSlot k) := tget_tput_same h _ _
theorem State.updCall_other (h : tsorted 0 s.li.calls) (k : Nat) (f : CallSlot → CallSlot) {j : Nat} (hj : j ≠ k) : (s.updCall k f).callSlot j = s.callSlot j := tget_tput_ne h hj _
theorem State.updCore_same (h : tsorted 0 s.sv.cores) (k : Nat) (f : Core → Core) : (s.updCore k f).core k = f (s.core k) := tget_tput_same h _ _
theorem State.updCore_other (h : tsorted 0 s.sv.cores) (k : Nat) (f : Core → Core) {j : Nat} (hj : j ≠ k) : (s.updCore k f).core j = s.core j := tget_tput_ne h hj _
theorem State.updClock_same (h : tsorted 0 s.fc.clocks) (k : Nat) (f : Clock → Clock) : (s.updClock k f).clock k = f (s.clock k) := tget_tput_same h _ _
theorem State.updClock_other (h : tsorted 0 s.fc.clocks) (k : Nat) (f : Clock → Clock) {j : Nat} (hj : j ≠ k) : (s.updClock k f).clock j = s.clock j := tget_tput_ne h hj _
theorem State.updSupply_same (h : tsorted 0 s.fc.supply) (k : Nat) (f : Supply → Supply) : (s.updSupply k f).supply k = f (s.supply k) := tget_tput_same h _ _
theorem State.updSupply_other (h : tsorted 0 s.fc.supply) (k : Nat) (f : Supply → Supply) {j : Nat} (hj : j ≠ k) : (s.updSupply k f).supply j = s.supply j := tget_tput_ne h hj _

theorem State.reg_setReg (h : tsorted 0 s.regs) (r : Reg) (v : BitVec 64) : (s.setReg r v).reg r = v := tget_tput_same h _ _
theorem State.reg_setReg_other (h : tsorted 0 s.regs) {r x : Reg} (hx : x.off ≠ r.off) (v : BitVec 64) :
    (s.setReg r v).reg x = s.reg x := tget_tput_ne h hx _

theorem State.cmd_setCmd (n q : Nat) (c : Cmd) : (s.setCmd n q c).cmd n q = some c := tfind_tinsert_same _ _ _

end Sys2Proof.Machine
end

