-- ==== Sys2Proof/Laws/Access.lean ====
section
/-! SUPPORT. What a whole access of a named register comes to once nothing holds it. -/
namespace Sys2Proof.Machine

/-- Every register lies at a multiple of its width. -/
theorem Reg.off_aligned (r : Reg) : r.off % 4 = 0 ∧ (r.row.wide = true → r.off % 8 = 0) := by
  have key : ∀ n : RegName, (regRow n).base % 4 = 0 ∧ (regRow n).stride % 4 = 0 ∧ (regRow n).stride2 % 4 = 0 ∧
      ((regRow n).wide = true → (regRow n).base % 8 = 0 ∧ (regRow n).stride % 8 = 0 ∧ (regRow n).stride2 % 8 = 0) := by
    intro n; cases n <;> decide
  obtain ⟨h1, h2, h3, h4⟩ := key r.name
  have a4 : ∀ i k : Nat, k % 4 = 0 → i * k % 4 = 0 := fun i k h => by rw [Nat.mul_mod, h, Nat.mul_zero, Nat.zero_mod]
  have a8 : ∀ i k : Nat, k % 8 = 0 → i * k % 8 = 0 := fun i k h => by rw [Nat.mul_mod, h, Nat.mul_zero, Nat.zero_mod]
  unfold Reg.off Reg.row
  refine ⟨?_, fun hw => ?_⟩
  · have := a4 r.i _ h2; have := a4 r.j _ h3; omega
  · obtain ⟨b1, b2, b3⟩ := h4 hw
    have := a8 r.i _ b2; have := a8 r.j _ b3; omega

/-- BAR0 lies below BAR2. -/
theorem Reg.off_lt {r : Reg} (h : r.valid = true) : r.off + 4 < bar2 := by
  have key : ∀ n : RegName, (regRow n).base + (regRow n).count * (regRow n).stride + (regRow n).count2 * (regRow n).stride2 + 4 < bar2 := by
    intro n; cases n <;> decide
  have := key r.name
  simp only [Reg.valid, Bool.and_eq_true, decide_eq_true_eq] at h
  have a := Nat.mul_le_mul_right r.row.stride (Nat.le_of_lt h.1)
  have b := Nat.mul_le_mul_right r.row.stride2 (Nat.le_of_lt h.2)
  simp only [Reg.row] at a b
  unfold Reg.off Reg.row
  omega

theorem target_lt {off : Nat} {wide : Bool} {r : Reg} {x : Part32} (h : target off wide = some (r, x)) : off < bar2 := by
  have whole : ∀ y, regAt off = some y → off < bar2 := fun y e => by obtain ⟨a, rfl⟩ := regAt_some e; have := y.off_lt a; omega
  unfold target at h
  split at h
  · split at h
    · exact whole _ ‹_›
    · cases h
  split at h
  · cases h
  split at h
  · exact whole _ ‹_›
  split at h
  · rename_i y e
    obtain ⟨a, b⟩ := regAt_some e
    have := y.off_lt a
    omega
  · cases h

/-- A whole access of a register reaches it. -/
theorem target_off {r : Reg} (h : r.valid = true) : target r.off r.row.wide = some (r, .whole) := by
  obtain ⟨h4, h8⟩ := r.off_aligned
  unfold target
  cases hw : r.row.wide
  · simp [h4, regAt_off h, hw]
  · simp [h8 hw, regAt_off h, hw]

theorem accessWrite_off {s : State} {r : Reg} (hv : r.valid = true) (hr : s.ready = true) (ha : r.name ≠ .aperture)
    (hg : s.unitGated r = false) (who : Requester) (v : BitVec 64) :
    s.accessWrite who r.off r.row.wide v = (s.wakeFor r).writeReg who r v := by
  simp [State.accessWrite, target_off hv, hr, ha, hg]

/-- A write that nothing holds is carried out on the state that `admits` names. -/
theorem regIn_admits {s w : State} {r : Reg} (h : s.admits r w) (hv : r.valid = true) (ha : r.name ≠ .aperture)
    (who : Requester) (v : BitVec 64) : s.regIn who r v = (w.writeReg who r v).flushSnap := by
  obtain ⟨hr, hl, hs, -, hg, rfl⟩ := h
  simp [State.regIn, State.admitWrite, State.snapHolds, State.arrive, State.inputsWait, hl, hs, State.process, State.applyHeld,
    accessWrite_off hv hr ha hg]

theorem flushSnap_nil {s : State} (h : s.ob.snapHeld = []) : s.flushSnap = s := by simp [State.flushSnap, h]

@[simp] theorem State.wake_ob (s : State) (u : Nat) : (s.wake u).ob = s.ob := by
  unfold State.wake; split <;> simp [State.setGated]

@[simp] theorem State.wakeFor_ob (s : State) (r : Reg) : (s.wakeFor r).ob = s.ob := by
  unfold State.wakeFor; split <;> simp

@[simp] theorem State.msixNow_ob (s : State) (v : Nat) : (s.msixNow v).ob = s.ob := by unfold State.msixNow; split <;> rfl

@[simp] theorem State.vector_ob (s : State) (v : Nat) : (s.vector v).ob = s.ob := by
  unfold State.vector; dsimp only; split <;> simp

@[simp] theorem State.report_ob (s : State) (p : Packet) : (s.report p).ob = s.ob := by
  unfold State.report; dsimp only; split <;> rfl

@[simp] theorem State.plainWrite_ob (s : State) (r : Reg) (v : BitVec 64) : (s.plainWrite r v).ob = s.ob := rfl

@[simp] theorem State.rqFlag_ob (s : State) (b : Nat) : (s.rqFlag b).ob = s.ob := rfl

@[simp] theorem State.highFlag_ob (s : State) : s.highFlag.ob = s.ob := by
  unfold State.highFlag; split
  · dsimp only; split <;> simp
  · rfl

@[simp] theorem State.rqReset_ob (s : State) : s.rqReset.ob = s.ob := by
  have : s.clearRq.ob = s.ob := rfl
  unfold State.rqReset; simp [this]

@[simp] theorem State.highCheck_ob (s : State) : s.highCheck.ob = s.ob := by
  unfold State.highCheck; split <;> simp

theorem State.admits.held {s w : State} {r : Reg} (h : s.admits r w) : w.ob.snapHeld = [] := by
  obtain ⟨_, _, _, h, _, rfl⟩ := h; simpa using h

/-- A fold keeps what each of its changes keeps. -/
theorem State.each_keeps {α β : Type} (g : State → β) (s : State) (l : List α) (f : State → α → State) (h : ∀ t a, g (f t a) = g t) :
    g (s.each l f) = g s := by
  unfold State.each
  induction l generalizing s with
  | nil => rfl
  | cons a l ih => rw [List.foldl_cons, ih, h]

theorem State.each_ob {α : Type} (s : State) (l : List α) (f : State → α → State) (h : ∀ t a, (f t a).ob = t.ob) :
    (s.each l f).ob = s.ob := State.each_keeps State.ob s l f h

theorem regIn_admitsStop {s w : State} {r : Reg} (h : s.admitsStop r w) (hv : r.valid = true) (ha : r.name ≠ .aperture)
    (hw : r.off / 0x10000 = 8 ∨ r.off / 0x10000 = 0xB) (who : Requester) (v : BitVec 64) :
    s.regIn who r v = (w.writeReg who r v).flushSnap := by
  obtain ⟨hr, hi, -, hg, rfl⟩ := h
  have : s.snapHolds r.off = false := by simp only [State.snapHolds]; rcases hw with q | q <;> simp [q]
  simp [State.regIn, State.admitWrite, this, State.arrive, hi, State.process, State.applyHeld, accessWrite_off hv hr ha hg]

theorem State.admitsStop.held {s w : State} {r : Reg} (h : s.admitsStop r w) : w.ob.snapHeld = [] := by
  obtain ⟨_, _, h, _, rfl⟩ := h; simpa using h

theorem State.admitsStop.stop {s w : State} {r : Reg} (h : s.admitsStop r w) : w.ob.stop = s.ob.stop := by
  obtain ⟨_, _, _, _, rfl⟩ := h; simp

/-- A read that no tick holds is made at once. -/
theorem viaHost_now {s : State} {sp a : Nat} (h : s.atOnce (some (sp, a)) = true) (i : Instr) (f : State → State) :
    s.viaHost sp a i f = f s := by
  unfold State.viaHost; rw [if_pos]; rintro ⟨a, -, b⟩; simp [State.atOnce, a, b] at h

theorem viaHostAt_now {s : State} {w : Option (Nat × Nat)} (h : s.atOnce w = true) (i : Instr) (f : State → State) :
    s.viaHostAt w i f = f s := by
  unfold State.viaHostAt; split
  · rfl
  · exact viaHost_now h i f

/-- A hub that does not run makes no read. -/
theorem viaHost_off {s : State} (h : s.hubOn = false) (sp a : Nat) (i : Instr) (f : State → State) : s.viaHost sp a i f = f s := by
  unfold State.viaHost; rw [if_pos]; rintro ⟨-, b, -⟩; rw [h] at b; cases b

theorem viaHostAt_off {s : State} (h : s.hubOn = false) (w : Option (Nat × Nat)) (i : Instr) (f : State → State) : s.viaHostAt w i f = f s := by
  unfold State.viaHostAt; split
  · rfl
  · exact viaHost_off h _ _ i f

/-- A read of host memory in LOCKSTEP waits among the inputs, once. -/
theorem viaHostAt_held {s : State} {w : Option (Nat × Nat)} (h : s.atOnce w = false) (ho : s.hubOn = true) {i : Instr} (hi : Held.completion i ∉ s.ob.inputs)
    (f : State → State) : s.viaHostAt w i f = s.holdInput (.completion i) := by
  unfold State.viaHostAt; split
  · simp [State.atOnce] at h
  · unfold State.viaHost; rw [if_neg (by simpa [State.atOnce, ho] using h), if_neg hi]

theorem viaHost_held {s : State} {sp a : Nat} (h : s.atOnce (some (sp, a)) = false) (ho : s.hubOn = true) {i : Instr} (hi : Held.completion i ∉ s.ob.inputs)
    (f : State → State) : s.viaHost sp a i f = s.holdInput (.completion i) := viaHostAt_held (w := some (sp, a)) h ho hi f

/-- Taking a descriptor that nothing refuses. -/
theorem takeDesc_heads {s : State} {n op : Nat} {d : RingDesc} (h : s.heads n op d) (f : State → RingDesc → Nat → State) :
    s.takeDesc n op f = (f (if op = 2 then s.popHead n else s.taken n d) d (s.slot n).nextSeq.toNat).settleHead n := by
  obtain ⟨e, rest, bs, h1, h2, rfl, h4, h5, h6, h7⟩ := h
  simp only [State.live, Bool.and_eq_true] at h6
  unfold State.takeDesc
  simp [h1, h2, h4, h5, h6.1, h6.2, h7, State.taken]

end Sys2Proof.Machine
end

