-- ==== Sys2Proof/Laws/Bits.lean ====
section
/-! SUPPORT. Reading back a bit or a field of a register value that was set. -/
namespace Sys2Proof.Machine

theorem getLsbD_setBits {n : Nat} (v : BitVec n) (lo w f i : Nat) (hi : i < n) :
    (setBits v lo w f).getLsbD i = if lo ≤ i ∧ i < lo + w then f.testBit (i - lo) else v.getLsbD i := by
  unfold setBits
  dsimp only
  simp only [BitVec.getLsbD_or, BitVec.getLsbD_and, BitVec.getLsbD_not, BitVec.getLsbD_ofNat, hi, decide_true, Bool.true_and]
  rw [Nat.testBit_mul_two_pow, Nat.testBit_mul_two_pow, Nat.testBit_two_pow_sub_one, Nat.testBit_mod_two_pow]
  by_cases h1 : lo ≤ i
  · by_cases h2 : i < lo + w
    · have : i - lo < w := by omega
      simp [h1, h2, this]
    · have : ¬ i - lo < w := by omega
      simp [h2, this]
  · simp [h1]

theorem bit_setBit {n : Nat} (v : BitVec n) (i j : Nat) (b : Bool) (hi : i < n) :
    bit (setBit v i b) j = if j = i then b else bit v j := by
  unfold bit setBit
  by_cases hj : j < n
  · rw [getLsbD_setBits v i 1 _ j hj]
    by_cases h : j = i
    · subst h; cases b <;> simp
    · rw [if_neg (by omega), if_neg h]
  · rw [BitVec.getLsbD_of_ge _ _ (by omega), BitVec.getLsbD_of_ge _ _ (by omega), if_neg (by omega)]

theorem bit_setBit_self {n : Nat} (v : BitVec n) (i : Nat) (b : Bool) (hi : i < n) : bit (setBit v i b) i = b := by
  rw [bit_setBit v i i b hi, if_pos rfl]

theorem testBit_bits {n : Nat} (v : BitVec n) (lo w i : Nat) : (bits v lo w).testBit i = (decide (i < w) && v.getLsbD (lo + i)) := by
  unfold bits nbits
  rw [Nat.testBit_mod_two_pow, Nat.testBit_div_two_pow, Nat.add_comm i lo]
  rfl

/-- A field that was set reads back. -/
theorem bits_setBits {n : Nat} (v : BitVec n) (lo w f : Nat) (h : lo + w ≤ n) : bits (setBits v lo w f) lo w = f % 2 ^ w := by
  apply Nat.eq_of_testBit_eq
  intro i
  rw [testBit_bits, Nat.testBit_mod_two_pow]
  by_cases hi : i < w
  · rw [getLsbD_setBits v lo w f (lo + i) (by omega), if_pos (by omega), Nat.add_sub_cancel_left]
  · simp [hi]

/-- A field beside the one that was set keeps its value. -/
theorem bits_setBits_apart {n : Nat} (v : BitVec n) (lo w f lo' w' : Nat) (h : lo' + w' ≤ lo ∨ lo + w ≤ lo') :
    bits (setBits v lo w f) lo' w' = bits v lo' w' := by
  apply Nat.eq_of_testBit_eq
  intro i
  rw [testBit_bits, testBit_bits]
  by_cases hi : i < w'
  · by_cases hn : lo' + i < n
    · rw [getLsbD_setBits v lo w f (lo' + i) hn, if_neg (by omega)]
    · rw [BitVec.getLsbD_of_ge _ _ (by omega), BitVec.getLsbD_of_ge _ _ (by omega)]
  · simp [hi]

theorem bits_setBit_apart {n : Nat} (v : BitVec n) (i : Nat) (b : Bool) (lo w : Nat) (h : lo + w ≤ i ∨ i < lo) :
    bits (setBit v i b) lo w = bits v lo w := bits_setBits_apart v i 1 _ lo w (by omega)

end Sys2Proof.Machine
end

