-- ==== Sys2Proof/Laws/Memory.lean ====
section
/-! SUPPORT. External memory: a store keeps the canonical form, is read back where it went, and leaves every other byte alone. -/
namespace Sys2Proof.Machine

/-- The physical addresses of a write are those of its bytes, in order. -/
theorem physAll_get {s : State} {sp : Nat} : ∀ {n a : Nat} {ps : List Nat}, s.physAll sp a n = some ps →
    ps.length = n ∧ ∀ i, i < n → ∃ p, ps[i]? = some p ∧ s.phys sp (a + i) = some p := by
  intro n
  induction n with
  | zero => intro a ps h; cases h; exact ⟨rfl, fun i hi => absurd hi (by omega)⟩
  | succ n ih =>
    intro a ps h
    unfold State.physAll at h
    cases hp : s.phys sp a with
    | none => rw [hp] at h; cases h
    | some p =>
      rw [hp] at h
      simp only [Option.map_eq_some_iff] at h
      obtain ⟨l, hl, rfl⟩ := h
      obtain ⟨e, f⟩ := ih hl
      refine ⟨by simp [e], fun i hi => ?_⟩
      cases i with
      | zero => exact ⟨p, rfl, hp⟩
      | succ i =>
        obtain ⟨q, h1, h2⟩ := f i (by omega)
        exact ⟨q, by simpa using h1, by rw [show a + (i + 1) = a + 1 + i by omega]; exact h2⟩

/-- Storing bytes keeps memory canonical. -/
theorem pokes_wf : ∀ (l : List (Nat × Byte)) {m : List Host.Cell}, twf 0 m = true → twf 0 (pokes m l) = true
  | [], _, h => h
  | x :: l, m, h => pokes_wf l (twf_tput h x.1 x.2)

/-- A byte that is not stored to reads as before. -/
theorem pokes_out {p : Nat} : ∀ (l : List (Nat × Byte)) {m : List Host.Cell}, twf 0 m = true → (∀ x, x ∈ l → x.1 ≠ p) →
    tget 0 (pokes m l) p = tget 0 m p
  | [], _, _, _ => rfl
  | x :: l, m, h, hx => by
    show tget 0 (pokes (tput 0 m x.1 x.2) l) p = _
    rw [pokes_out l (twf_tput h x.1 x.2) (fun y hy => hx y (List.mem_cons_of_mem _ hy)),
      tget_tput_ne (tsorted_of_twf h) (fun e => hx x (List.mem_cons_self ..) e.symm)]

/-- A byte stored to once reads as what was stored. -/
theorem pokes_in {p : Nat} {b : Byte} : ∀ (l : List (Nat × Byte)) {m : List Host.Cell}, twf 0 m = true →
    (∃ i : Nat, l[i]? = some (p, b) ∧ ∀ j : Nat, ∀ c, l[j]? = some (p, c) → j = i) → tget 0 (pokes m l) p = b
  | [], _, _, ⟨i, h, _⟩ => by simp at h
  | x :: l, m, h, ⟨0, h1, h2⟩ => by
    cases (show some x = some (p, b) from h1)
    show tget 0 (pokes (tput 0 m p b) l) p = _
    rw [pokes_out l (twf_tput h p b), tget_tput_same (tsorted_of_twf h)]
    rintro ⟨q, c⟩ hy rfl
    obtain ⟨j, hj⟩ := List.getElem?_of_mem hy
    have := h2 (j + 1) c (by simpa using hj)
    omega
  | x :: l, m, h, ⟨i + 1, h1, h2⟩ =>
    pokes_in l (twf_tput h x.1 x.2) ⟨i, by simpa using h1, fun j c hj => by
      have := h2 (j + 1) c (by simpa using hj); omega⟩

/-- A write of bytes keeps memory canonical. -/
theorem writeBytes_wf {s t : State} {sp a : Nat} {bs : List Byte} (hw : s.Wf) (e : s.writeBytes sp a bs = some t) : t.Wf := by
  unfold State.writeBytes at e
  split at e
  · cases e
  · cases e; exact pokes_wf _ hw

theorem reset_wf : State.reset.Wf := rfl

end Sys2Proof.Machine
end

