-- ==== Sys2Proof/Laws/Reach.lean ====
section
/-! SUPPORT. Requests that pass every check reach their operation. -/
namespace Sys2Proof.Machine

theorem syncOp_reaches {s t : State} {q : SyncReq} {w : BitVec 64} {key : Nat} (h : s.reaches t q w key) :
    s.syncOp q = (t.countOp q).applyOp key q w := by
  obtain ⟨ht, h0, h1, h2, h3, h4, h5, rfl, h6⟩ := h
  unfold State.syncOp
  simp only [← ht]
  rw [if_neg (by simp [h0]), if_neg (by omega), h2]
  simp only [h3, State.withEntry, h4]
  rw [if_neg (by simp), if_neg h5]

theorem engineReq_asks {s t : State} {e vid : Nat} {sc : Sys2Proof.Scope} {op : SyncOp} {q : SyncReq} {w : BitVec 64} {key : Nat}
    (h : s.asks t e vid sc op q w key) : s.engineReq e vid sc op = (t.countOp q).applyOp key q w := by
  obtain ⟨l, h1, h2, h3, h4, h5, h6, h7, rfl, h8⟩ := h
  simp only [State.engineReq, h1]
  rw [if_pos]
  · simp only [State.portReq]
    rw [if_neg, syncOp_reaches h8]
    rintro (⟨a, b, c⟩ | hx)
    · rcases h6 a with h | h
      · exact b h
      · exact absurd h (by omega)
    · obtain ⟨x, hx, hy⟩ := List.any_eq_true.1 hx
      rw [h7 x hx] at hy; cases hy
  refine ⟨h2, h3, by simp [h4], ?_⟩
  rintro ⟨hw, hx⟩
  obtain ⟨ha, hb⟩ := h5 hw
  simp [ha, hb] at hx

@[simp] theorem State.counted_obj (s : State) (c k : Nat) : (s.counted c).obj k = s.obj k := rfl

/-- What an engine's request does once it reaches an object. -/
theorem engineReq_op {s t : State} {e vid : Nat} {sc : Sys2Proof.Scope} {op : SyncOp} {q : SyncReq} {w : BitVec 64} {key : Nat}
    (h : s.asks t e vid sc op q w key) : s.engineReq e vid sc op =
      match op with
       | .set => ((t.counted q.src.ctx).signalled key q).setFlag key q.src.ctx
       | .clear => ((t.counted q.src.ctx).signalled key q).clearFlag key
       | .advance a => ((t.counted q.src.ctx).signalled key q).advance key a q.src.ctx
       | .release => ((t.counted q.src.ctx).signalled key q).release key q.src.ctx
       | .read => (t.counted q.src.ctx).answerWait key q .ok (t.obj key).word
       | .wait cond thr => (t.counted q.src.ctx).waitOn key q w cond thr
       | .claim => (t.counted q.src.ctx).claimOn key q w
       | .tryClaim => (t.counted q.src.ctx).tryClaimOn key q := by
  rw [engineReq_asks h]
  obtain ⟨l, -, -, -, -, -, -, -, rfl, -, -, -, -, -, -, -, -, ho⟩ := h
  have e0 : t.countOp { src := .engine e l.ctx, vid := vid, scope := scopeCode sc, op := op } = t.counted l.ctx := rfl
  rw [e0]
  have o1 : (t.counted l.ctx).obj key = t.obj key := rfl
  unfold State.applyOp
  simp only [SyncSrc.ctx, o1, ho, State.signalDone]
  cases op <;> simp

/-- An engine's request has the engine as its source. -/
theorem asks_src {s t : State} {e vid : Nat} {sc : Sys2Proof.Scope} {op : SyncOp} {q : SyncReq} {w : BitVec 64} {key : Nat}
    (h : s.asks t e vid sc op q w key) : ∃ c, q.src = .engine e c := by
  obtain ⟨l, -, -, -, -, -, -, -, rfl, -⟩ := h
  exact ⟨_, rfl⟩

/-- A parcel that arrives is taken by its tests and leaves its queue. -/
theorem takeType_arrives {s : State} {k q typ : Nat} {p : Parcel} (h : s.arrives k q typ p) :
    s.takeType k q typ = s.takeHead k q := by
  obtain ⟨⟨blk, h1⟩, h2, h3, h4, -⟩ := h
  simp [State.takeType, h1, h2, h3, h4]

theorem parcelTests_arrives {s : State} {k q typ : Nat} {p : Parcel} (h : s.arrives k q typ p) :
    s.parcelTests k p =
      if p.isReq then
        (if ((s.bump (gcnt 7) 1).judgeE2e p).2 then ((s.bump (gcnt 7) 1).judgeE2e p).1.parcelHere k p
         else (((s.bump (gcnt 7) 1).judgeE2e p).1, false))
      else (s.bump (gcnt 7) 1).parcelHere k p := by
  obtain ⟨-, -, -, -, h5⟩ := h
  unfold State.parcelTests
  have a : ¬(¬p.isCtl = true ∧ ¬s.sliceOk k p.slice = true) := by rcases h5 with h | ⟨h, -⟩ <;> simp [h]
  have b : ¬(¬p.isCtl = true ∧ p.dst ≠ s.chipId) := by rcases h5 with h | ⟨-, h⟩ <;> simp [h]
  rw [if_neg a, if_neg b]

/-- A response or control parcel: its effect, and the parcel leaves. -/
theorem takeType_resp {s : State} {k q typ : Nat} {p : Parcel} (h : s.arrives k q typ p) (hr : p.isReq = false) {t : State}
    (ht : (s.bump (gcnt 7) 1).parcelHere k p = (t, false)) : s.takeType k q typ = t.popParcel k q false := by
  rw [takeType_arrives h]
  have hp := parcelTests_arrives h
  obtain ⟨⟨blk, h1⟩, -⟩ := h
  simp [State.takeHead, h1, hp, hr, ht]

/-- A request that is accepted: its effect, and the parcel leaves. -/
theorem takeType_req {s : State} {k q typ : Nat} {p : Parcel} (h : s.arrives k q typ p) {u t : State} (hr : s.accepts p u)
    (ht : u.parcelHere k p = (t, false)) : s.takeType k q typ = t.popParcel k q false := by
  rw [takeType_arrives h]
  have hp := parcelTests_arrives h
  obtain ⟨⟨blk, h1⟩, -⟩ := h
  obtain ⟨r1, r2⟩ := hr
  simp [State.takeHead, h1, hp, r1, r2, ht]

/-- A new request is accepted. -/
theorem accepts_of_fresh {s : State} {p : Parcel} (h : s.fresh p) : s.accepts p (s.tookReq p) := by
  obtain ⟨h0, h1⟩ := h
  refine ⟨h0, ?_⟩
  have e0 : (s.bump (gcnt 7) 1).src p.src = s.src p.src := rfl
  simp only [State.judgeE2e, State.tookReq, State.updSrc, e0]
  simp only at h1
  rcases h1 with ⟨ha, hb⟩ | ⟨ha, hb, hc⟩
  · have hn : ¬ p.incarn % 2 ^ 16 = (s.src p.src).incarn % 2 ^ 16 := by omega
    rw [if_pos ⟨ha, by omega⟩, if_neg hn]
  · have hn : p.incarn % 2 ^ 16 = (s.src p.src).incarn % 2 ^ 16 := by omega
    have hx : ¬ (p.e2e ≠ (s.src p.src).next ∧ 2 ^ 31 ≤ above32 p.e2e (s.src p.src).next) := by
      rintro ⟨hd, he⟩
      rcases hc with h | h
      · exact hd h
      · omega
    rw [if_neg (by omega), if_neg (by omega), hb]
    simp only [hx, hn, if_true, if_false]

/-- Freeing a call slot leaves the serving table. -/
theorem State.freeCall_serve (s : State) (x : Nat) : (s.freeCall x).li.serve = s.li.serve :=
  State.each_keeps (fun t => t.li.serve) s _ _ fun _ _ => rfl

/-- An event reaches a unit whose clock runs and before whose gate nothing waits. -/
theorem reach_now {s : State} {u : Nat} {i : Instr} {f : State → State} (g : s.gated u = false) (h : ∀ x ∈ s.st.atGate, x.1 ≠ u) :
    s.reach u i f = f (s.wake u) := by
  simp only [State.reach]
  rw [if_neg]
  simp only [g, List.any_eq_true, decide_eq_true_eq]
  rintro (h' | ⟨x, hx, h'⟩)
  · cases h'
  · exact h x hx h'

/-- At a stopped clock it waits. -/
theorem reach_gated {s : State} {u : Nat} {i : Instr} {f : State → State} (g : s.gated u = true) :
    s.reach u i f = { s with st := { s.st with atGate := s.st.atGate ++ [(u, i)] } } := by
  simp only [State.reach, g, true_or, if_true]

end Sys2Proof.Machine
end

