-- ==== Sys2Proof/Laws/Words.lean ====
section
/-! SUPPORT. Little-endian words in byte strings: what a word written at a place reads as. -/
namespace Sys2Proof.Machine

@[simp] theorem leBytes_length (n x : Nat) : (leBytes n x).length = n := by
  induction n generalizing x with
  | zero => rfl
  | succ n ih => simp [leBytes, ih]

theorem ofLe_leBytes (n x : Nat) : ofLe (leBytes n x) = x % 256 ^ n := by
  induction n generalizing x with
  | zero => simp [leBytes, ofLe, Nat.mod_one]
  | succ n ih =>
    rw [leBytes, ofLe, ih, BitVec.toNat_ofNat, show 256 ^ (n + 1) = 256 * 256 ^ n by rw [Nat.pow_succ, Nat.mul_comm], Nat.mod_mul]

theorem leBytes_ofLe (bs : List Byte) : leBytes bs.length (ofLe bs) = bs := by
  induction bs with
  | nil => rfl
  | cons b bs ih =>
    have hb := b.isLt
    simp only [List.length_cons, leBytes, ofLe]
    rw [show (b.toNat + 256 * ofLe bs) / 256 = ofLe bs by omega, ih]
    congr 1
    apply BitVec.eq_of_toNat_eq
    rw [BitVec.toNat_ofNat]
    omega

/-- A word reads back from the place it was written at. -/
theorem leAt_here (n x : Nat) (r : List Byte) : leAt (leBytes n x ++ r) 0 n = x % 256 ^ n := by
  unfold leAt
  rw [List.drop_zero, List.take_append_of_le_length (by simp), List.take_of_length_le (by simp), ofLe_leBytes]

/-- A word beyond the first one is read from what follows it. -/
theorem leAt_skip {m o : Nat} (h : m ≤ o) (n x : Nat) (r : List Byte) : leAt (leBytes m x ++ r) o n = leAt r (o - m) n := by
  unfold leAt
  rw [List.drop_append, leBytes_length, List.drop_of_length_le (by simp; omega), List.nil_append]

/-- The bytes of the word read at a place are the bytes that stand there. -/
theorem leBytes_leAt {bs : List Byte} {o n : Nat} (h : o + n ≤ bs.length) : leBytes n (leAt bs o n) = (bs.drop o).take n := by
  have e : ((bs.drop o).take n).length = n := by simp; omega
  have k := leBytes_ofLe ((bs.drop o).take n)
  rw [e] at k
  exact k

theorem leAt_lt {bs : List Byte} {o n : Nat} (h : o + n ≤ bs.length) : leAt bs o n < 256 ^ n := by
  have k := ofLe_leBytes n (leAt bs o n)
  rw [leBytes_leAt h] at k
  have e : leAt bs o n = leAt bs o n % 256 ^ n := k
  rw [e]
  exact Nat.mod_lt _ (Nat.pow_pos (by decide))

end Sys2Proof.Machine
end

