-- ==== Sys2Proof/WellFormed.lean ====
section
/-! DEFINITION. The operand ranges of the commands. -/
namespace Sys2Proof

/-- R13: bit 13 is 0 for a cell of 8 regions, 48 tiles and 11 cells; with bit 13 set it names one of 32 link engines. -/
def engineIdOk (e : Nat) : Bool :=
  if e < 8192 then decide (e / 16 % 64 < 48) && decide (e % 16 < 11) else decide (e < 8192 + 32)

/-- R12: nine service cores. -/
def Requester.ok : Requester → Bool
  | .host => true
  | .core k => decide (k < 9)

def slotOk (n : Nat) : Bool := decide (n < 256)
def podOk (p : Nat) : Bool := decide (p < 16)
def ctxOk (c : Nat) : Bool := decide (c < 512)
def nodeIdxOk (i : Nat) : Bool := decide (i < 2 ^ 20)
def regionOk (r : Nat) : Bool := decide (r < 8)
def leOk (k : Nat) : Bool := decide (k < 32)
def portOk (k : Nat) : Bool := decide (k < 64)
def rosterOk (k : Nat) : Bool := decide (k < 16)
def coreOk (k : Nat) : Bool := decide (k < 9)
def tileOk (i : Nat) : Bool := decide (i < 384)
def landingOk (l : Nat) : Bool := decide (l < 16384)
def vectorOk (v : Nat) : Bool := decide (v < 512)
def barOk (off : Nat) : Bool := decide (off < 2 ^ 22)
def dieOk (d : Nat) : Bool := decide (d < 9)
/-- R17: a virtual sync ID has 24 bits. -/
def vidOk (v : Nat) : Bool := decide (v < 2 ^ 24)
def queueOk (q : Nat) : Bool := decide (q < 11)
def objOk (kind idx : Nat) : Bool := decide (kind < 3) && decide (idx < 2 ^ 18)
def clockOk (d : Nat) : Bool := decide (d < 10)

def Upset.ok : Upset → Bool
  | .edgeWord j _ => decide (j < 2 ^ 22)
  | .object kind idx => objOk kind idx
  | _ => true

/-- Every operand is in its range. -/
def Instr.wf : Instr → Bool
  | .doorbellWrite n _ | .shadowPoll n | .ringFetch n | .slotIdleCheck n | .destroyFinish n | .nop n | .launchGraph n
  | .appendNodes n | .templateRelease n | .rosterAdmit n | .rosterExtend n | .rosterFold n | .foldCommand n | .report n
  | .commandRetire n _ | .completionRecordWrite n | .irqCoalesceTimeout n | .commandWatchdog n _ => slotOk n
  | .slotEnable w n _ | .slotDisable w n _ | .destroy w n | .restart w n _ | .cplRdWrite w n _ => w.ok && slotOk n
  | .tsetCommit w p _ | .tsetSelect w p _ | .swapqPush w p _ | .swapqPop w p _ | .podPagesWrite w p _ => w.ok && podOk p
  | .tileOwnerWrite w i _ => w.ok && tileOk i
  | .tileDeparted i | .mirrorParity i _ => tileOk i
  | .contextSave w c _ | .contextRestore w c _ | .rearm w c _ | .windowWrite w _ c _ | .resBindingWrite w c _ =>
    w.ok && ctxOk c
  | .saveImageWrite c | .restoreComplete c | .dynRetry c | .teardownContinue c => ctxOk c
  | .objInitCommit w _ | .objFreeCommit w _ | .objSelect w _ | .xlatInv w _ | .syncDumpStart w _ | .modeWrite w _
  | .holdWrite w _ | .lockstepRestart w _ | .chipResetWrite w _ | .compatWrite w _ | .settingsReload w _ | .spiGo w _
  | .draoftLock w _ | .driverTeardown w _ | .unbench w _ | .freeze w | .quiesce w | .snap w | .resume w
  | .traceModeStart w _ | .traceModeOff w _ | .traceHostTrigger w _ | .gcntSnap w _ | .snapDumpStart w _
  | .serveCommit w _ | .resCommit w _ | .relCommit w _ | .rqEnable w _ | .rqDisable w _ | .rqRdWrite w _ => w.ok
  | .xlatInvDone | .syncDumpDone | .reloadComplete _ | .unbenchComplete _ | .quiesceReached | .snapDumpDone
  | .resolverUpdate | .leIssueSlot | .fanoutExpand | .landingWaitResume | .fanoutInstantiate | .waiterRecordGrant
  | .supplyReset | .rqPacketWrite | .deadlineTick | .beatTick | .beatPinEdge | .beatFlywheel | .beatRemoteApply
  | .beatPinInverted | .slowdownReport | .chipReset | .settingsRead _ | .gsInitDone | .startReady | .lockstepTick
  | .traceFrameSend | .traceAlignSend | .uartRxFault | .uartRxRecover | .beatOutShort | .draoftHelp | .draoftId
  | .draoftStatus | .draoftCnt | .draoftFreeze | .draoftQuiesce | .draoftSnap _ | .draoftResume | .draoftTrig
  | .beatInFailsafe | .beatInFailsafeClear | .beatOutShortEnd => true
  | .spiDone rx => decide (rx.length ≤ 64)
  | .firmwareLoad w k _ | .watchdogKick w k _ => w.ok && coreOk k
  | .firmwareLoaded k | .serviceWatchdogExpiry k | .servicePathParity k => coreOk k
  | .inspSelect w a _ => w.ok && decide (1 ≤ a) && decide (a ≤ 10)
  | .inspectRead w off _ | .registerWrite w off _ | .lowHalfRead w off | .lowHalfWrite w off _ | .highHalfWrite w off _
  | .highHalfRead w off => w.ok && barOk off
  | .accessAbort w bar _ _ _ => w.ok && decide (bar < 3)
  | .rosterEnable w k _ | .rosterDisable w k _ | .foldTrick w k _ | .rosterClose w k _ => w.ok && rosterOk k
  | .linkAccept w k _ | .portEnable w k _ | .portDisable w k _ | .sliceRejectsRead w k => w.ok && portOk k
  | .portExpectWrite w k _ => w.ok && k.all portOk
  | .indirectPointerRead c i | .nodeDispatch c i | .collectWindowClose c i | .loopStart c i
  | .loopIterationEnd c i | .sproutRead c i | .remoteSend c i | .fanoutComplete c i | .trickCompose c i
  | .composeRetry c i | .signalNode c i | .waitNodeRegister c i | .monitorEvaluate c i | .draoftNode c i =>
    ctxOk c && nodeIdxOk i
  | .offerAnswer r c i | .answerArrival r c i | .offerConfirm r c i | .offerWithdraw r c i | .shareDone r c i =>
    regionOk r && ctxOk c && nodeIdxOk i
  | .backlogDispatch p r => podOk p && regionOk r
  | .issueSlot r | .dealerRebuilt r | .pathResetDone r _ => regionOk r
  | .regionPathFault r b => decide (r < 9) && decide (b.resends ≤ 8)
  | .dealerParity r => decide (r < 13)
  | .scrub c r => ctxOk c && nodeIdxOk r.i && r.met.ok
  | .startReport e | .engineCompletion e _ _ | .completionAccept e | .combineRequest e | .combineDone e
  | .drainReport e _ | .drainLimitExpiry e _ | .cellResetDone e | .cellResetTimeout e | .invalRequest e _ _
  | .invalDone e | .cellHang e _ | .cellUncorrectable e _ | .cellPortParity e _ | .suspendReport e | .suspendTimeout e
  | .returnParcelSend e _ _ _ | .deviceMemoryRequest e _ _ _ => engineIdOk e
  | .leCompletion k _ _ | .leBench k _ => leOk k
  | .callSlotFree x => decide (x < 4096)
  | .landingTimeout l | .landingFree l => landingOk l
  | .trickInstantiate k | .trickEnd k | .retireRecordWrite k | .logRecordWrite k => rosterOk k
  | .importLanded slot => decide (slot < 16384)
  | .syncSet e v _ | .syncClear e v _ | .syncAdvance e v _ _ | .syncRelease e v _ | .syncWait e v _ _ _
  | .syncClaim e v _ | .syncTryClaim e v _ | .syncRead e v _ => engineIdOk e && vidOk v
  | .xlatFill c v => ctxOk c && vidOk v
  | .supplyWarn d | .supplyClear d | .supplyRecover d => dieOk d
  | .clockRampStep d | .pllStable d => clockOk d
  | .vectorSignal v | .msixUnmask v => vectorOk v
  | .donateTimeout f => decide (f < 2 ^ 18)
  | .allBlocked p | .autoSwapRestore p => podOk p
  | .beatParcelReceive k q | .decrementReceive k q | .signalReceive k q | .expertCallReceive k q | .returnReceive k q
  | .ackReceive k q | .helloReceive k q | .cutMarkerReceive k q => portOk k && queueOk q
  | .blockReceive k _ | .nakReceive k _ | .hopAckTimeout k | .transmitSlot k | .cutMarkerTimeout k | .helloSend k
  | .linkSilent k | .phyReady k | .phyLost k | .retrainExpiry k => portOk k
  | .e2eResend dest _ => decide (dest < 8192)
  | .nativeGateStop u => decide (u < 9)
  | .draoftRd _ cnt => decide (1 ≤ cnt) && decide (cnt ≤ 64)
  | .draoftObj kind idx => objOk kind idx
  | .draoftDump byCtx id => decide (id < (if byCtx then 512 else 16))
  | .draoftWr off _ => barOk off

end Sys2Proof
end

