-- ==== Sys2Proof/Tests/Slice0.lean ====
section
/-! SUPPORT. Small tests of one step each, and for every statement a state and operands that meet its hypotheses. -/
namespace Sys2Proof.Tests
set_option Elab.async false
open Sys2Proof.Machine

/-! ### Small states -/

/-- The block once its start sequence is over. -/
def rdy : State := { State.reset with st := { State.reset.st with phase := .ready } }

/-- `s` with register `k` of index `i` at `v`. -/
def rg (s : State) (k : RegName) (i : Nat) (v : BitVec 64) : State := s.setReg ⟨k, i, 0⟩ v

def slt (s : State) (x : Slot) : State := s.updSlot 0 fun _ => x
def cx (s : State) (x : Ctx) : State := s.updCtx 0 fun _ => x
def put (s : State) (a : Nat) (bs : List Byte) : State := (s.writeBytes 0 a bs).getD s
/-- Slot 0 in pod 0 with its ring, status area and completion ring placed. -/
def ringed : State :=
  rg (rg (rg (rg rdy .podSlots 0 0x10000) .slotRing 0 0x1000) .slotStatusAddr 0 0x2000) .slotCpl 0 0x3044

def stopped (x : StopState) : State := { rdy with ob := { rdy.ob with stop := x } }
def halves (r w : Option (Nat × BitVec 32)) : State := { rdy with latches := [(.host, { rd := r, wr := w })] }
def aTrick : Trick := { anchor := 7, epoch := 0, number := 1, beat := 0, seqs := [], tokens := 0 }

/-- Context 0 with one unit of nodes and one of edges. -/
def wins : State := rg (rg (cx rdy { st := .resident }) .ctxNodes 0 0x80010000) .ctxEdges 0 0x80010000
/-- Slot 0's fetch buffer holds the descriptor `bs`. -/
def headed (s : State) (bs : List Byte) : State := slt s { st := .idle, nextSeq := 2, buf := [⟨0, some bs⟩] }
/-- A ring descriptor of context 0 (R174 to R177). -/
def rb (op addr w10 w14 addr2 w24 seq : Nat) : List Byte :=
  leBytes 1 op ++ zeros 7 ++ leBytes 8 addr ++ leBytes 4 w10 ++ leBytes 4 w14 ++ leBytes 8 addr2 ++ zeros 4 ++ leBytes 4 w24 ++
  leBytes 8 seq ++ zeros 16
/-- One JOIN node at 0x1000 of external memory. -/
def joinAt : State := put wins 0x1000 (leBytes 1 2 ++ zeros 31)
/-- Node 0 of context 0 is `x`. -/
def nd (x : Node) : State := wins.setNode (nk 0 0) x
/-- Context 0 is being saved; and being restored from an image at 0x4000. -/
def saving : State := rg (rg (cx wins { st := .saving }) .ctxSaveAddr 0 0x4000) .ctxSaveSize 0 0x100000
def restoring : State := put (cx saving { st := .restoring }) 0x4000 (saving.saveImage 0)
/-- Engine 0 runs a task of context 0. -/
def job0 (x : Engine) : State := wins.updEng 0 fun _ => { x with job := some {} }
/-- The same, with the object `o` behind VID 3 in the cache as entry kind `k`. -/
def synced (k : Nat) (o : SyncObj) : State :=
  let s := rg (rg (rg (job0 {}) .podFlags 0 0x800000000) .podTallies 0 0x800000000) .xlatLimit 0 4
  let s : State := { s with sy := { s.sy with cache := [(0, 3, BitVec.ofNat 64 (2 ^ 63 + k * 2 ^ 61 + 5))] } }
  s.setObj (objKey (if k = 1 then 2 else if k = 2 then 1 else 0) 5) o

/-- Context 0 with a template node 0 and a pool, and serving entry 0 of expert 7. -/
def server : State :=
  let s := rg (rg (rg wins .ctxNodes 0 0x80020000) .ctxEdges 0 0x80020000) .ctxDyn 0 0x10001
  let s := s.setNode (nk 0 0) { st := .template }
  { s with li := { s.li with serve := [(0, [0x80000007, 0, 1, 0x7000, 0, 0])] } }
/-- Parcel `p` heads receive queue 0 of port 0 of `s`. -/
def rcv (s : State) (p : Parcel) : State := s.updPort 0 fun _ => { st := .up, rx := [(0, [{ parcels := [p] }])] }
/-- The Beat follows PIN or REMOTE at a period of 100, `n` ticks after its last tick. -/
def beating (src : BitVec 64) (n : BitVec 64) : State := rg (rg rdy .tbBeatCfg 0 (100 * 4096 + src)) .tbTick 0 n

/-- Node 0 is `x`, and tile set 0 of pod 0 holds the tiles of `w0` and `w1` and the Link Engines of `le`; pod 0 owns tile 0 of
regions 0 and 1. -/
def tiled (x : Node) (w0 w1 le : BitVec 32) : State :=
  (rg (rg (nd x) .tileOwner 0 16) .tileOwner 48 16).updPod 0 fun p =>
    { p with tset := [(0, [w0, w1, 0, 0, 0, 0, 0, 0, 0, 0, 0, 0, le, 1, 0, 0])] }
/-- The ready task node 0 with word 0x0C at `w`. -/
def task (w : BitVec 32) : Node := { st := .ready, d := { w0 := w } }
/-- An offer round of node 0. -/
def offering (s : State) (o : Offer) : State := { s with dl := { s.dl with offers := [o] } }
/-- Port 3 in state UP, and `x` beside. -/
def port3 (f : Port → Port) : State := rdy.updPort 3 fun x => f { x with st := .up }

/-- A request of number 0 to chip 1 is unanswered, and route set 0 leads there through port 3. -/
def asking (s : State) : State :=
  { s with li := { s.li with
      unanswered := [{ dst := 1, seq := 0, parcel := { dst := 1, body := .decrement 0 0 1 }, asker := .none, sentAt := 0 }],
      routes := [(1, 0x8003)] } }
/-- Engine 0's report of node 0 is on its way. -/
def reported (st : CellStatus) : State :=
  { nd (task 0) with dl := { wins.dl with reports := [{ e := 0, job := {}, st := st, word := 0 }] } }

/-- A FANOUT node that sends 4 tokens to the template node 1, and its work once the first pass is done. -/
def fanNode (x : NodeState) : State :=
  (server.setNode (nk 0 1) { st := .template }).setNode (nk 0 0) { st := x, d := { kind := .fanout, w0 := 1, b := 0x8000, t := 0x1000 } }
def fanWork : FanWork where
  node := 0
  outAddr := 0x9000
  tokens := 4
  sized := true
  req := [(0, 4)]
  kept := [(0, 4)]
  entries := [(0, 3, 3, 0), (0, 2, 2, 0), (0, 1, 1, 0), (0, 0, 0, 0)]
  masks := [1, 1, 1, 1]

/-- Roster 0 is enabled with sequence 0 ready in its list 0, and node 0 is its ANCHOR. -/
def rosterOf (n : NodeState) (budget : BitVec 64) (r : Ros) : State :=
  let s := rg (rg (rg (nd { st := n, d := { kind := .anchor } }) .roCtrl 0 1) .roCfg 0 0x60000) .roBudget 0 budget
  (s.updSeq 0 fun _ => { st := .ready, kvLen := 5, pages := [3] }).updRos 0 fun _ => { r with lists := [(0, [0])] }
/-- The block in LOCKSTEP, where host memory lies behind every address of context 0 and of the device. -/
def hosted (s : State) : State :=
  rg { s with mmu := [0, 1].map fun k => { space := k, lo := 0, hi := 2 ^ 64, phys := some 0, host := true } } .tsuMode 0 2
/-- A trick of roster 0 whose ANCHOR is node 0. -/
def trick0 : Trick := { anchor := 0, epoch := 0, number := 1, beat := 0, seqs := [], tokens := 0 }
def trickOn (t : Trick) : State :=
  ((rg (rg server .roLogShift 0 6) .roRetireShift 0 6).setNode (nk 0 0)
    { st := .active, d := { kind := .anchor, b := 0x100000001 } }).setNode (nk 0 1) { st := .template } |>.updRos 0 fun _ =>
      { trick := some t }
/-- Sequence 5 of roster 0 imports 64 tokens, and its landing entry 2 is filled. -/
def importing : State :=
  let s := rg (rg (rg wins .roCfg 0 0x60000) .podPages 0 0x400000000) .roLimit 0 4
  (s.updSeq 5 fun _ => { st := .importing, impTokens := 64, pageList := 0x9000 }).updLanding 2 fun _ =>
    { st := .filled, owner := .sequence 0 5 0 }
/-- The hub core runs and the monitor is allowed up to level `n`. -/
def monitor (n : BitVec 64) : State := rg (rdy.updCore 8 fun x => { x with st := 2 }) .svDraoft 0 n
def instOn : InstResult → State
  | .ok u => u
  | _ => rdy
def instDone : InstResult → Bool
  | .ok _ => true
  | _ => false
/-- Context 0 is to be torn down, and context 1 has an edge, hand entries, a confirmed offer and a start report. -/
def tearing0 : State :=
  let s := (cx rdy { st := .faulted }).setEdge (ek 1 0) 5
  let s := s.updDealer 0 fun x =>
    { x with hands := [{ key := nk 1 0, pod := 0, cls := 0, slot := 0 }], shares := [{ key := nk 1 1 }], confirmed := [(nk 1 2, 0)] }
  { s with dl := { s.dl with starts := [(0, { ctx := 1 })] } }

/-! ### From decidable conditions to the terms of Safety.lean -/

theorem adm {s : State} {r : Reg} (h : (s.ready = true ∧ s.lockstep = false ∧ s.ob.stop ≠ .snapped ∧ s.ob.snapHeld = [] ∧
    s.unitGated r = false)) : s.admits r (s.wakeFor r) := ⟨h.1, h.2.1, h.2.2.1, h.2.2.2.1, h.2.2.2.2, rfl⟩

theorem admStop {s : State} {r : Reg} (h : (s.ready = true ∧ s.inputsWait = false ∧ s.ob.snapHeld = [] ∧ s.unitGated r = false)) :
    s.admitsStop r (s.wakeFor r) := ⟨h.1, h.2.1, h.2.2.1, h.2.2.2, rfl⟩

theorem admBell {s : State} (h : (s.ready = true ∧ s.lockstep = false ∧ s.ob.stop ≠ .snapped ∧ s.ob.snapHeld = [] ∧
    s.gated 0 = false)) : s.admitsBell (s.wake 0) := ⟨h.1, h.2.1, h.2.2.1, h.2.2.2.1, h.2.2.2.2, rfl⟩

theorem con {s : State} {lvl : Nat} (h : s.gated 8 = false ∧ (∀ x ∈ s.st.atGate, x.1 ≠ 8) ∧ ((s.wake 8).core 8).st = 2 ∧
    (s.wake 8).sv.uartOff = false ∧ (s.wake 8).ready = true ∧ 1 ≤ (s.wake 8).fld ⟨.svDraoft, 0, 0⟩ 0 2 ∧
    lvl ≤ (s.wake 8).fld ⟨.svDraoft, 0, 0⟩ 0 2 ∧ (s.wake 8).inputsWait = false ∧ (s.wake 8).ob.snapHeld = []) :
    s.console lvl { s.wake 8 with sv := { (s.wake 8).sv with session := true } } :=
  ⟨h.1, h.2.1, _, rfl, h.2.2.1, h.2.2.2.1, h.2.2.2.2.1, h.2.2.2.2.2.1, h.2.2.2.2.2.2.1, h.2.2.2.2.2.2.2.1, h.2.2.2.2.2.2.2.2, rfl⟩

theorem som {α : Type} {o : Option α} (h : o.isSome = true) : o = some (o.get h) := (Option.some_get h).symm

theorem okOf {ε α : Type} {x : Except ε α} (h : x.toOption.isSome = true) : x = .ok (x.toOption.get h) := by
  cases x with
  | error => simp [Except.toOption] at h
  | ok => rfl

theorem hd {s : State} {n op : Nat} {bs : List Byte} (h : (s.slot n).buf = [⟨0, some bs⟩] ∧ (RingDesc.ofBytes bs).opcode = op ∧
    s.headOpen n (RingDesc.ofBytes bs) = true ∧ s.live 0 = true ∧ s.feCause n bs (RingDesc.ofBytes bs) = none) :
    s.heads n op (RingDesc.ofBytes bs) := ⟨_, _, bs, h.1, rfl, rfl, h.2.1, h.2.2.1, h.2.2.2.1, h.2.2.2.2⟩

theorem rch {s : State} {q : SyncReq} {key : Nat} (w : BitVec 64) (h : (s.wake 3).gated 3 = false ∧
    q.vid < (s.wake 3).fld ⟨.xlatLimit, q.src.ctx, 0⟩ 0 25 ∧ (s.wake 3).cached q.src.ctx q.vid = some w ∧
    (s.wake 3).xlatBefore q = false ∧ (s.wake 3).entryCause q w = none ∧ bits w 61 2 ≠ 3 ∧ key = entryKey w ∧
    ((s.wake 3).obj key).orphaned = false) : s.reaches (s.wake 3) q w key := ⟨rfl, h⟩

theorem ask {s : State} {e vid : Nat} {sc : Sys2Proof.Scope} {op : SyncOp} {w : BitVec 64} {key : Nat} (l : Launch)
    (h : (s.eng e).job = some l ∧ s.takes 3 = true ∧ s.pathUp e = true ∧ (s.eng e).reset = none ∧
      (op.waits = true → s.engWaits e = false ∧ (s.eng e).drain = none) ∧
      (s.writesWait e = true → op.waits = true ∨ scopeCode sc < 2) ∧ (∀ x ∈ s.sy.portWait, x.src.isEngine e = false))
    (hr : s.reaches (s.wake 3) { src := .engine e l.ctx, vid := vid, scope := scopeCode sc, op := op } w key) :
    s.asks (s.wake 3) e vid sc op { src := .engine e l.ctx, vid := vid, scope := scopeCode sc, op := op } w key :=
  ⟨l, h.1, h.2.1, h.2.2.1, h.2.2.2.1, h.2.2.2.2.1, h.2.2.2.2.2.1, h.2.2.2.2.2.2, rfl, hr⟩

theorem arr {s : State} {k q typ : Nat} {p : Parcel} (h : (s.headParcel k q).map Prod.fst = some p ∧ p.body.typ = typ ∧ s.runs 6 = true ∧
    s.lockstep = false ∧ (p.isCtl = true ∨ (s.sliceOk k p.slice = true ∧ p.dst = s.chipId))) : s.arrives k q typ p := by
  refine ⟨?_, h.2⟩
  match hm : s.headParcel k q, h.1 with
  | some (a, b), h1 => exact ⟨b, by rw [show a = p from Option.some.inj h1]⟩

theorem acc {s : State} {p : Parcel} (h : p.isReq = true ∧ ((s.bump (gcnt 7) 1).judgeE2e p).2 = true) :
    s.accepts p ((s.bump (gcnt 7) 1).judgeE2e p).1 := ⟨h.1, Prod.ext rfl h.2⟩

theorem fsh {s : State} {p : Parcel} (h : p.isReq = true ∧
    (((p.incarn + 2 ^ 16 - (s.src p.src).incarn % 2 ^ 16) % 2 ^ 16 ≠ 0 ∧
        (p.incarn + 2 ^ 16 - (s.src p.src).incarn % 2 ^ 16) % 2 ^ 16 < 2 ^ 15) ∨
      ((p.incarn + 2 ^ 16 - (s.src p.src).incarn % 2 ^ 16) % 2 ^ 16 = 0 ∧ tfind (s.src p.src).taken p.e2e = none ∧
        (p.e2e = (s.src p.src).next ∨ above32 p.e2e (s.src p.src).next < 2 ^ 31)))) : s.fresh p := h

theorem instOk {x : InstResult} (h : instDone x = true) : x = .ok (instOn x) := by
  cases x with
  | ok => rfl
  | _ => cases h

/-! ### Witnesses -/

theorem wit_DoorbellOffer :
    (∃ (s w : State) (n : Nat) (v : BitVec 32), s.admitsBell w ∧ (w.slot n).st ≠ .disabled ∧ (w.slot n).st ≠ .destroying ∧ (v - (w.slot n).whost).toNat
      ≤ 2 ^ w.ringShift n ∧ (v - (w.slot n).wdev).toNat ≤ 2 ^ w.ringShift n) ∧
    (∃ (s w : State) (n : Nat) (v : BitVec 32), s.admitsBell w ∧ (w.slot n).st ≠ .disabled ∧ (w.slot n).st ≠ .destroying ∧ (¬ ((v - (w.slot n).whost).toNat ≤ 2 ^ w.ringShift n ∧ (v - (w.slot n).wdev).toNat ≤ 2 ^ w.ringShift n))
      ∧ bit (w.reg ⟨.slotErr, n, 0⟩) 1 = true) ∧
    (∃ (s w : State) (n : Nat) (v : BitVec 32), s.admitsBell w ∧ (w.slot n).st ≠ .disabled ∧ (w.slot n).st ≠ .destroying ∧ (¬ ((v - (w.slot n).whost).toNat ≤ 2 ^ w.ringShift n ∧ (v - (w.slot n).wdev).toNat ≤ 2 ^ w.ringShift n))
      ∧ bit (w.reg ⟨.slotErr, n, 0⟩) 1 = false) :=
  ⟨⟨slt rdy { st := .idle }, _, 0, 1, admBell (by decide +kernel), by decide +kernel, by decide +kernel, by decide +kernel,
      by decide +kernel⟩,
    ⟨rg (slt rdy { st := .idle }) .slotErr 0 2, _, 0, 70000, admBell (by decide +kernel), by decide +kernel, by decide +kernel,
      by decide +kernel, by decide +kernel⟩,
    ⟨slt rdy { st := .idle }, _, 0, 70000, admBell (by decide +kernel), by decide +kernel, by decide +kernel, by decide +kernel,
      by decide +kernel⟩⟩

theorem wit_SlotRegisterWrites :
    (∃ (s w u t a b : State) (n : Nat) (v : BitVec 32) (x : BitVec 64), s.admits ⟨.slotCfg, n, 0⟩ w ∧ n < 256 ∧ x = setBit (w64 v) 0
      true &&& (regRow .slotCfg).rw ∧ 6 ≤ bits x 11 5 ∧ bits x 11 5 ≤ 16 ∧ 1 ≤ bits x 25 7 ∧ bits x 25 7 ≤ 64 ∧ (w.slot n).st =
      .disabled ∧ (w.slot n).cplReset = false ∧ u = w.setReg ⟨.slotCfg, n, 0⟩ (setBit x 0 false) ∧ u.enableOk n = true ∧ t =
      ((u.setReg ⟨.slotCfg, n, 0⟩ x).updSlot n fun y => { y with whost := y.wdev, doneSeq := y.nextSeq - 1, buf := [], idleCheck := false, cplReset := false, notes := [], irqCount := 0, irqSince := none, polledAt := w.now })
      ∧ t.slotWrite n (t.statusAddr n) (leBytes 8 (t.slot n).doneSeq.toNat) = (a, true) ∧ a.slotWrite n (t.statusAddr n + 8)
      (leBytes 4 (t.slot n).wdev.toNat ++ leBytes 1 (t.slot n).st.code ++ zeros 3) = (b, true)) ∧
    (∃ (s w : State) (n : Nat) (v : BitVec 32) (x : BitVec 64), s.admits ⟨.slotCfg, n, 0⟩ w ∧ n < 256 ∧ x = setBit (w64 v) 0 false
      &&& (regRow .slotCfg).rw ∧ 6 ≤ bits x 11 5 ∧ bits x 11 5 ≤ 16 ∧ 1 ≤ bits x 25 7 ∧ bits x 25 7 ≤ 64 ∧ (w.slot n).st = .idle
      ∧ w.openCmds n = [] ∧ x &&& slotCfgFixed = w.reg ⟨.slotCfg, n, 0⟩ &&& slotCfgFixed) ∧
    (∃ (s w : State) (n : Nat), s.admits ⟨.slotCtrl, n, 0⟩ w ∧ n < 256 ∧ (w.slot n).st ≠ .disabled ∧ (w.slot n).st ≠ .destroying) ∧
    (∃ (s w : State) (n : Nat), s.admits ⟨.slotCtrl, n, 0⟩ w ∧ n < 256 ∧ (w.slot n).st = .faulted ∧ w.tearing (w.slotCtx n) = false) ∧
    (∃ (s w : State) (n : Nat) (v : BitVec 32), s.admits ⟨.slotCplRd, n, 0⟩ w ∧ n < 256 ∧ ((w.reg ⟨.slotCplWr, n, 0⟩).toNat + 2 ^ 32 - v.toNat)
      % 2 ^ 32 ≤ w.cplSize n) :=
  ⟨⟨ringed, _, _, _, _, _, 0, 0x02003001, _, adm (by decide +kernel), by decide +kernel, rfl, by decide +kernel, by decide +kernel,
      by decide +kernel, by decide +kernel, by decide +kernel, by decide +kernel, rfl, by decide +kernel, rfl, Prod.ext rfl
      (by decide +kernel), Prod.ext rfl (by decide +kernel)⟩,
    ⟨rg (slt rdy { st := .idle }) .slotCfg 0 0x02003001, _, 0, 0x02003001, _, adm (by decide +kernel), by decide +kernel, rfl,
      by decide +kernel, by decide +kernel, by decide +kernel, by decide +kernel, by decide +kernel, by decide +kernel,
      by decide +kernel⟩,
    ⟨slt rdy { st := .fetching }, _, 0, adm (by decide +kernel), by decide +kernel, by decide +kernel, by decide +kernel⟩,
    ⟨slt rdy { st := .faulted }, _, 0, adm (by decide +kernel), by decide +kernel, by decide +kernel, by decide +kernel⟩,
    ⟨rg rdy .slotCplWr 0 1, _, 0, 1, adm (by decide +kernel), by decide +kernel, by decide +kernel⟩⟩

theorem wit_ReportQueuePodAndTileWrites :
    (∃ (s w a : State) (v : BitVec 32) (x : BitVec 64), s.admits ⟨.rqCfg, 0, 0⟩ w ∧ x = setBit (w64 v) 0 true ∧ 16 ≤ bits x 8 5 ∧
      bits x 8 5 ≤ 26 ∧ bits x 24 4 ≠ 0 ∧ w.rqOn = false ∧ a = (if bits x 8 5 = w.fld ⟨.rqCfg, 0, 0⟩ 8 5 then w.plainWrite ⟨.rqCfg, 0, 0⟩ x else (w.plainWrite ⟨.rqCfg, 0, 0⟩ x).clearRq)) ∧
    (∃ (s w : State) (v : BitVec 32) (x : BitVec 64), s.admits ⟨.rqCfg, 0, 0⟩ w ∧ x = setBit (w64 v) 0 false ∧ 16 ≤ bits x 8 5 ∧ bits
      x 8 5 ≤ 26 ∧ bits x 24 4 ≠ 0 ∧ bits x 8 5 = w.fld ⟨.rqCfg, 0, 0⟩ 8 5) ∧
    (∃ (s w : State) (v : BitVec 32), s.admits ⟨.rqRd, 0, 0⟩ w ∧ w.rqGood = true ∧ (w.rqWr + 2 ^ 32 - v.toNat) % 2 ^ 32 ≤ w.rqSize) ∧
    (∃ (s w a : State) (p : Nat) (v : BitVec 32) (x : BitVec 64), s.admits ⟨.podTsetSel, p, 0⟩ w ∧ p < 16 ∧ x = setBit (w64 v) 16
      false ∧ a = w.plainWrite ⟨.podTsetSel, p, 0⟩ x) ∧
    (∃ (s w a : State) (p : Nat) (v : BitVec 32) (x : BitVec 64), s.admits ⟨.podTsetSel, p, 0⟩ w ∧ p < 16 ∧ x = setBit (w64 v) 16
      true ∧ a = w.plainWrite ⟨.podTsetSel, p, 0⟩ x ∧ a.tsetOk p (a.staged .podTsetData p 16 true) = true ∧ (a.pod p).commit =
      none) ∧
    (∃ (s : State) (p i : Nat) (ws : List (BitVec 32)), (s.pod p).commit = some (i, ws)) ∧
    (∃ (s w : State) (i : Nat) (v : BitVec 32), s.admits ⟨.tileOwner, i, 0⟩ w ∧ i < 384 ∧ bit (w64 v) 4 = true ∧ bit (w.reg ⟨.tileOwner, i, 0⟩)
      4 = false ∧ bit (w.reg ⟨.tileOwner, i, 0⟩) 5 = false ∧ w.podOn (bits (w64 v) 0 4) = true) ∧
    (∃ (s w : State) (i : Nat) (v : BitVec 32), s.admits ⟨.tileOwner, i, 0⟩ w ∧ i < 384 ∧ bit (w64 v) 4 = false ∧ bit (w.reg ⟨.tileOwner, i, 0⟩)
      4 = true) ∧
    (∃ (s w : State) (p : Nat) (v : BitVec 32), s.admits ⟨.podSwapq, p, 0⟩ w ∧ p < 16 ∧ bit (w64 v) 31 = false ∧ (w.pod p).swapq.length
      < 8) ∧
    (∃ (s w : State) (p : Nat) (v : BitVec 32), s.admits ⟨.podSwapq, p, 0⟩ w ∧ p < 16 ∧ bit (w64 v) 12 = false) :=
  ⟨⟨rdy, _, _, 0x01001001, _, adm (by decide +kernel), rfl, by decide +kernel, by decide +kernel, by decide +kernel,
      by decide +kernel, rfl⟩,
    ⟨rg rdy .rqCfg 0 0x01001001, _, 0x01001001, _, adm (by decide +kernel), rfl, by decide +kernel, by decide +kernel,
      by decide +kernel, by decide +kernel⟩,
    ⟨rg rdy .rqCfg 0 0x01001001, _, 0, adm (by decide +kernel), by decide +kernel, by decide +kernel⟩,
    ⟨rdy, _, _, 15, 2, _, adm (by decide +kernel), by decide +kernel, rfl, rfl⟩,
    ⟨rg (rg rdy .tileOwner 0 16) .podCfg 0 1, _, _, 0, 0x10002, _, adm (by decide +kernel), by decide +kernel, rfl, rfl,
      by decide +kernel, by decide +kernel⟩,
    ⟨rdy.updPod 0 fun p => { p with commit := some (3, [1]) }, 0, 3, [1], by decide +kernel⟩,
    ⟨rg rdy .podCfg 3 1, _, 383, 0x13, adm (by decide +kernel), by decide +kernel, by decide +kernel, by decide +kernel,
      by decide +kernel, by decide +kernel⟩,
    ⟨rg rdy .tileOwner 7 0x13, _, 7, 0, adm (by decide +kernel), by decide +kernel, by decide +kernel, by decide +kernel⟩,
    ⟨rdy, _, 0, 5, adm (by decide +kernel), by decide +kernel, by decide +kernel, by decide +kernel⟩,
    ⟨rdy, _, 0, 0x80000000, adm (by decide +kernel), by decide +kernel, by decide +kernel⟩⟩

theorem wit_ContextRegisterWrites :
    (∃ (s w : State) (c : Nat) (v : BitVec 32) (x : BitVec 64), s.admits ⟨.ctxCtrl, c, 0⟩ w ∧ c < 512 ∧ x = setBit (w64 v) 8 true ∧
      bit x 9 = false ∧ bit x 10 = false ∧ (w.ctx c).st = .resident) ∧
    (∃ (s w : State) (c : Nat) (v : BitVec 32) (x : BitVec 64), s.admits ⟨.ctxCtrl, c, 0⟩ w ∧ c < 512 ∧ x = setBit (w64 v) 9 true ∧
      bit x 8 = false ∧ bit x 10 = false ∧ (w.ctx c).st = .saved) ∧
    (∃ (s w a : State) (c : Nat) (v : BitVec 32) (x : BitVec 64), s.admits ⟨.ctxCtrl, c, 0⟩ w ∧ c < 512 ∧ x = setBit (w64 v) 10 true
      ∧ bit x 8 = false ∧ bit x 9 = false ∧ (w.ctx c).st = .faulted ∧ (w.ctx c).torn = true ∧ w.residents < 64 ∧ a =
      (w.plainWrite ⟨.ctxCtrl, c, 0⟩ x).updCtx c (fun y => { y with st := .resident, fault := none, torn := false, keptNodes := [], keptSusp := [], savedCrc := none })) ∧
    (∃ (s w a : State) (edges : Bool) (c : Nat) (v : BitVec 32), s.admits ⟨winReg edges, c, 0⟩ w ∧ c < 512 ∧ bit (w64 v) 31 = true ∧
      bit (w.reg ⟨winReg edges, c, 0⟩) 31 = false ∧ w.winOk edges c (bits (w64 v) 0 10) (bits (w64 v) 16 11) = true ∧ a =
      w.plainWrite ⟨winReg edges, c, 0⟩ (w64 v)) ∧
    (∃ (s w a : State) (edges : Bool) (c : Nat) (v : BitVec 32), s.admits ⟨winReg edges, c, 0⟩ w ∧ c < 512 ∧ bit (w64 v) 31 = false ∧
      bit (w.reg ⟨winReg edges, c, 0⟩) 31 = true ∧ bits (w.reg ⟨winReg edges, c, 0⟩) 0 10 = bits (w64 v) 0 10 ∧ bits (w.reg ⟨winReg edges, c, 0⟩)
      16 11 = bits (w64 v) 16 11 ∧ w.ctxNodes c = [] ∧ a = w.plainWrite ⟨winReg edges, c, 0⟩ (w64 v)) ∧
    (∃ (s w : State) (c : Nat), s.admits ⟨.ctxRes, c, 0⟩ w ∧ c < 512) :=
  ⟨⟨cx rdy { st := .resident }, _, 0, 0x100, _, adm (by decide +kernel), by decide +kernel, rfl, by decide +kernel,
      by decide +kernel, by decide +kernel⟩,
    ⟨cx rdy { st := .saved }, _, 0, 0x200, _, adm (by decide +kernel), by decide +kernel, rfl, by decide +kernel, by decide +kernel,
      by decide +kernel⟩,
    ⟨cx rdy { st := .faulted, torn := true }, _, _, 0, 0x400, _, adm (by decide +kernel), by decide +kernel, rfl, by decide +kernel,
      by decide +kernel, by decide +kernel, by decide +kernel, by decide +kernel, rfl⟩,
    ⟨rdy, _, _, false, 511, 0x84000000, adm (by decide +kernel), by decide +kernel, by decide +kernel, by decide +kernel,
      by decide +kernel, rfl⟩,
    ⟨rg rdy .ctxNodes 0 0x80010000, _, _, false, 0, 0x00010000, adm (by decide +kernel), by decide +kernel, by decide +kernel,
      by decide +kernel, by decide +kernel, by decide +kernel, by decide +kernel, rfl⟩,
    ⟨rdy, _, 511, adm (by decide +kernel), by decide +kernel⟩⟩

theorem wit_SyncObjectRegisterWrites :
    (∃ (s w : State) (v : BitVec 32), s.admits ⟨.objSel, 0, 0⟩ w ∧ bits (w64 v) 24 2 ≠ 3 ∧ ((bits (w64 v) 24 2 = 2 → bits (w64 v) 0 18 < 65536))) ∧
    (∃ (s w a : State) (v x : BitVec 64) (kind c : Nat), s.admits ⟨.objInitCtrl, 0, 0⟩ w ∧ x = setBit v 63 true ∧ a = w.plainWrite
      ⟨.objInitCtrl, 0, 0⟩ x ∧ kind = a.fld ⟨.objSel, 0, 0⟩ 24 2 ∧ kind ≠ 2 ∧ c = a.fld ⟨.objInitCtrl, 0, 0⟩ 0 9 ∧ (a.obj a.selKey).pinned
      = false ∧ a.inPodRange (a.podOf c) kind (objIdx a.selKey) = true ∧ a.fld ⟨.objInitCtrl, 0, 0⟩ 12 2 ≠ 3) ∧
    (∃ (s w a : State) (v x : BitVec 64) (c role partner : Nat), s.admits ⟨.objInitCtrl, 0, 0⟩ w ∧ x = setBit v 63 true ∧ a =
      w.plainWrite ⟨.objInitCtrl, 0, 0⟩ x ∧ a.fld ⟨.objSel, 0, 0⟩ 24 2 = 2 ∧ c = a.fld ⟨.objInitCtrl, 0, 0⟩ 0 9 ∧ role = a.fld
      ⟨.objInitCtrl, 0, 0⟩ 12 2 ∧ partner = a.fld ⟨.objInitCtrl, 0, 0⟩ 32 16 ∧ (a.obj a.selKey).pinned = false ∧ a.inPodRange
      (a.podOf c) 2 (objIdx a.selKey) = true ∧ role ≠ 3 ∧ ((role ≠ 0 → a.inPodRange (a.podOf c) 2 partner = true ∧ partner ≠ objIdx a.selKey))
      ∧ ((role = 1 → a.fld ⟨.objInitCtrl, 0, 0⟩ 16 16 ≠ 0))) ∧
    (∃ (s w : State), s.admits ⟨.objFree, 0, 0⟩ w ∧ (w.obj w.selKey).pinned = false) ∧
    (∃ (s w : State), s.admits ⟨.xlatInv, 0, 0⟩ w ∧ w.sy.inv = none) ∧
    (∃ (s w a t : State) (v : BitVec 32) (x : BitVec 64) (d : List Byte × List Byte), s.admits ⟨.dumpCtrl, 0, 0⟩ w ∧ x = setBit (w64 v)
      0 true ∧ bits x 4 2 ≠ 3 ∧ w.sy.dumpBusy = false ∧ a = w.plainWrite ⟨.dumpCtrl, 0, 0⟩ x ∧ 64 ≤ a.fld ⟨.dumpSize, 0, 0⟩ 0 32
      ∧ d = a.dumpBytes (a.objKeys fun k o => match a.fld ⟨.dumpCtrl, 0, 0⟩ 4 2 with | 1 => a.inPodRange (a.fld ⟨.dumpCtrl, 0, 0⟩ 16 4) o.kind (objIdx k) | 2 => decide (o.owner.toNat = a.fld ⟨.dumpCtrl, 0, 0⟩ 16 9) && (decide (o.kind ≠ 1) || decide (o.value = 1)) | _ => true)
      (a.fld ⟨.dumpSize, 0, 0⟩ 0 32) ∧ ({ a with sy := { a.sy with dumpBusy := true, dumpAt := (a.reg ⟨.dumpAddr, 0, 0⟩).toNat, dumpHeader := d.1 } } : State).writeBytes
      devSpace ((a.reg ⟨.dumpAddr, 0, 0⟩).toNat + 64) d.2 = some t) :=
  ⟨⟨rdy, _, 0x0200FFFF, adm (by decide +kernel), by decide +kernel, by decide +kernel⟩,
    ⟨rg (rg rdy .podFlags 0 0x100000000) .objSel 0 0x01000000, _, _, 1, _, _, _, adm (by decide +kernel), rfl, rfl, rfl,
      by decide +kernel, rfl, by decide +kernel, by decide +kernel, by decide +kernel⟩,
    ⟨rg (rg rdy .podTallies 0 0x200000000) .objSel 0 0x02000000, _, _, 0x100011000, _, _, _, _, adm (by decide +kernel), rfl, rfl,
      by decide +kernel, rfl, rfl, rfl, by decide +kernel, by decide +kernel, by decide +kernel, by decide +kernel,
      by decide +kernel⟩,
    ⟨rdy, _, adm (by decide +kernel), by decide +kernel⟩,
    ⟨rdy, _, adm (by decide +kernel), by decide +kernel⟩,
    ⟨rg rdy .dumpSize 0 128, _, _, _, 1, _, _, adm (by decide +kernel), rfl, by decide +kernel, by decide +kernel, rfl,
      by decide +kernel, rfl, som (by decide +kernel)⟩⟩

theorem wit_GlobalControlWrites :
    (∃ (s w : State) (v : BitVec 32) (x : BitVec 64), s.admits ⟨.tsuMode, 0, 0⟩ w ∧ x = setBit (w64 v) 3 false ∧ bits x 0 2 = w.det) ∧
    (∃ (s w : State) (v : BitVec 32) (x : BitVec 64), s.admits ⟨.tsuMode, 0, 0⟩ w ∧ x = setBit (w64 v) 3 false ∧ bits x 0 2 ≠ w.det ∧
      bits x 0 2 ≠ 3 ∧ w.quiet = true) ∧
    (∃ (s w : State) (v : BitVec 32) (x : BitVec 64), s.admits ⟨.tsuMode, 0, 0⟩ w ∧ x = setBits (setBit (w64 v) 3 false) 0 2 s.det) ∧
    (∃ (s w : State) (v : BitVec 32) (x : BitVec 64), s.admits ⟨.tsuMode, 0, 0⟩ w ∧ x = setBit (w64 v) 3 true ∧ bits x 0 2 = 2 ∧
      w.quiet = true ∧ w.restartable = true) ∧
    (∃ (s w : State) (v : BitVec 32), s.admits ⟨.tsuReset, 0, 0⟩ w ∧ bits (w64 v) 8 8 = 0xA5 ∧ bit (w64 v) 0 = true) ∧
    (∃ (s w a : State) (v : BitVec 32), s.admits ⟨.tsuClken, 0, 0⟩ w ∧ (bit (w64 v) 31 = w.compat ∨ w.quiet = true) ∧ a =
      w.plainWrite ⟨.tsuClken, 0, 0⟩ (w64 v)) ∧
    (∃ (s w a : State) (v : BitVec 32), s.admits ⟨.tsuSettings, 0, 0⟩ w ∧ w.sv.reloading = false ∧ w.sv.reloadPending = false ∧ a =
      w.plainWrite ⟨.tsuSettings, 0, 0⟩ (setBit (w64 v) 0 true)) :=
  ⟨⟨rdy, _, 4, _, adm (by decide +kernel), rfl, by decide +kernel⟩,
    ⟨rdy, _, 2, _, adm (by decide +kernel), rfl, by decide +kernel, by decide +kernel, by decide +kernel⟩,
    ⟨rdy, _, 3, _, adm (by decide +kernel), rfl⟩,
    ⟨rdy, _, 0xA, _, adm (by decide +kernel), rfl, by decide +kernel, by decide +kernel, by decide +kernel⟩,
    ⟨rdy, _, 0xA501, adm (by decide +kernel), by decide +kernel, by decide +kernel⟩,
    ⟨rdy, _, _, 0x100, adm (by decide +kernel), by decide +kernel, rfl⟩,
    ⟨rdy, _, _, 1, adm (by decide +kernel), by decide +kernel, by decide +kernel, rfl⟩⟩

theorem wit_ServiceAndFaultRegisterWrites :
    (∃ (s w a : State) (v : BitVec 32) (x : BitVec 64), s.admits ⟨.spiCtrl, 0, 0⟩ w ∧ x = setBit (w64 v) 30 true ∧ w.sv.spiBusy =
      false ∧ bits x 16 7 ≤ 64 ∧ w.sv.reloading = false ∧ w.ready = true ∧ (bit x 24 && bit x 23) = false ∧ a = w.plainWrite
      ⟨.spiCtrl, 0, 0⟩ x) ∧
    (∃ (s w : State) (k : Nat), s.admits ⟨.fwCtrl, k, 0⟩ w ∧ k < 8 ∧ (w.core k).st ≠ 1 ∧ bit (w.reg ⟨.benchRegions, 0, 0⟩) k = false) ∧
    (∃ (s w : State), s.admits ⟨.fwCtrl, 8, 0⟩ w ∧ (w.core 8).st ≠ 1) ∧
    (∃ (s w : State) (k : Nat), s.admits ⟨.svWdog, k, 0⟩ w ∧ k < 9) ∧
    (∃ (s w : State) (v : BitVec 32) (x : BitVec 64), s.admits ⟨.svDraoft, 0, 0⟩ w ∧ x = setBit (w64 v) 8 true ∧ ((bit (w.reg ⟨.svDraoft, 0, 0⟩) 8 = true → bits x 0 2 ≤ w.fld ⟨.svDraoft, 0, 0⟩ 0 2))) ∧
    (∃ (s w : State) (v : BitVec 32) (c : Nat), s.admits ⟨.fcTeardown, 0, 0⟩ w ∧ c = bits (setBit (w64 v) 31 true) 0 9 ∧ (w.ctx c).st
      ≠ .unused ∧ (w.ctx c).st ≠ .faulted) ∧
    (∃ (s w : State) (v : BitVec 32) (q : Nat × Nat), s.admits ⟨.fcUnbench, 0, 0⟩ w ∧ q = (bits (setBit (w64 v) 31 true) 16 3, bits (setBit (w64 v) 31 true) 0 14)
      ∧ q ∉ w.fc.unbench ∧ w.benchedAt q.1 q.2 = true) :=
  ⟨⟨rdy, _, _, 0x00400003, _, adm (by decide +kernel), rfl, by decide +kernel, by decide +kernel, by decide +kernel,
      by decide +kernel, by decide +kernel, rfl⟩,
    ⟨rdy, _, 7, adm (by decide +kernel), by decide +kernel, by decide +kernel, by decide +kernel⟩,
    ⟨rdy, _, adm (by decide +kernel), by decide +kernel⟩,
    ⟨rdy, _, 8, adm (by decide +kernel), by decide +kernel⟩,
    ⟨rg rdy .svDraoft 0 0x103, _, 0x102, _, adm (by decide +kernel), rfl, by decide +kernel⟩,
    ⟨cx rdy { st := .resident }, _, 0x80000000, _, adm (by decide +kernel), rfl, by decide +kernel, by decide +kernel⟩,
    ⟨rg rdy .benchRegions 0 4, _, 0x80020002, _, adm (by decide +kernel), rfl, by decide +kernel, by decide +kernel⟩⟩

theorem wit_StopTraceAndInspectionWrites :
    (∃ (s w : State), s.admitsStop ⟨.obStop, 0, 0⟩ w ∧ w.ob.stop = .running) ∧
    (∃ (s w : State) (id : Nat), s.admitsStop ⟨.obStop, 0, 0⟩ w ∧ w.ob.stop ≠ .snapped ∧ id = w.fld ⟨.snapId, 0, 0⟩ 0 32 ∧ higher32
      id (w.fld ⟨.snapLast, 0, 0⟩ 0 32) = true) ∧
    (∃ (s w : State), s.admitsStop ⟨.obStop, 0, 0⟩ w ∧ w.fatal = false ∧ (w.ob.stop = .frozen ∨ w.ob.stop = .quiescing ∨ w.ob.stop = .quiesced)) ∧
    (∃ (s w : State), s.admitsStop ⟨.obStop, 0, 0⟩ w ∧ w.fatal = false ∧ w.ob.stop = .snapped) ∧
    (∃ (s w a : State) (v : BitVec 32) (x : BitVec 64), s.admitsStop ⟨.trcCfg, 0, 0⟩ w ∧ x = (if bits v 0 2 = 0 then setBits (w64 v) 0 2 1 else w64 v)
      ∧ bits x 0 2 ≠ 0 ∧ bits x 0 2 ≠ 3 ∧ w.trcMode = 0 ∧ ((bits x 0 2 = 2 → w.fld ⟨.trcCounts, 0, 0⟩ 24 24 ≠ 0 ∧ w.fld ⟨.trcCounts, 0, 0⟩ 0 24 + w.fld ⟨.trcCounts, 0, 0⟩ 24 24 ≤ 262143))
      ∧ a = w.plainWrite ⟨.trcCfg, 0, 0⟩ x) ∧
    (∃ (s w a : State) (v : BitVec 32), s.admitsStop ⟨.trcCfg, 0, 0⟩ w ∧ w.trcMode ≠ 0 ∧ (setBits (w64 v) 0 2 0 ^^^ w.reg ⟨.trcCfg, 0, 0⟩)
      &&& 0x14 = 0 ∧ a = w.plainWrite ⟨.trcCfg, 0, 0⟩ (setBits (w64 v) 0 2 0)) ∧
    (∃ (s w a : State), s.admitsStop ⟨.trcCtrl, 0, 0⟩ w ∧ w.trcMode = 2 ∧ w.tracing = true ∧ w.ob.triggered = false ∧ w.fld
      ⟨.trcTrig, 0, 0⟩ 16 2 = 2 ∧ a = { w with ob := { w.ob with trigSeen := w.ob.trigSeen + 1 } }) ∧
    (∃ (s w : State), s.admitsStop ⟨.gcntSnap, 0, 0⟩ w) ∧
    (∃ (s w : State) (size len : Nat) (body : List Byte), s.admitsStop ⟨.snapDumpCtrl, 0, 0⟩ w ∧ (w.ob.stop = .frozen ∨ w.ob.stop = .quiesced ∨ w.ob.stop = .snapped)
      ∧ w.ob.dumpBusy = false ∧ size = w.fld ⟨.snapDumpSize, 0, 0⟩ 0 32 ∧ 512 ≤ size ∧ len = min w.imageLen (size / 64 * 64) ∧
      body = (List.range (len - 512)).map (fun i => w.imageByte (512 + i))) ∧
    (∃ (s w a : State) (i : Nat) (v : BitVec 64), i < 10 ∧ s.admitsStop ⟨.inspSel, i, 0⟩ w ∧ bits v 0 16 = 0 ∧ a = w.plainWrite
      ⟨.inspSel, i, 0⟩ v) ∧
    (∃ (s w : State) (i j : Nat), i < 10 ∧ j < 16384 ∧ s.admitsStop ⟨.aperture, i, j⟩ w) :=
  ⟨⟨rdy, _, admStop (by decide +kernel), by decide +kernel⟩,
    ⟨rg rdy .snapId 0 1, _, _, admStop (by decide +kernel), by decide +kernel, rfl, by decide +kernel⟩,
    ⟨stopped .quiesced, _, admStop (by decide +kernel), by decide +kernel, by decide +kernel⟩,
    ⟨stopped .snapped, _, admStop (by decide +kernel), by decide +kernel, by decide +kernel⟩,
    ⟨rg rdy .trcCounts 0 0x000003000004, _, _, 0x0002, _, admStop (by decide +kernel), rfl, by decide +kernel, by decide +kernel,
      by decide +kernel, by decide +kernel, rfl⟩,
    ⟨rg rdy .trcCfg 0 1, _, _, 1, admStop (by decide +kernel), by decide +kernel, by decide +kernel, rfl⟩,
    ⟨rg (rg rdy .trcCfg 0 2) .trcTrig 0 0x20000, _, _, admStop (by decide +kernel), by decide +kernel, by decide +kernel,
      by decide +kernel, by decide +kernel, rfl⟩,
    ⟨rdy, _, admStop (by decide +kernel)⟩,
    ⟨rg (stopped .frozen) .snapDumpSize 0 512, _, _, _, _, admStop (by decide +kernel), by decide +kernel, by decide +kernel, rfl,
      by decide +kernel, rfl, rfl⟩,
    ⟨rdy, _, _, 9, 0x20000, by decide +kernel, admStop (by decide +kernel), by decide +kernel, rfl⟩,
    ⟨rdy, _, 9, 16383, by decide +kernel, by decide +kernel, admStop (by decide +kernel)⟩⟩

theorem wit_AnyRegisterAccess :
    (∃ (s w : State) (r : Reg), s.admits r w ∧ r.valid = true ∧ r.name ≠ .aperture) ∧
    (∃ (s w : State) (r : Reg), s.admits r w ∧ r.valid = true ∧ r.name ∈ [RegName.slowdownAddr, .podRegMem, .podRegLink, .syCfg, .dumpAddr, .dumpSize, .xlatBase, .tbBeatPorts, .trcSrc, .snapDumpAddr, .snapDumpSize, .liSystem, .tearDumpAddr, .tearDumpSize, .fwAddr, .tsuErr, .slotErr, .podErr, .gsErr, .syErr, .resErr, .roErr, .obErr, .liErr, .fcErr, .svErr, .tbErr, .tsuDisturb]) ∧
    (∃ (s w : State) (r : Reg), s.admits r w ∧ r.valid = true ∧ r.name ∈ [RegName.tsuIdent, .tsuLsTick, .tsuStart, .rqWr, .slotState, .slotDoneSeq, .slotOpen, .dlStatus, .roEpoch, .tbBeat, .tbTick, .tbStatus, .gcnt, .gcntShadow, .liCnt, .portStatus, .fcStatus, .mapSeq, .benchCells, .ctxFault, .fwStatus, .fwVersion, .ctxCnt]) ∧
    (∃ (s w : State) (r : Reg) (off : Nat), s.admitsStop r w ∧ target off false = some (r, .low)) ∧
    (∃ (s w : State) (who : Requester) (r : Reg) (off : Nat) (hi : BitVec 32), s.admitsStop r w ∧ target off false = some (r, .high)
      ∧ (w.halves who).rd = some (r.off, hi)) ∧
    (∃ (s w : State) (who : Requester) (r : Reg) (off : Nat), s.admitsStop r w ∧ target off false = some (r, .high) ∧ (w.halves who).rd
      = none) ∧
    (∃ (s w : State) (r : Reg) (off : Nat), s.admits r w ∧ target off false = some (r, .low) ∧ r.name ≠ .aperture) ∧
    (∃ (s w : State) (who : Requester) (r : Reg) (off : Nat) (lo : BitVec 32), s.admits r w ∧ target off false = some (r, .high) ∧
      r.name ≠ .aperture ∧ (w.halves who).wr = some (r.off, lo)) ∧
    (∃ (s w : State) (who : Requester) (r : Reg) (off : Nat), s.admits r w ∧ target off false = some (r, .high) ∧ r.name ≠ .aperture
      ∧ (w.halves who).wr = none) ∧
    (∃ (s w : State) (k : Nat), s.admitsStop ⟨.sliceRejects, k, 0⟩ w ∧ k < 64) ∧
    (∃ (s : State) (bar off size : Nat) (write : Bool), s.legal bar off size write = false) :=
  ⟨⟨rdy, _, ⟨.slotRing, 255, 0⟩, adm (by decide +kernel), by decide +kernel, by decide +kernel⟩,
    ⟨rdy, _, ⟨.tsuErr, 0, 0⟩, adm (by decide +kernel), by decide +kernel, by decide +kernel⟩,
    ⟨rdy, _, ⟨.tsuIdent, 0, 0⟩, adm (by decide +kernel), by decide +kernel, by decide +kernel⟩,
    ⟨rdy, _, ⟨.slotRing, 3, 0⟩, Reg.off ⟨.slotRing, 3, 0⟩, admStop (by decide +kernel), by decide +kernel⟩,
    ⟨halves (some (Reg.off ⟨.slotRing, 3, 0⟩, 7)) none, _, .host, ⟨.slotRing, 3, 0⟩, Reg.off ⟨.slotRing, 3, 0⟩ + 4, 7, admStop
      (by decide +kernel), by decide +kernel, by decide +kernel⟩,
    ⟨rdy, _, .host, ⟨.slotRing, 3, 0⟩, Reg.off ⟨.slotRing, 3, 0⟩ + 4, admStop (by decide +kernel), by decide +kernel,
      by decide +kernel⟩,
    ⟨rdy, _, ⟨.slotRing, 3, 0⟩, Reg.off ⟨.slotRing, 3, 0⟩, adm (by decide +kernel), by decide +kernel, by decide +kernel⟩,
    ⟨halves none (some (Reg.off ⟨.slotRing, 3, 0⟩, 7)), _, .host, ⟨.slotRing, 3, 0⟩, Reg.off ⟨.slotRing, 3, 0⟩ + 4, 7, adm
      (by decide +kernel), by decide +kernel, by decide +kernel, by decide +kernel⟩,
    ⟨rdy, _, .host, ⟨.slotRing, 3, 0⟩, Reg.off ⟨.slotRing, 3, 0⟩ + 4, adm (by decide +kernel), by decide +kernel, by decide +kernel,
      by decide +kernel⟩,
    ⟨rdy, _, 63, admStop (by decide +kernel), by decide +kernel⟩,
    ⟨rdy, 0, 2, 4, false, by decide +kernel⟩⟩

theorem wit_RosterAndTimebaseRegisterWrites :
    (∃ (s w : State) (k : Nat) (v : BitVec 32) (x : BitVec 64), s.admits ⟨.roCtrl, k, 0⟩ w ∧ k < 16 ∧ x = setBit (w64 v) 0 true ∧ bit
      x 2 = false ∧ (x ^^^ w.reg ⟨.roCtrl, k, 0⟩) &&& 0x30 = 0 ∧ bit (w.reg ⟨.roCtrl, k, 0⟩) 0 = false ∧ w.roEnableOk k = true) ∧
    (∃ (s w a : State) (k : Nat) (v : BitVec 32) (x : BitVec 64), s.admits ⟨.roCtrl, k, 0⟩ w ∧ k < 16 ∧ x = setBit (w64 v) 0 false ∧
      bit x 2 = false ∧ (x ^^^ w.reg ⟨.roCtrl, k, 0⟩) &&& 0x30 = 0 ∧ w.rosterHolds k = false ∧ a = w.plainWrite ⟨.roCtrl, k, 0⟩
      x) ∧
    (∃ (s w a : State) (k : Nat) (v : BitVec 32) (x : BitVec 64), s.admits ⟨.roCtrl, k, 0⟩ w ∧ k < 16 ∧ x = setBit (w64 v) 1 true ∧
      bit x 2 = false ∧ (x ^^^ w.reg ⟨.roCtrl, k, 0⟩) &&& 0x30 = 0 ∧ bit x 0 = bit (w.reg ⟨.roCtrl, k, 0⟩) 0 ∧ a = w.plainWrite
      ⟨.roCtrl, k, 0⟩ x) ∧
    (∃ (s w b a : State) (k : Nat) (v : BitVec 32) (x : BitVec 64) (t : Trick), s.admits ⟨.roCtrl, k, 0⟩ w ∧ k < 16 ∧ x = setBit (w64 v)
      2 true ∧ (w.ros k).trick = some t ∧ t.folded = false ∧ t.resulted = false ∧ b = (w.dropTrick k).each (w.trickNodes t.anchor)
      (fun t y => if (t.node y).st = .active ∧ (t.node y).d.kind = .loop then t else t.foldOne y) ∧ (x ^^^ b.reg ⟨.roCtrl, k, 0⟩)
      &&& 0x30 = 0 ∧ bit x 0 = bit (b.reg ⟨.roCtrl, k, 0⟩) 0 ∧ a = b.plainWrite ⟨.roCtrl, k, 0⟩ x) ∧
    (∃ (s w : State) (p : Nat) (v : BitVec 64), s.admits ⟨.podPages, p, 0⟩ w ∧ p < 16 ∧ w.pagesOut p = false ∧ bits v 0 24 + bits v
      32 25 ≤ 2 ^ 24 ∧ ((∀ q, q < 16 → q ≠ p → bits v 0 24 + bits v 32 25 ≤ bits (w.reg ⟨.podPages, q, 0⟩) 0 24 ∨ bits (w.reg ⟨.podPages, q, 0⟩) 0 24 + bits (w.reg ⟨.podPages, q, 0⟩) 32 25 ≤ bits v 0 24 ∨ bits v 32 25 = 0 ∨ bits (w.reg ⟨.podPages, q, 0⟩) 32 25 = 0))
      ∧ w.reserveSum p 16 0 ≤ bits v 32 25) ∧
    (∃ (s w a : State) (v : BitVec 32) (x : BitVec 64) (e : ResEnt), s.admits ⟨.resSel, 0, 0⟩ w ∧ x = setBit (w64 v) 16 true ∧ a =
      w.plainWrite ⟨.resSel, 0, 0⟩ x ∧ e = resOf (a.staged .resData 0 4 false) ∧ (e.target = 2 ∨ e.target = 3) ∧ e.st ≤ 4 ∧
      a.inPodRange e.fpod 0 e.flag = true ∧ ((e.st = 1 → (tget {} a.rs.resid (bits x 0 12) : ResEnt).st ≤ 1)) ∧ ((e.st < 2 → a.resBusy (bits x 0 12) = false))) ∧
    (∃ (s w a : State) (v : BitVec 32) (x : BitVec 64), s.admits ⟨.tbRelSel, 0, 0⟩ w ∧ x = setBit (w64 v) 16 true ∧ a = w.plainWrite
      ⟨.tbRelSel, 0, 0⟩ x ∧ a.relOk (a.staged .tbRelData 0 6 false) = true) :=
  ⟨⟨rg (rg (rg rdy .roBatch 15 0xFFFFFFFF) .roRetireAddr 15 0x1000) .roRetireShift 15 6, _, 15, 0, _, adm (by decide +kernel),
      by decide +kernel, rfl, by decide +kernel, by decide +kernel, by decide +kernel, by decide +kernel⟩,
    ⟨rdy, _, _, 15, 0, _, adm (by decide +kernel), by decide +kernel, rfl, by decide +kernel, by decide +kernel, by decide +kernel,
      rfl⟩,
    ⟨rg rdy .roCtrl 3 1, _, _, 3, 1, _, adm (by decide +kernel), by decide +kernel, rfl, by decide +kernel, by decide +kernel,
      by decide +kernel, rfl⟩,
    ⟨rg (rdy.updRos 3 fun x => { x with trick := some aTrick }) .roCtrl 3 1, _, _, _, 3, 1, _, aTrick, adm (by decide +kernel),
      by decide +kernel, rfl, by decide +kernel, by decide +kernel, by decide +kernel, rfl, by decide +kernel,
      by decide +kernel, rfl⟩,
    ⟨rdy, _, 15, 0x100000000000000, adm (by decide +kernel), by decide +kernel, by decide +kernel, by decide +kernel,
      by decide +kernel, by decide +kernel⟩,
    ⟨rg (rg rdy .podFlags 0 0x100000000) .resData 0 0x22, _, _, 0xFFF, _, _, adm (by decide +kernel), rfl, rfl, rfl,
      by decide +kernel, by decide +kernel, by decide +kernel, by decide +kernel, by decide +kernel⟩,
    ⟨rg (rg (rg (nd { st := .template }) .tbRelData 0 0x10000) .tbRelData 2 1) .tbRelData 3 1, _, _, 1023, _, adm
      (by decide +kernel), rfl, rfl, by decide +kernel⟩⟩

theorem wit_LinkRegisterWrites :
    (∃ (s w : State) (k : Nat) (v : BitVec 32) (x : BitVec 64), s.admits ⟨.portCfg, k, 0⟩ w ∧ k < 64 ∧ x = setBit (w64 v) 0 true ∧
      (w.port k).st = .disabled ∧ bit ((w.plainWrite ⟨.portCfg, k, 0⟩ x).reg ⟨.benchLe, 0, 0⟩) (k / 2) = false) ∧
    (∃ (s w : State) (k : Nat) (v : BitVec 32) (x : BitVec 64), s.admits ⟨.portCfg, k, 0⟩ w ∧ k < 64 ∧ x = setBit (w64 v) 0 false ∧
      (w.port k).st ≠ .disabled) ∧
    (∃ (s w : State) (k : Nat), s.admits ⟨.portCtrl, k, 0⟩ w ∧ k < 64 ∧ (w.port k).st = .mismatched ∧ ((w.port k).reason = 1 ∨ (w.port k).reason = 2)) ∧
    (∃ (s w a : State) (k : Nat) (v : BitVec 32), s.admits ⟨.portExpect, k, 0⟩ w ∧ k < 64 ∧ a = w.plainWrite ⟨.portExpect, k, 0⟩ (w64 v)) ∧
    (∃ (s w : State) (v : BitVec 32), s.admits ⟨.liRev, 0, 0⟩ w ∧ liRevOk v.toNat = true) ∧
    (∃ (s w a : State) (v : BitVec 32) (x : BitVec 64) (i : Nat) (e : List (BitVec 32)), s.admits ⟨.liServeSel, 0, 0⟩ w ∧ x = setBit
      (w64 v) 16 true ∧ i = bits x 0 12 ∧ a = w.plainWrite ⟨.liServeSel, 0, 0⟩ x ∧ e = serveClean (a.staged .liServeData 0 6 false)
      ∧ (serveValid e && a.li.serve.any fun y => decide (y.1 ≠ i) && serveValid y.2 && decide (serveExpert y.2 = serveExpert e))
      = false ∧ (normWords e = a.serveEnt i ∨ (a.li.calls.any fun y => decide (y.1 / 256 = i) && y.2.busy) = false) ∧ bits
      (wordAt e 3) 0 6 = 0) :=
  ⟨⟨rdy, _, 63, 0, _, adm (by decide +kernel), by decide +kernel, rfl, by decide +kernel, by decide +kernel⟩,
    ⟨rdy.updPort 63 fun x => { x with st := .up }, _, 63, 0, _, adm (by decide +kernel), by decide +kernel, rfl, by decide +kernel⟩,
    ⟨rdy.updPort 63 fun x => { x with st := .mismatched, reason := 1 }, _, 63, adm (by decide +kernel), by decide +kernel,
      by decide +kernel, by decide +kernel⟩,
    ⟨rdy, _, _, 63, 9, adm (by decide +kernel), by decide +kernel, rfl⟩,
    ⟨rdy, _, 0x0504, adm (by decide +kernel), by decide +kernel⟩,
    ⟨rdy, _, _, 4095, _, _, _, adm (by decide +kernel), rfl, rfl, rfl, rfl, by decide +kernel, by decide +kernel, by decide +kernel⟩⟩

theorem wit_PageReadsAndReadsWhileSnapped :
    (∃ (s w : State) (n : Nat), s.ready = true ∧ s.inputsWait = false ∧ s.gated 0 = false ∧ ((s.ob.snapHeld = [] ∨ s.ob.stop = .snapped))
      ∧ w = s.wake 0 ∧ n < 256) ∧
    (∃ (s w : State) (n : Nat) (hi : _), s.ready = true ∧ s.inputsWait = false ∧ s.gated 0 = false ∧ ((s.ob.snapHeld = [] ∨ s.ob.stop = .snapped))
      ∧ w = s.wake 0 ∧ n < 256 ∧ (w.halves .host).rd = some (bar2 + n * 0x1000 + 8, hi)) ∧
    (∃ (s w : State) (n : Nat), s.ready = true ∧ s.inputsWait = false ∧ s.gated 0 = false ∧ ((s.ob.snapHeld = [] ∨ s.ob.stop = .snapped))
      ∧ w = s.wake 0 ∧ n < 256 ∧ (w.halves .host).rd = none) ∧
    (∃ (s w : State) (n : Nat) (o : _), s.ready = true ∧ s.inputsWait = false ∧ s.gated 0 = false ∧ ((s.ob.snapHeld = [] ∨ s.ob.stop = .snapped))
      ∧ w = s.wake 0 ∧ n < 256 ∧ 16 ≤ o ∧ o < 0x1000) ∧
    (∃ (s : State), s.ready = false ∧ s.inputsWait = false ∧ ((s.ob.snapHeld = [] ∨ s.ob.stop = .snapped))) ∧
    (∃ (s w : State) (r : Reg), s.ready = true ∧ s.ob.stop = .snapped ∧ s.unitGated r = false ∧ w = s.wakeFor r ∧ r.valid = true ∧
      r.off / 0x10000 ≠ 8 ∧ r.off / 0x10000 ≠ 11 ∧ r.name ∈ [RegName.tsuDisturb, .rqStalls, .slotDbIgnored, .liCnt, .portCfg, .tbBeat, .tbTick, .tbErr, .ctxSlice, .portStatus]) :=
  ⟨⟨rdy, _, 5, by decide +kernel, by decide +kernel, by decide +kernel, by decide +kernel, rfl, by decide +kernel⟩,
    ⟨{ rdy with latches := [(.host, { rd := some (bar2 + 5 * 0x1000 + 8, 7), wr := none })] }, _, 5, 7, by decide +kernel,
      by decide +kernel, by decide +kernel, by decide +kernel, rfl, by decide +kernel, by decide +kernel⟩,
    ⟨rdy, _, 5, by decide +kernel, by decide +kernel, by decide +kernel, by decide +kernel, rfl, by decide +kernel, by decide +kernel⟩,
    ⟨rdy, _, 5, 0x20, by decide +kernel, by decide +kernel, by decide +kernel, by decide +kernel, rfl, by decide +kernel,
      by decide +kernel, by decide +kernel⟩,
    ⟨State.reset, by decide +kernel, by decide +kernel, by decide +kernel⟩,
    ⟨stopped .snapped, _, ⟨.rqStalls, 0, 0⟩, by decide +kernel, by decide +kernel, by decide +kernel, rfl, by decide +kernel,
      by decide +kernel, by decide +kernel, by decide +kernel⟩⟩

theorem wit_SlotFetchEvents :
    (∃ (s t : State) (n v : Nat), (s.slot n).st = .idle ∧ s.slotShadow n = true ∧ s.live 0 = true ∧ (s.slot n).polledAt + s.fld
      ⟨.slotCfg, n, 0⟩ 25 7 ≤ s.now ∧ s.atOnce (some (ctxSpace (s.slotCtx n), (s.reg ⟨.slotShadow, n, 0⟩).toNat)) = true ∧ t =
      (s.updSlot n fun x => { x with polledAt := s.now }).noteHost (ctxSpace (s.slotCtx n)) (s.reg ⟨.slotShadow, n, 0⟩).toNat ∧
      t.readWord (ctxSpace (s.slotCtx n)) (s.reg ⟨.slotShadow, n, 0⟩).toNat 4 = some v) ∧
    (∃ (s a : State) (n : Nat) (es : List Entry), s.nextFetch = some n ∧ s.fetchesOut.length < 8 ∧ (s.slot n).st = .fetching ∧
      (s.slot n).idleCheck = false ∧ s.live 0 = true ∧ s.fetchCount n ≠ 0 ∧ ((∀ e, (s.slot n).buf.getLast? = some e → e.bytes ≠ none))
      ∧ s.atOnce (some (ctxSpace (s.slotCtx n), (s.reg ⟨.slotRing, n, 0⟩).toNat + (s.slot n).wdev.toNat % s.ringSize n * 64)) =
      true ∧ a = { s with fe := { s.fe with lastFetch := tput 255 s.fe.lastFetch (s.slotPrio n) n } } ∧ es = a.readEntries n
      (s.slot n).wdev (s.fetchCount n)) ∧
    (∃ (s : State) (n : Nat), (s.slot n).st = .fetching ∧ (s.slot n).idleCheck = true ∧ s.live 0 = true ∧ ((s.slotShadow n = true → s.atOnce (some (ctxSpace (s.slotCtx n), (s.reg ⟨.slotShadow, n, 0⟩).toNat)) = true))) ∧
    (∃ (s a b : State) (n : Nat) (qs : List Nat), (s.slot n).st = .destroying ∧ s.runs 0 = true ∧ qs = s.openCmds n ∧ qs.all
      (s.cmdSettled n) = true ∧ (s.slot n).waiting.any CplRec.destroyed = false ∧ s.latchOn n = false ∧ a = (s.each qs fun t q => t.freeCmd n q).bump
      (gcnt 13) qs.length ∧ a.latchOn n = false ∧ b = a.fileRecord n { seq := (s.slot n).nextSeq.toNat - 1, status := 2, folded := (qs.map fun q => ((s.cmd n q).map Cmd.folded).getD 0).sum, drained := min (qs.map fun q => ((s.cmd n q).map Cmd.drained).getD 0).sum 65535, killed := min (qs.map fun q => ((s.cmd n q).map Cmd.killed).getD 0).sum 65535, ctx := s.slotCtx n, destroyed := true }) ∧
    (∃ (s : State) (n t : Nat), (s.slot n).irqSince = some t ∧ t + s.fld ⟨.slotIrq, n, 0⟩ 16 10 ≤ s.now ∧ s.runs 0 = true) :=
  ⟨⟨rg (slt rdy { st := .idle }) .slotCfg 0 4, _, 0, 0, by decide +kernel, by decide +kernel, by decide +kernel, by decide +kernel,
      by decide +kernel, rfl, by decide +kernel⟩,
    ⟨rg (slt rdy { st := .fetching, whost := 2 }) .slotCfg 0 0x3000, _, 0, _, by decide +kernel, by decide +kernel,
      by decide +kernel, by decide +kernel, by decide +kernel, by decide +kernel, (fun e h => nomatch (show (none : Option Entry) = some e from h)),
      by decide +kernel, rfl, rfl⟩,
    ⟨slt rdy { st := .fetching, idleCheck := true }, 0, by decide +kernel, by decide +kernel, by decide +kernel, by decide +kernel⟩,
    ⟨slt rdy { st := .destroying }, _, _, 0, _, by decide +kernel, by decide +kernel, rfl, by decide +kernel, by decide +kernel,
      by decide +kernel, rfl, by decide +kernel, rfl⟩,
    ⟨slt rdy { irqSince := some 0 }, 0, 0, by decide +kernel, by decide +kernel, by decide +kernel⟩⟩

theorem wit_DescriptorsApplied :
    (∃ (s : State) (n : Nat) (e : Entry) (rest : List Entry) (bs : List Byte), (s.slot n).buf = e :: rest ∧ e.bytes = some bs ∧
      (RingDesc.ofBytes bs).opcode = 0 ∧ s.headOpen n (RingDesc.ofBytes bs) = true ∧ s.live 0 = true) ∧
    (∃ (s a t : State) (n : Nat) (d : RingDesc) (g : List (List Byte) × List (BitVec 32)), s.heads n 1 d ∧ s.atOnce (s.headArray n) =
      true ∧ a = (s.taken n d).noteArrays n d ∧ a.fetchArrays n d = some g ∧ a.applyGraph (a.graphOf n d (n, (s.slot n).nextSeq.toNat) g)
      = .ok t) ∧
    (∃ (s a t : State) (n : Nat) (d : RingDesc) (g : List (List Byte) × List (BitVec 32)) (c : Cmd), s.heads n 2 d ∧ s.atOnce
      (s.headArray n) = true ∧ (s.popHead n).cmd d.cmdSlot d.cmdSeq = some c ∧ a = (s.popHead n).noteArrays n d ∧ a.fetchArrays
      n d = some g ∧ a.applyGraph (a.graphOf n d (d.cmdSlot, d.cmdSeq) g) = .ok t) ∧
    (∃ (s a : State) (n : Nat) (d : RingDesc), s.heads n 3 d ∧ a = s.taken n d ∧ a.nodesValid d.ctx = true ∧ d.w10 + d.w14 ≤
      a.nodeWin d.ctx ∧ ((∀ j, j < d.w14 → (a.node (nk d.ctx (d.w10 + j))).st = .template))) ∧
    (∃ (s a : State) (n : Nat) (d : RingDesc) (bs : List Byte), s.heads n 4 d ∧ s.atOnce (s.headArray n) = true ∧ a = (s.taken n d).noteHost
      ((s.taken n d).arraySpace n d) d.addr ∧ a.readBytes ((s.taken n d).arraySpace n d) d.addr (128 * d.w10) = some bs) ∧
    (∃ (s a : State) (n : Nat) (d : RingDesc) (bs : List Byte), s.heads n 5 d ∧ s.atOnce (s.headArray n) = true ∧ a = (s.taken n d).noteHost
      ((s.taken n d).arraySpace n d) d.addr ∧ a.readBytes ((s.taken n d).arraySpace n d) d.addr (16 * d.w10) = some bs) ∧
    (∃ (s a : State) (n : Nat) (d : RingDesc) (bs : List Byte), s.heads n 6 d ∧ s.atOnce (s.headArray n) = true ∧ a = (s.taken n d).noteHost
      ((s.taken n d).arraySpace n d) d.addr ∧ a.readBytes ((s.taken n d).arraySpace n d) d.addr (4 * d.w10) = some bs) ∧
    (∃ (s a : State) (n : Nat) (d : RingDesc), s.heads n 7 d ∧ a = s.taken n d) ∧
    (∃ (s a : State) (n : Nat) (d : RingDesc), s.heads n 8 d ∧ a = s.taken n d) :=
  ⟨⟨headed wins (rb 0 0 0 0 0 0 0), 0, ⟨0, some (rb 0 0 0 0 0 0 0)⟩, [], rb 0 0 0 0 0 0 0, by decide +kernel, by decide +kernel,
      by decide +kernel, by decide +kernel, by decide +kernel⟩,
    ⟨headed joinAt (rb 1 0x1000 0 1 0 0 0), _, _, 0, RingDesc.ofBytes (rb 1 0x1000 0 1 0 0 0), _, hd (by decide +kernel),
      by decide +kernel, rfl, som (by decide +kernel), okOf (by decide +kernel)⟩,
    ⟨headed (joinAt.setCmd 0 1 {}) (rb 2 0x1000 0 1 0 0 1), _, _, 0, RingDesc.ofBytes (rb 2 0x1000 0 1 0 0 1), _, {}, hd
      (by decide +kernel), by decide +kernel, by decide +kernel, rfl, som (by decide +kernel), okOf (by decide +kernel)⟩,
    ⟨headed (nd { st := .template }) (rb 3 0 0 1 0 0 0), _, 0, RingDesc.ofBytes (rb 3 0 0 1 0 0 0), hd (by decide +kernel), rfl,
      by decide +kernel, by decide +kernel, by decide +kernel⟩,
    ⟨headed wins (rb 4 0x1000 1 0 0 0 0), _, 0, RingDesc.ofBytes (rb 4 0x1000 1 0 0 0 0), _, hd (by decide +kernel),
      by decide +kernel, rfl, som (by decide +kernel)⟩,
    ⟨headed wins (rb 5 0x1000 1 0 0 0 0), _, 0, RingDesc.ofBytes (rb 5 0x1000 1 0 0 0 0), _, hd (by decide +kernel),
      by decide +kernel, rfl, som (by decide +kernel)⟩,
    ⟨headed wins (rb 6 0x1000 1 0 0 0 0), _, 0, RingDesc.ofBytes (rb 6 0x1000 1 0 0 0 0), _, hd (by decide +kernel),
      by decide +kernel, rfl, som (by decide +kernel)⟩,
    ⟨headed (wins.setCmd 0 1 {}) (rb 7 0 0 0 0 0 1), _, 0, RingDesc.ofBytes (rb 7 0 0 0 0 0 1), hd (by decide +kernel), rfl⟩,
    ⟨headed wins (rb 8 5 0 0 0 0 0), _, 0, RingDesc.ofBytes (rb 8 5 0 0 0 0 0), hd (by decide +kernel), rfl⟩⟩

theorem wit_CommandsRetireAndPointersResolve :
    (∃ (s a0 a b : State) (n seq : Nat) (x : Cmd) (e : Nat × Nat), s.cmd n seq = some x ∧ x.applied = true ∧ x.owesPacket = false ∧
      (s.slot n).st ≠ .destroying ∧ s.tearing x.ctx = false ∧ s.away x.ctx = false ∧ s.cmdSettled n seq = true ∧ s.runs 0 = true
      ∧ x.startLatched = false ∧ e = x.ending.getD (stOK, 0) ∧ a0 = (s.freeCmd n seq).bump (gcnt 13) 1 ∧ a = (if a0.cmdsOfCtx x.ctx = [] then a0.unblockIdle x.ctx else a0)
      ∧ (b = (if e.1 ≠ stOK ∨ x.dflags.testBit 1 = true then a.updSlot n fun y => { y with notes := y.notes ++ [(seq, decide (e.1 ≠ stOK))] } else a))) ∧
    (∃ (s t : State) (n : Nat) (r : CplRec) (rest : List CplRec), (s.slot n).waiting = r :: rest ∧ s.cplFull n = false ∧ s.runs 0 =
      true ∧ (s.updSlot n fun x => { x with waiting := rest }).slotWrite n (bits (s.reg ⟨.slotCpl, n, 0⟩) 6 58 * 64 + (s.reg ⟨.slotCplWr, n, 0⟩).toNat % s.cplSize n * 32)
      (r.bytes n) = (t, true)) ∧
    (∃ (s : State) (n seq : Nat) (x : Cmd), s.cmd n seq = some x ∧ s.fld ⟨.cmdLimit, 0, 0⟩ 0 32 < x.age ∧ x.ending = none ∧ (s.ctx x.ctx).st
      = .resident ∧ s.runs 0 = true ∧ s.timersOn = true) ∧
    (∃ (s t : State) (c i p : Nat), (s.node (nk c i)).st = .ready ∧ (s.node (nk c i)).indirect = true ∧ (s.node (nk c i)).ptr = none
      ∧ (((s.node (nk c i)).d.kind = .task ∨ (s.node (nk c i)).d.kind = .sprout)) ∧ s.runs 1 = true ∧ s.atOnce (some (ctxSpace (s.node (nk c i)).ptrCtx, (s.node (nk c i)).d.b.toNat))
      = true ∧ t = s.noteHost (ctxSpace (s.node (nk c i)).ptrCtx) (s.node (nk c i)).d.b.toNat ∧ t.readWord (ctxSpace (s.node (nk c i)).ptrCtx)
      (s.node (nk c i)).d.b.toNat 8 = some p ∧ p % 256 = 0) ∧
    (∃ (s : State) (i : Nat), bit (s.reg ⟨.tileOwner, i, 0⟩) 5 = true ∧ s.tileIdle i = true) :=
  ⟨⟨(slt wins { st := .idle }).setCmd 0 1 { applied := true, dflags := 2 }, _, _, _, 0, 1, { applied := true, dflags := 2 }, _,
      by decide +kernel, by decide +kernel, by decide +kernel, by decide +kernel, by decide +kernel, by decide +kernel,
      by decide +kernel, by decide +kernel, by decide +kernel, rfl, rfl, rfl, rfl⟩,
    ⟨slt ringed { waiting := [{ seq := 1 }] }, _, 0, { seq := 1 }, [], by decide +kernel, by decide +kernel, by decide +kernel,
      Prod.ext rfl (by decide +kernel)⟩,
    ⟨rg (wins.setCmd 0 1 { age := 1 }) .cmdLimit 0 0, 0, 1, { age := 1 }, by decide +kernel, by decide +kernel, by decide +kernel,
      by decide +kernel, by decide +kernel, by decide +kernel⟩,
    ⟨put (nd { st := .ready, indirect := true, d := { b := 0x1000 } }) 0x1000 [0, 7], _, 0, 0, 0x700, by decide +kernel,
      by decide +kernel, by decide +kernel, by decide +kernel, by decide +kernel, by decide +kernel, rfl, by decide +kernel,
      by decide +kernel⟩,
    ⟨rg rdy .tileOwner 383 0x30, 383, by decide +kernel, by decide +kernel⟩⟩

set_option maxRecDepth 100000 in
theorem wit_ContextsSaveAndRestore :
    (∃ (s a t : State) (c : Nat), s.saveSettled c = true ∧ s.runs 1 = true ∧ (s.ctx c).faultedInSave = false ∧ (s.ctx c).st = .saving
      ∧ a = (s.withdrawAll c).flushXlat c ∧ (a.saveImage c).length ≤ (a.reg ⟨.ctxSaveSize, c, 0⟩).toNat ∧ a.writeBytes devSpace
      (a.reg ⟨.ctxSaveAddr, c, 0⟩).toNat (a.saveImage c) = some t) ∧
    (∃ (s a t : State) (c : Nat) (img : List Byte), (s.ctx c).st = .restoring ∧ s.runs 1 = true ∧ s.atOnce (some (devSpace, (s.reg ⟨.ctxSaveAddr, c, 0⟩).toNat))
      = true ∧ a = s.noteHost devSpace (s.reg ⟨.ctxSaveAddr, c, 0⟩).toNat ∧ a.readImage c = .ok img ∧ a.restoreCause c img =
      none ∧ t = (a.restoreFrom c img).settlePend c ∧ (t.pod (s.podOf c)).swapIn = none) ∧
    (∃ (s a b d : State) (e addr u : Nat) (q : Option Nat) (l : Launch), (s.eng e).job = some l ∧ (s.eng e).susp = some (u, addr, q)
      ∧ s.portHolds e = false ∧ (s.eng e).reset = none ∧ s.runs 2 = true ∧ a = ((s.closeWatch e).updEng e fun x => { x with susp := none }).freeUp
      e ∧ b = a.addEnt (engRegion e) l.key (some { launch := l, engine := e, addr := addr, since := a.now, claims := (s.eng e).claims })
      ∧ d = (b.bump (ctxCnt l.ctx 3) 1).traceNode 5 (engRegion e) l.key (some e) l.panel) ∧
    (∃ (s : State) (e t addr : Nat) (q : Option Nat) (l : Launch), (s.eng e).job = some l ∧ (s.eng e).susp = some (t, addr, q) ∧ t +
      s.fld ⟨.podPreempt, s.podOf l.ctx, 0⟩ 16 10 ≤ s.now ∧ s.runs 2 = true) ∧
    (∃ (s : State) (f : Nat) (d : Donation), s.sy.donations.find? (fun d => decide (d.flag = f)) = some d ∧ d.since + s.fld
      ⟨.donateLimit, 0, 0⟩ 0 20 ≤ s.now ∧ s.timersOn = true ∧ s.runs 3 = true) ∧
    (∃ (s a : State) (p t : Nat), (s.pod p).allSince = some t ∧ s.allBlockedNow p = true ∧ (s.pod p).allRaised = false ∧ t + s.fld
      ⟨.stallWindow, 0, 0⟩ 0 16 ≤ s.now ∧ s.timersOn = true ∧ s.runs 1 = true ∧ a = s.updPod p (fun x => { x with allRaised := true })) ∧
    (∃ (s : State) (p o h : Nat) (q : List Nat), (s.pod p).swapOut = some o ∧ (s.ctx o).st = .saved ∧ (s.ctx o).faultedInSave = false
      ∧ s.runs 1 = true ∧ (s.pod p).swapq = h :: q ∧ (s.ctx h).st = .saved ∧ s.podOf h = p) :=
  ⟨⟨saving, _, _, 0, by decide +kernel, by decide +kernel, by decide +kernel, by decide +kernel, rfl, by decide +kernel, som
      (by decide +kernel)⟩,
    ⟨restoring, _, _, 0, _, by decide +kernel, by decide +kernel, by decide +kernel, rfl, okOf (by decide +kernel),
      by decide +kernel, rfl, by decide +kernel⟩,
    ⟨job0 { susp := some (3, 0x5000, none) }, _, _, _, 0, 0x5000, 3, none, {}, by decide +kernel, by decide +kernel,
      by decide +kernel, by decide +kernel, by decide +kernel, rfl, rfl, rfl⟩,
    ⟨rg (job0 { susp := some (0, 0x5000, some 9) }) .podPreempt 0 0, 0, 0, 0x5000, some 9, {}, by decide +kernel, by decide +kernel,
      by decide +kernel, by decide +kernel⟩,
    ⟨({ rdy with sy := { rdy.sy with donations := [⟨5, 0, 0, false⟩] } } : State).setReg ⟨.donateLimit, 0, 0⟩ 0, 5, ⟨5, 0, 0, false⟩,
      by decide +kernel, by decide +kernel, by decide +kernel, by decide +kernel⟩,
    ⟨rg ((wins.setCmd 0 1 {}).updPod 0 fun x => { x with allSince := some 0 }) .stallWindow 0 0, _, 0, 0, by decide +kernel,
      by decide +kernel, by decide +kernel, by decide +kernel, by decide +kernel, by decide +kernel, rfl⟩,
    ⟨(cx (rdy.updCtx 1 fun x => { x with st := .saved }) { st := .saved }).updPod 0 fun x => { x with swapOut := some 0, swapq := [1] },
      0, 0, 1, [], by decide +kernel, by decide +kernel, by decide +kernel, by decide +kernel, by decide +kernel,
      by decide +kernel, by decide +kernel⟩⟩

theorem wit_EngineSyncOperations :
    (∃ (s a b : State) (e vid : Nat) (sc : Sys2Proof.Scope) (q : SyncReq) (w : BitVec 64) (key : Nat), s.asks a e vid sc .set q w key
      ∧ b = (a.counted q.src.ctx).signalled key q) ∧
    (∃ (s a b : State) (e vid : Nat) (sc : Sys2Proof.Scope) (q : SyncReq) (w : BitVec 64) (key : Nat), s.asks a e vid sc .clear q w
      key ∧ b = (a.counted q.src.ctx).signalled key q) ∧
    (∃ (s a b : State) (e vid : Nat) (sc : Sys2Proof.Scope) (q : SyncReq) (w : BitVec 64) (key v p : Nat) (amt : BitVec 48), s.asks a
      e vid sc (.advance amt.toNat) q w key ∧ b = (a.counted q.src.ctx).signalled key q ∧ v = (b.obj key).value.toNat +
      amt.toNat ∧ p = (b.obj (2 ^ 18 + (b.obj key).partner.toNat)).value.toNat) ∧
    (∃ (s a b t : State) (e vid : Nat) (sc : Sys2Proof.Scope) (q : SyncReq) (w : BitVec 64) (key : Nat), s.asks a e vid sc .release q
      w key ∧ b = (a.counted q.src.ctx).signalled key q ∧ (b.obj key).value ≠ 0 ∧ (b.obj key).owner.toNat = q.src.ctx ∧ t =
      (b.endDonation key).forgetClaim key) ∧
    (∃ (s a b : State) (e vid : Nat) (sc : Sys2Proof.Scope) (q : SyncReq) (w : BitVec 64) (key : Nat), s.asks a e vid sc .release q w
      key ∧ b = (a.counted q.src.ctx).signalled key q ∧ ((b.obj key).value = 0 ∨ (b.obj key).owner.toNat ≠ q.src.ctx)) ∧
    (∃ (s a : State) (e vid : Nat) (sc : Sys2Proof.Scope) (q : SyncReq) (w : BitVec 64) (key : Nat) (cond : Cond) (thr : BitVec 48),
      cond ≠ .claim ∧ s.asks a e vid sc (.wait (condCode cond) thr.toNat) q w key) ∧
    (∃ (s a : State) (e vid : Nat) (sc : Sys2Proof.Scope) (q : SyncReq) (w : BitVec 64) (key : Nat), s.asks a e vid sc .claim q w key) ∧
    (∃ (s a : State) (e vid : Nat) (sc : Sys2Proof.Scope) (q : SyncReq) (w : BitVec 64) (key : Nat), s.asks a e vid sc .tryClaim q w
      key) ∧
    (∃ (s a : State) (e vid : Nat) (sc : Sys2Proof.Scope) (q : SyncReq) (w : BitVec 64) (key : Nat), s.asks a e vid sc .read q w key) :=
  ⟨⟨synced 0 { alloc := true }, _, _, 0, 3, .tile, _, 0x8000000000000005, 5, ask {} (by decide +kernel) (rch 0x8000000000000005 (by decide +kernel)),
      rfl⟩,
    ⟨synced 0 { alloc := true }, _, _, 0, 3, .tile, _, 0x8000000000000005, 5, ask {} (by decide +kernel) (rch 0x8000000000000005 (by decide +kernel)),
      rfl⟩,
    ⟨synced 1 { alloc := true, kind := 2 }, _, _, 0, 3, .tile, _, 0xA000000000000005, (2 ^ 18 + 5), _, _, 7, ask {}
      (by decide +kernel) (rch 0xA000000000000005 (by decide +kernel)), rfl, rfl, rfl⟩,
    ⟨synced 2 { alloc := true, kind := 1, value := 1 }, _, _, _, 0, 3, .tile, _, 0xC000000000000005, 5, ask {} (by decide +kernel)
      (rch 0xC000000000000005 (by decide +kernel)), rfl, by decide +kernel, by decide +kernel, rfl⟩,
    ⟨synced 2 { alloc := true, kind := 1, value := 0 }, _, _, 0, 3, .tile, _, 0xC000000000000005, 5, ask {} (by decide +kernel) (rch 0xC000000000000005 (by decide +kernel)),
      rfl, by decide +kernel⟩,
    ⟨synced 1 { alloc := true, kind := 2 }, _, 0, 3, .tile, _, 0xA000000000000005, (2 ^ 18 + 5), .tallyAtLeast, 4, by decide, ask {}
      (by decide +kernel) (rch 0xA000000000000005 (by decide +kernel))⟩,
    ⟨synced 2 { alloc := true, kind := 1 }, _, 0, 3, .tile, _, 0xC000000000000005, 5, ask {} (by decide +kernel) (rch 0xC000000000000005 (by decide +kernel))⟩,
    ⟨synced 2 { alloc := true, kind := 1 }, _, 0, 3, .tile, _, 0xC000000000000005, 5, ask {} (by decide +kernel) (rch 0xC000000000000005 (by decide +kernel))⟩,
    ⟨synced 2 { alloc := true, kind := 1 }, _, 0, 3, .tile, _, 0xC000000000000005, 5, ask {} (by decide +kernel) (rch 0xC000000000000005 (by decide +kernel))⟩⟩

theorem wit_SyncNodesTranslationsAndInvalidations :
    (∃ (s : State) (c i : Nat) (d : Desc), d = (s.node (nk c i)).d ∧ (s.node (nk c i)).st = .ready ∧ d.kind = .signal ∧ s.runs 3 =
      true) ∧
    (∃ (s : State) (c i : Nat) (d : Desc), d = (s.node (nk c i)).d ∧ (s.node (nk c i)).st = .ready ∧ d.kind = .wait ∧ s.runs 3 = true
      ∧ s.saveHolds (nk c i) = false) ∧
    (∃ (s t : State) (k : Nat) (w : BitVec 64) (rest : List (Nat × BitVec 64)), s.sy.recWait = (k, w) :: rest ∧ s.nodeRecords <
      126816 ∧ s.runs 3 = true ∧ t = (match s.entryCause (s.waitReq k) w with | some cause => s.syncFail (s.waitReq k) cause | none => s.applyOp (entryKey w) (s.waitReq k) w)) ∧
    (∃ (s t : State) (c v a w : Nat) (qs : List SyncReq), qs = sortBy (fun x y => decide (s.reqRank x ≤ s.reqRank y))
      (s.sy.xlatWait.filter fun q => decide (q.src.ctx = c) && decide (q.vid = v)) ∧ qs ≠ [] ∧ s.runs 3 = true ∧ v < s.fld
      ⟨.xlatLimit, c, 0⟩ 0 25 ∧ a = (s.reg ⟨.xlatBase, c, 0⟩).toNat + 8 * v ∧ s.atOnce (some (ctxSpace c, a)) = true ∧ t = ({ s with sy := { s.sy with xlatWait := s.sy.xlatWait.filter fun q => !(decide (q.src.ctx = c) && decide (q.vid = v)) } } : State).noteHost
      (ctxSpace c) a ∧ t.readWord (ctxSpace c) a 8 = some w) ∧
    (∃ (s : State) (c v : Nat) (qs : List SyncReq), qs = sortBy (fun x y => decide (s.reqRank x ≤ s.reqRank y)) (s.sy.xlatWait.filter fun q => decide (q.src.ctx = c) && decide (q.vid = v))
      ∧ qs ≠ [] ∧ s.runs 3 = true ∧ s.fld ⟨.xlatLimit, c, 0⟩ 0 25 ≤ v ∧ s.atOnce (some (ctxSpace c, (s.reg ⟨.xlatBase, c, 0⟩).toNat + 8 * v))
      = true) ∧
    (∃ (s : State) (c : Nat) (v : Option Nat), s.sy.inv = some (c, v) ∧ s.runs 3 = true) ∧
    (∃ (s t : State), s.sy.dumpBusy = true ∧ s.writeBytes devSpace s.sy.dumpAt s.sy.dumpHeader = some t) ∧
    (∃ (s : State) (e addr len : Nat), (s.eng e).job.isSome = true ∧ (s.eng e).inval = false ∧ addr % 64 = 0 ∧ 1 ≤ len ∧ len ≤ 2 ^ 24
      ∧ s.runs 2 = true) ∧
    (∃ (s : State) (e : Nat), (s.eng e).inval = true ∧ s.runs 2 = true) :=
  ⟨⟨nd { st := .ready, d := { kind := .signal } }, 0, 0, _, rfl, by decide +kernel, by decide +kernel, by decide +kernel⟩,
    ⟨nd { st := .ready, d := { kind := .wait } }, 0, 0, _, rfl, by decide +kernel, by decide +kernel, by decide +kernel,
      by decide +kernel⟩,
    ⟨{ synced 0 { alloc := true } with sy := { (synced 0 { alloc := true }).sy with recWait := [(7, 0x8000000000000005)] } }, _, 7,
      0x8000000000000005, [], by decide +kernel, by decide +kernel, by decide +kernel, rfl⟩,
    ⟨rg ({ rdy with sy := { rdy.sy with xlatWait := [{ src := .engine 0 0, vid := 3, scope := 0, op := .set }] } }) .xlatLimit 0 4,
      _, 0, 3, _, 0, _, rfl, by decide +kernel, by decide +kernel, by decide +kernel, rfl, by decide +kernel, rfl,
      by decide +kernel⟩,
    ⟨{ rdy with sy := { rdy.sy with xlatWait := [{ src := .engine 0 0, vid := 3, scope := 0, op := .set }] } }, 0, 3, _, rfl,
      by decide +kernel, by decide +kernel, by decide +kernel, by decide +kernel⟩,
    ⟨{ rdy with sy := { rdy.sy with inv := some (0, none) } }, 0, none, by decide +kernel, by decide +kernel⟩,
    ⟨{ rdy with sy := { rdy.sy with dumpBusy := true, dumpAt := 0x6000, dumpHeader := zeros 64 } }, _, by decide +kernel, som
      (by decide +kernel)⟩,
    ⟨job0 {}, 0, 0x40, 2 ^ 24, by decide +kernel, by decide +kernel, by decide +kernel, by decide +kernel, by decide +kernel,
      by decide +kernel⟩,
    ⟨job0 { inval := true }, 0, by decide +kernel, by decide +kernel⟩⟩

theorem wit_StartResetAndServiceEvents :
    (∃ (s t : State) (f : FlashRead), s.st.phase = .settings ∧ t = (((s.each ((s.choose f).startCommands f) State.emit).noteBad (s.choose f)).setFld ⟨.tsuStart, 0, 0⟩ 4 2 (s.choose f).src).setFld
      ⟨.tsuStart, 0, 0⟩ 2 2 (s.choose f).why) ∧
    (∃ (s : State), s.ready = false) ∧
    (∃ (s : State) (d : Nat), s.st.phase = .pll ∧ (s.clock d).pll = false) ∧
    (∃ (s t : State), s.st.phase = .pll ∧ s.st.gsDone = true ∧ ((∀ d, d < 10 → (s.clock d).pll = true ∧ (s.clock d).step = 16)) ∧ t =
      s.align [0, 1, 2, 3, 4, 5, 6, 7]) ∧
    (∃ (s t : State) (f : FlashRead), s.sv.reloading = true ∧ t = (State.each { s with sv := { s.sv with reloading := false } } ((s.chooseCopy f).commands f) State.emit).noteBad
      (s.chooseCopy f)) ∧
    (∃ (s t : State) (rx bs : List Byte), s.sv.spiBusy = true ∧ bs = (if bit (s.reg ⟨.spiCtrl, 0, 0⟩) 23 then s.spiBuf else fit (s.fld ⟨.spiCtrl, 0, 0⟩ 16 7) rx ++ s.spiBuf.drop (s.fld ⟨.spiCtrl, 0, 0⟩ 16 7))
      ∧ t = s.each (List.range 16) (fun t j => t.setReg ⟨.spiData, j, 0⟩ (BitVec.ofNat 64 (leAt bs (4 * j) 4)))) ∧
    (∃ (s : State) (k : Nat), (s.core k).st = 1) ∧
    (∃ (s : State) (u : Nat), s.unitBusy u = false ∧ ((s.compat = true → bit (s.reg ⟨.tsuClken, 0, 0⟩) u = false))) :=
  ⟨⟨State.reset, _, ⟨[], [], [], [], []⟩, by decide +kernel, rfl⟩,
    ⟨State.reset, by decide +kernel⟩,
    ⟨{ State.reset with st := { State.reset.st with phase := .pll } }, 8, by decide +kernel, by decide +kernel⟩,
    ⟨{ State.reset with st := { State.reset.st with phase := .pll, gsDone := true }, fc := { State.reset.fc with clocks := (List.range 10).map fun d => (d, { pll := true, step := 16 }) } },
      _, by decide +kernel, by decide +kernel, by decide +kernel, rfl⟩,
    ⟨{ rdy with sv := { rdy.sv with reloading := true } }, _, ⟨[], [], [], [], []⟩, by decide +kernel, rfl⟩,
    ⟨{ rdy with sv := { rdy.sv with spiBusy := true } }, _, [1], _, by decide +kernel, rfl, rfl⟩,
    ⟨rdy.updCore 3 fun x => { x with st := 1 }, 3, by decide +kernel⟩,
    ⟨rdy, 7, by decide +kernel, by decide +kernel⟩⟩

theorem wit_StopsDumpsTraceAndReturnsEnd :
    (∃ (s : State), s.ob.stop = .quiescing ∧ s.enginesIdle = true) ∧
    (∃ (s t : State), s.ob.dumpBusy = true ∧ s.ob.dumpBody = [] ∧ 0 < s.dl.obsBucket ∧ s.writeBytes devSpace s.ob.dumpAt
      s.ob.dumpHeader = some t) ∧
    (∃ (s : State) (k : Nat), s.ob.stop = .snapped ∧ (s.port k).cut = 4 ∧ s.ob.snapAt + 100 ≤ s.now) ∧
    (∃ (s t : State), s.sinkOn = true ∧ s.sinkDue = true ∧ s.sinkReady = true ∧ t = (({ s with ob := { s.ob with trace := s.ob.trace.drop 7, fseq := (s.ob.fseq + 1) % 2 ^ 32 } } : State).sinkPut s.ob.fseq (s.frame (s.ob.trace.take 7) (s.ob.draining.isSome && decide (s.ob.trace.length ≤ 7)))).traceEnter.lossResume) ∧
    (∃ (s : State), s.alignDue = true) ∧
    (∃ (s : State), s.alignDue = false) ∧
    (∃ (s : State), s.sv.uartOff = false) ∧
    (∃ (s a b : State) (lv u : Nat) (rest : List (Nat × Nat)), s.fc.unbench = (lv, u) :: rest ∧ s.hubOn = true ∧ a = { s with fc := { s.fc with unbench := rest } }
      ∧ b = (a.clearBench lv u).mapChange) :=
  ⟨⟨stopped .quiescing, by decide +kernel, by decide +kernel⟩,
    ⟨{ rdy with ob := { rdy.ob with dumpBusy := true, dumpAt := 0x6000, dumpHeader := zeros 64 } }, _, by decide +kernel,
      by decide +kernel, by decide +kernel, som (by decide +kernel)⟩,
    ⟨{ (stopped .snapped).updPort 5 (fun x => { x with cut := 4 }) with now := 100 }, 5, by decide +kernel, by decide +kernel,
      by decide +kernel⟩,
    ⟨rg (rg { rdy with now := 1, ob := { rdy.ob with portSince := some 0, trace := [{ typ := 1, source := 0 }] } } .trcCfg 0 1)
      .trcPort 0 1, _, by decide +kernel, by decide +kernel, by decide +kernel, rfl⟩,
    ⟨rg rdy .trcPort 0 1, by decide +kernel⟩,
    ⟨rdy, by decide +kernel⟩,
    ⟨rdy, by decide +kernel⟩,
    ⟨{ rdy with fc := { rdy.fc with unbench := [(0, 5)] } }, _, _, 0, 5, [], by decide +kernel, by decide +kernel, rfl, rfl⟩⟩

theorem wit_FaultEventsTakeEffect :
    (∃ (s : State) (c : Nat), (s.ctx c).st = .faulted ∧ (s.ctx c).torn = false ∧ (s.ctx c).faultedInSave = false ∧ s.tearDrained c =
      true ∧ s.hubOn = true) ∧
    (∃ (s : State) (e : Nat), isCell e = true ∧ s.benched e = false ∧ s.hubOn = true ∧ s.canHang e = true) ∧
    (∃ (s : State) (e : Nat), isCell e = true ∧ s.benched e = false ∧ s.hubOn = true) ∧
    (∃ (s : State) (i : Nat), i < 384 ∧ bit (s.reg ⟨.benchCells, i, 0⟩) 15 = false ∧ bit (s.reg ⟨.benchRegions, 0, 0⟩) (i / 48) =
      false ∧ s.hubOn = true) ∧
    (∃ (s : State) (k reason : Nat), k < 32 ∧ ((reason = 0 ∨ reason = 1 ∨ reason = 8)) ∧ s.hubOn = true ∧ s.benched (leId k) = false) ∧
    (∃ (s : State) (r : Nat), s.regionIn r = true ∧ s.hubOn = true) ∧
    (∃ (r : Nat), 8 ≤ r) ∧
    (∃ (n : Nat), n < 8) ∧
    (∃ (s : State) (r : Nat), (s.dealer r).rebuild = true ∧ s.hubOn = true) ∧
    (∃ (s t a : State) (r seq n : Nat), 8 ≤ n ∧ t = s.disturb 2 ∧ t.regionIn r = true ∧ t.hubOn = true ∧ a = (t.report { typ := 0x25, source := 0x8009, body := [pathArg 0 r seq] }).updDealer
      r (fun d => { d with lastPathFault := some t.now })) ∧
    (∃ (s t a : State) (seq n : Nat), 8 ≤ n ∧ t = s.disturb 2 ∧ t.ob.traceDown = false ∧ a = t.report { typ := 0x25, source := 0x8009, body := [pathArg 2 0 seq] }) ∧
    (∃ (s : State) (r : Nat), (s.dealer r).pathDown = true ∧ s.hubOn = true) :=
  ⟨⟨cx rdy { st := .faulted }, 0, by decide +kernel, by decide +kernel, by decide +kernel, by decide +kernel, by decide +kernel⟩,
    ⟨job0 {}, 0, by decide +kernel, by decide +kernel, by decide +kernel, by decide +kernel⟩,
    ⟨rdy, 0, by decide +kernel, by decide +kernel, by decide +kernel⟩,
    ⟨rdy, 383, by decide +kernel, by decide +kernel, by decide +kernel, by decide +kernel⟩,
    ⟨rdy, 31, 8, by decide +kernel, by decide +kernel, by decide +kernel, by decide +kernel⟩,
    ⟨rdy, 7, by decide +kernel, by decide +kernel⟩,
    ⟨8, by decide +kernel⟩,
    ⟨7, by decide +kernel⟩,
    ⟨rdy.updDealer 7 fun x => { x with rebuild := true }, 7, by decide +kernel, by decide +kernel⟩,
    ⟨rdy, _, _, 7, 1, 8, by decide +kernel, rfl, by decide +kernel, by decide +kernel, rfl⟩,
    ⟨rdy, _, _, 1, 8, by decide +kernel, rfl, by decide +kernel, rfl⟩,
    ⟨rdy.updDealer 7 fun x => { x with pathDown := true }, 7, by decide +kernel, by decide +kernel⟩⟩

theorem wit_ServiceCoresAndSupply :
    (∃ (s : State) (k : Nat), k < 9 ∧ (s.core k).st = 2 ∧ (s.core k).kickedAt + 100000 ≤ s.now) ∧
    (∃ (s : State) (k : Nat), k < 9 ∧ (s.core k).st ≠ 4) ∧
    (∃ (s a : State) (d : Nat), d ≤ 8 ∧ (s.supply d).warn = false ∧ (s.supply d).dipped = false ∧ (a = (((s.updSupply d fun x => { x with warn := true, clearFor := none, dipped := true, us := 0, lowest := if s.ready ∨ (s.clock d).pll = false then 0 else 16 - (s.clock d).step }).bump ⟨.supplyDips, 0, 0⟩ 1).pinEvent 3).report { typ := 0x28, source := 0x8009, body := [d] })) ∧
    (∃ (s a : State) (d : Nat), d ≤ 8 ∧ (s.supply d).warn = false ∧ (s.supply d).dipped = true ∧ a = s.updSupply d (fun x => { x with warn := true, clearFor := none, dipped := true })) ∧
    (∃ (s : State) (d : Nat), (s.supply d).warn = true) ∧
    (∃ (s : State) (d t : Nat), (s.supply d).dipped = true ∧ (s.supply d).clearFor = some t ∧ 50 ≤ t ∧ ((s.lockstep = true → ∀ x, x < 9 → (s.supply x).dipped = true → ∃ u, (s.supply x).clearFor = some u ∧ 50 ≤ u))) ∧
    (∃ (s : State) (d : Nat), (s.clock d).pll = true ∧ (s.clock d).step < (s.clock d).goal ∧ (s.supply (min d 8)).dipped = false) ∧
    (∃ (s a b : State) (d n : Nat), d < 8 ∧ s.ready = true ∧ (s.clock d).pll = true ∧ (s.clock d).step ≠ (s.clock d).goal ∧ (s.supply d).dipped
      = true ∧ n = (if (s.clock d).step < (s.clock d).goal then (s.clock d).step + 1 else (s.clock d).step - 1) ∧ a =
      (s.updClock d (fun x => { x with step := n })).updDealer d (fun y => { y with lead := none }) ∧ b = a.updSupply d (fun y => { y with lowest := max y.lowest (16 - n) })
      ∧ b.dipped d = true) :=
  ⟨⟨{ rdy.updCore 8 (fun x => { x with st := 2 }) with now := 100000 }, 8, by decide +kernel, by decide +kernel, by decide +kernel⟩,
    ⟨rdy, 8, by decide +kernel, by decide +kernel⟩,
    ⟨rdy, _, 8, by decide +kernel, by decide +kernel, by decide +kernel, rfl⟩,
    ⟨rdy.updSupply 8 fun x => { x with dipped := true }, _, 8, by decide +kernel, by decide +kernel, by decide +kernel, rfl⟩,
    ⟨rdy.updSupply 8 fun x => { x with warn := true }, 8, by decide +kernel⟩,
    ⟨rdy.updSupply 8 fun x => { x with dipped := true, clearFor := some 50 }, 8, 50, by decide +kernel, by decide +kernel,
      by decide +kernel, (fun h => absurd h (by decide +kernel))⟩,
    ⟨rdy.updClock 9 fun x => { x with pll := true }, 9, by decide +kernel, by decide +kernel, by decide +kernel⟩,
    ⟨(rdy.updClock 7 fun x => { x with pll := true, step := 16, goal := 8 }).updSupply 7 fun x => { x with dipped := true }, _, _, 7,
      _, by decide +kernel, by decide +kernel, by decide +kernel, by decide +kernel, by decide +kernel, rfl, rfl, rfl,
      by decide +kernel⟩⟩

theorem wit_QueueWriterVectorsAndTicks :
    (∃ (s a u : State) (p : Packet) (rest : List Packet) (pad : Nat), s.rqGood = true ∧ s.fe.fifo = p :: rest ∧ s.writerOn = true ∧
      pad = s.padFor p.length ∧ s.rqFill + pad + p.length ≤ s.rqSize ∧ (if pad = 0 then some s else s.rqPut (s.padBytes pad)) =
      some a ∧ a.rqPut (p.bytes a.fe.pktSeq.toNat) = some u) ∧
    (∃ (s : State) (v : Nat), v ∈ s.fe.vecHeld ∧ tget 0 s.fe.vecLast v ≤ s.now) ∧
    (∃ (s a : State) (v : Nat), v ∈ s.fe.msixMask ∧ a = { s with fe := { s.fe with msixMask := s.fe.msixMask.filter (· ≠ v) } }) ∧
    (∃ (s : State), s.st.resetDue = true) ∧
    (∃ (s : State), s.st.resetDue = false ∧ s.lockstep = false ∧ s.gated 5 = false) ∧
    (∃ (s t : State), s.inputsWait = true ∧ s.gated 5 = false ∧ ((∀ d, d < 9 → s.dipped d = false)) ∧ t = (s.tickCore.bump ⟨.tsuLsTick, 0, 0⟩ 1).admitAll
      s.holding) ∧
    (∃ (s a b : State) (c i e r : Nat) (lim : Int) (n : Node), n = s.node (nk c i) ∧ n.gst = .armed ∧ n.left ≠ [] ∧ n.unmon = false ∧
      n.evaluatedAt < s.now ∧ (s.ctx (nkCtx (nk c i))).st = .resident ∧ s.runs 5 = true ∧ e = s.gateAge (nk c i) ∧ r =
      s.remaining (nk c i) ∧ lim = (n.d.deadline : Int) - n.d.margin ∧ a = s.updNode (nk c i) (fun n => { n with evaluatedAt := s.now })
      ∧ b = ((a.report { typ := 0x64, source := 0x8005, ctx := some (nkCtx (nk c i)), body := [a.nodeArg (nk c i), e, r, (lim % 2 ^ 64).toNat] }).bump ⟨.tbFallbacks, 0, 0⟩ 1).fallbackTaken
      (nk c i)) ∧
    (∃ (s t : State), s.dl.slowAt + 1000 ≤ s.now ∧ s.hubOn = true ∧ s.reg ⟨.slowdownAddr, 0, 0⟩ ≠ 0 ∧ s.writeBytes devSpace (s.reg ⟨.slowdownAddr, 0, 0⟩).toNat
      (s.slowBlock (s.dl.slowSeq + 1)) = some t) :=
  ⟨⟨rg { rdy with fe := { rdy.fe with fifo := [{ typ := 1 }] } } .rqCfg 0 0x01001001, _, _, { typ := 1 }, [], _, by decide +kernel,
      by decide +kernel, by decide +kernel, rfl, by decide +kernel, som (by decide +kernel), som (by decide +kernel)⟩,
    ⟨{ rdy with fe := { rdy.fe with vecHeld := [3] } }, 3, by decide +kernel, by decide +kernel⟩,
    ⟨{ rdy with fe := { rdy.fe with msixMask := [3] } }, _, 3, by decide +kernel, rfl⟩,
    ⟨{ rdy with st := { rdy.st with resetDue := true } }, by decide +kernel⟩,
    ⟨rdy, by decide +kernel, by decide +kernel, by decide +kernel⟩,
    ⟨rg rdy .tsuMode 0 2, _, by decide +kernel, by decide +kernel, by decide +kernel, rfl⟩,
    ⟨{ nd { gst := .armed, left := [nk 0 1] } with now := 1 }, _, _, 0, 0, _, _, _, _, rfl, by decide +kernel, by decide +kernel,
      by decide +kernel, by decide +kernel, by decide +kernel, by decide +kernel, rfl, rfl, rfl, rfl, rfl⟩,
    ⟨rg { rdy with now := 1000 } .slowdownAddr 0 0x8000, _, by decide +kernel, by decide +kernel, by decide +kernel, som
      (by decide +kernel)⟩⟩

theorem wit_BeatTicksAndPins :
    (∃ (s : State), s.beatSource = 0 ∧ s.beatPeriod ≤ s.beatTick ∧ s.gated 5 = false ∧ s.ready = true) ∧
    (∃ (s t : State), s.gated 5 = false ∧ (∀ x ∈ s.st.atGate, x.1 ≠ 5) ∧ t = s.wake 5 ∧ t.lockstep = true) ∧
    (∃ (s t : State), s.gated 5 = false ∧ (∀ x ∈ s.st.atGate, x.1 ≠ 5) ∧ t = s.wake 5 ∧ t.lockstep = false ∧ t.beatSource = 1 ∧
      t.gated 5 = false ∧ t.ready = true ∧ t.beatTick + t.beatWindow < t.beatPeriod) ∧
    (∃ (s t : State), s.gated 5 = false ∧ (∀ x ∈ s.st.atGate, x.1 ≠ 5) ∧ t = s.wake 5 ∧ t.lockstep = false ∧ t.beatSource = 1 ∧
      t.gated 5 = false ∧ t.ready = true ∧ t.beatPeriod ≤ t.beatTick + t.beatWindow ∧ t.beatTick ≤ t.beatPeriod + t.beatWindow) ∧
    (∃ (s : State), s.gated 5 = true) ∧
    (∃ (s : State), s.beatSource ≠ 0 ∧ s.beatPeriod + s.beatWindow ≤ s.beatTick ∧ s.tb.remote = none ∧ s.gated 5 = false ∧ s.ready =
      true) ∧
    (∃ (s : State) (v : Nat), s.tb.remote = some v ∧ s.gated 5 = false ∧ s.tb.remoteAt + s.fld ⟨.tbBeatCfg, 0, 0⟩ 32 16 / 100 ≤ s.now) ∧
    (∃ (s a b : State) (v : Nat) (acc : Bool), a = (((s.setReg ⟨.tbBeat, 0, 0⟩ (BitVec.ofNat 64 (v % 2 ^ 48))).setReg ⟨.tbTick, 0, 0⟩ 0).emit .beatPulse).traceUnit
      3 { typ := 0x0B, source := 13, arg := s.beatTick, tag := v % 2 ^ 48 } ∧ b = (if acc then a.tickAccepted else a.tickMissed).sendBeats) ∧
    (∃ (s a : State) (want : Bool), a = s.setFld ⟨.tbStatus, 0, 0⟩ 2 1 (if s.tb.rxInverted then 0 else 1) ∧ want = (bit (a.reg ⟨.tbStatus, 0, 0⟩) 2 && bit (a.reg ⟨.tbBeatCfg, 0, 0⟩) 4)) ∧
    (∃ (s : State), bit (s.reg ⟨.tbStatus, 0, 0⟩) 3 = false) :=
  ⟨⟨rg (rg rdy .tbBeatCfg 0 (100 * 4096)) .tbTick 0 100, by decide +kernel, by decide +kernel, by decide +kernel, by decide +kernel⟩,
    ⟨rg rdy .tsuMode 0 2, _, by decide +kernel, by decide +kernel, rfl, by decide +kernel⟩,
    ⟨beating 1 97, _, by decide +kernel, by decide +kernel, rfl, by decide +kernel, by decide +kernel, by decide +kernel,
      by decide +kernel, by decide +kernel⟩,
    ⟨beating 1 100, _, by decide +kernel, by decide +kernel, rfl, by decide +kernel, by decide +kernel, by decide +kernel,
      by decide +kernel, by decide +kernel, by decide +kernel⟩,
    ⟨rg rdy .tsuClken 0 0x80200000, by decide +kernel⟩,
    ⟨beating 2 102, by decide +kernel, by decide +kernel, by decide +kernel, by decide +kernel, by decide +kernel⟩,
    ⟨{ rdy with tb := { rdy.tb with remote := some 9 } }, 9, by decide +kernel, by decide +kernel, by decide +kernel⟩,
    ⟨beating 1 100, _, _, 9, true, rfl, rfl⟩,
    ⟨beating 1 0, _, _, rfl, rfl⟩,
    ⟨rdy, by decide +kernel⟩⟩

theorem wit_ParcelsTakeEffect :
    (∃ (s u : State) (k q n c cnt : Nat) (p : Parcel), s.arrives k q 1 p ∧ s.accepts p u ∧ p.body = .decrement n c cnt ∧ (u.ctx c).st
      = .resident ∧ p.slice = u.ctxTag c ∧ u.nodesValid c = true ∧ n < u.nodeWin c) ∧
    (∃ (s u : State) (k q v op c amt : Nat) (o : SyncOp) (p : Parcel), s.arrives k q 2 p ∧ s.accepts p u ∧ p.body = .signal v op c
      amt ∧ p.slice = u.ctxTag c ∧ (((op = 0 ∧ o = .set) ∨ (op = 1 ∧ o = .clear) ∨ (op = 2 ∧ o = .advance amt)))) ∧
    (∃ (s u t : State) (k q x rows rb l g ep e : Nat) (p : Parcel), s.arrives k q 3 p ∧ s.accepts p u ∧ p.body = .call x rows rb l g
      ep ∧ u.callRefusal p x = none ∧ u.serving x = some e ∧ (u.callSlot (u.nextCall e)).busy = false ∧ ((∀ w, w ∈ u.li.callWait → w.entry ≠ e))
      ∧ u.serve e p = some t) ∧
    (∃ (s u t : State) (k q l g ep off n : Nat) (data : List Byte) (p : Parcel) (x : Landing), s.arrives k q 4 p ∧ p.body = .ret l g
      ep off data ∧ x = s.landing l ∧ n = data.length ∧ x.st = .isOpen ∧ x.gen.toNat = g ∧ x.epoch = ep ∧ x.received = off ∧ 0 <
      n ∧ off + n ≤ x.expect ∧ (s.bump (gcnt 7) 1).writeBytes (ctxSpace x.ctx) (x.base + off) data = some u ∧ t = u.updLanding l
      (fun y => { y with received := off + n, st := if off + n = x.expect then .filled else y.st, leftAt := if off + n = x.expect then u.now else y.leftAt })) ∧
    (∃ (s : State) (k q n st why : Nat) (p : Parcel), s.arrives k q 5 p ∧ p.body = .ack n st why) ∧
    (∃ (s : State) (k q far lo hi sys : Nat) (seen : Bool) (cr : List Nat) (p : Parcel), s.arrives k q 0x10 p ∧ p.body = .hello far
      seen lo hi sys cr) ∧
    (∃ (s a : State) (k q v : Nat) (p : Parcel), s.arrives k q 0x11 p ∧ p.body = .beat v ∧ a = s.bump (gcnt 7) 1 ∧ a.beatSource = 2 ∧
      a.beatPort = some k ∧ a.ready = true ∧ a.beatPeriod ≤ a.beatTick + a.beatWindow ∧ a.beatTick ≤ a.beatPeriod + a.beatWindow) ∧
    (∃ (s : State) (k q id : Nat) (p : Parcel), s.arrives k q 0x12 p ∧ p.body = .cutMarker id ∧ s.ob.stop ≠ .snapped ∧ higher32 id
      ((s.bump (gcnt 7) 1).fld ⟨.snapLast, 0, 0⟩ 0 32) = true) ∧
    (∃ (s a : State) (k q id : Nat) (bs : List RxBlock), s.ob.stop = .snapped ∧ dropMarkers (tget [] (s.port k).rx q) = some (id, bs)
      ∧ a = s.updPort k (fun x => { x with rx := tput [] x.rx q bs }) ∧ id = s.fld ⟨.snapLast, 0, 0⟩ 0 32 ∧ (a.port k).cut = 4) :=
  ⟨⟨rcv wins { body := .decrement 5 0 1 }, _, 0, 0, 5, 0, 1, { body := .decrement 5 0 1 }, arr (by decide +kernel), acc
      (by decide +kernel), by decide +kernel, by decide +kernel, by decide +kernel, by decide +kernel, by decide +kernel⟩,
    ⟨rcv wins { body := .signal 3 0 0 0 }, _, 0, 0, 3, 0, 0, 0, .set, { body := .signal 3 0 0 0 }, arr (by decide +kernel), acc
      (by decide +kernel), by decide +kernel, by decide +kernel, by decide +kernel⟩,
    ⟨rcv server { body := .call 7 1 64 0 0 0 }, _, _, 0, 0, 7, 1, 64, 0, 0, 0, 0, { body := .call 7 1 64 0 0 0 }, arr
      (by decide +kernel), acc (by decide +kernel), by decide +kernel, by decide +kernel, by decide +kernel, by decide +kernel,
      by decide +kernel, som (by decide +kernel)⟩,
    ⟨rcv (wins.updLanding 2 fun x => { x with st := .isOpen, expect := 64 }) { body := .ret 2 0 0 0 (zeros 64) }, _, _, 0, 0, 2, 0,
      0, 0, _, zeros 64, { body := .ret 2 0 0 0 (zeros 64) }, _, arr (by decide +kernel), by decide +kernel, rfl, rfl,
      by decide +kernel, by decide +kernel, by decide +kernel, by decide +kernel, by decide +kernel, by decide +kernel, som
      (by decide +kernel), rfl⟩,
    ⟨rcv wins { body := .ack 4 0 0 }, 0, 0, 4, 0, 0, { body := .ack 4 0 0 }, arr (by decide +kernel), by decide +kernel⟩,
    ⟨rcv wins { body := .hello 1 false 4 5 0 [] }, 0, 0, 1, 4, 5, 0, false, [], { body := .hello 1 false 4 5 0 [] }, arr
      (by decide +kernel), by decide +kernel⟩,
    ⟨rcv (rg (beating 2 100) .portCfg 0 4) { body := .beat 9 }, _, 0, 0, 9, { body := .beat 9 }, arr (by decide +kernel),
      by decide +kernel, rfl, by decide +kernel, by decide +kernel, by decide +kernel, by decide +kernel, by decide +kernel⟩,
    ⟨rcv wins { body := .cutMarker 1 }, 0, 0, 1, { body := .cutMarker 1 }, arr (by decide +kernel), by decide +kernel,
      by decide +kernel, by decide +kernel⟩,
    ⟨rg ((stopped .snapped).updPort 5 fun x => { x with cut := 4, rx := [(0, [{ parcels := [{ body := .cutMarker 3 }] }])] })
      .snapLast 0 3, _, 5, 0, 3, [{}], by decide +kernel, by decide +kernel, rfl, by decide +kernel, by decide +kernel⟩⟩

theorem wit_PortsBlocksAndRequests :
    (∃ (s w a : State) (k : Nat) (bytes : List Byte) (b : Block), s.gated 6 = false ∧ (∀ x ∈ s.st.atGate, x.1 ≠ 6) ∧ w = s.wake 6 ∧
      (w.port k).st = .up ∧ Block.ofBytes bytes = some b ∧ b.hello = false ∧ a = w.blockBack k b ∧ b.parcels ≠ [] ∧ a.portUp k =
      true ∧ (b.seq + 65536 - (a.port k).rxNext) % 65536 = 0) ∧
    (∃ (s w : State) (k : Nat) (bytes : List Byte), s.gated 6 = false ∧ (∀ x ∈ s.st.atGate, x.1 ≠ 6) ∧ w = s.wake 6 ∧ (w.port k).st =
      .up ∧ Block.ofBytes bytes = none) ∧
    (∃ (s w : State) (k : Nat) (bytes : List Byte) (b : Block) (p : Parcel), s.gated 6 = false ∧ (∀ x ∈ s.st.atGate, x.1 ≠ 6) ∧ w =
      s.wake 6 ∧ (((w.port k).st = .hello ∨ (w.port k).st = .mismatched ∨ (w.port k).st = .fenced)) ∧ Block.ofBytes bytes = some
      b ∧ b.parcels = [p] ∧ p.body.typ = 0x10) ∧
    (∃ (s : State), s.gated 6 = true) ∧
    (∃ (s a : State) (k : Nat) (keep again : List Sent) (b : Sent) (z : State), s.portUp k = true ∧ s.liOn = true ∧ s.ob.stop ≠
      .snapped ∧ b.tries < 8 ∧ (s.port k).replay.find? (fun c => decide (c.blk.seq = b.blk.seq)) = some b ∧ keep = (s.port k).replay.takeWhile
      (fun c => decide (c.blk.seq ≠ b.blk.seq)) ∧ again = ((s.port k).replay.drop keep.length).map (fun c => { c with tries := c.tries + 1, sentAt := (s.reg (gcnt 0)).toNat })
      ∧ a = (s.updPort k fun x => { x with replay := keep ++ again }).each again (fun t c => t.emit (.block k c.blk)) ∧
      b.blk.seq < 65536 ∧ z.gated 6 = false ∧ (∀ x ∈ z.st.atGate, x.1 ≠ 6) ∧ s = z.wake 6) ∧
    (∃ (s a : State) (k : Nat) (keep again : List Sent) (b : Sent) (rest : _), s.portUp k = true ∧ s.liOn = true ∧ s.ob.stop ≠
      .snapped ∧ b.tries < 8 ∧ (s.port k).replay.find? (fun c => decide (c.blk.seq = b.blk.seq)) = some b ∧ keep = (s.port k).replay.takeWhile
      (fun c => decide (c.blk.seq ≠ b.blk.seq)) ∧ again = ((s.port k).replay.drop keep.length).map (fun c => { c with tries := c.tries + 1, sentAt := (s.reg (gcnt 0)).toNat })
      ∧ a = (s.updPort k fun x => { x with replay := keep ++ again }).each again (fun t c => t.emit (.block k c.blk)) ∧ (s.port k).replay
      = b :: rest ∧ 4096 ≤ (s.reg (gcnt 0)).toNat - b.sentAt) ∧
    (∃ (s t : State) (k q : Nat) (l : List Parcel), (s.port k).st = .up ∧ s.liOn = true ∧ s.hubOn = true ∧ (s.port k).replay.length <
      2048 ∧ t = s.refuseTx k ∧ (t.port k).serves = some (q, l)) ∧
    (∃ (s t a : State) (k : Nat), (s.port k).st = .up ∧ s.liOn = true ∧ s.hubOn = true ∧ (s.port k).replay.length < 2048 ∧ t =
      s.refuseTx k ∧ (t.port k).serves = none ∧ a = t.refuseStart k ∧ a.sendStarting k ≠ a) ∧
    (∃ (s : State) (k : Nat) (b : Block), (s.port k).st = .up ∧ s.liOn = true ∧ s.ob.stop = .running ∧ 2048 ≤ (s.port k).replay.length
      ∧ (((s.port k).ackOwed = true ∨ (s.port k).nakOwed = true ∨ (s.port k).owed ≠ [])) ∧ b = (s.port k).header false) ∧
    (∃ (s : State) (d n : Nat) (u : Unanswered), s.unanswered d n = some u ∧ u.sentAt + s.fld ⟨.liE2eCfg, 0, 0⟩ 0 14 ≤ s.now ∧ s.runs
      6 = true ∧ ((u.queued = true → s.route u.parcel.rset u.dst = none))) ∧
    (∃ (s : State) (k : Nat), (((s.port k).st = .hello ∨ (s.port k).st = .mismatched ∨ (s.port k).st = .fenced)) ∧ (s.port k).helloAt
      ≤ s.now ∧ s.liOn = true ∧ s.ob.stop ≠ .snapped) ∧
    (∃ (s : State) (k : Nat), (s.port k).st = .hello ∧ (s.port k).gotAny = false ∧ (s.port k).silentTold = false ∧ (s.port k).since +
      1000 ≤ s.now ∧ s.liOn = true) ∧
    (∃ (s w : State) (k : Nat), s.gated 6 = false ∧ (∀ x ∈ s.st.atGate, x.1 ≠ 6) ∧ w = s.wake 6 ∧ (w.port k).st = .training) ∧
    (∃ (s w : State) (k : Nat), s.gated 6 = false ∧ (∀ x ∈ s.st.atGate, x.1 ≠ 6) ∧ w = s.wake 6 ∧ ((w.port k).st = .up ∨ (w.port k).st = .mismatched ∨ (w.port k).st = .fenced ∨ (w.port k).st = .hello)) ∧
    (∃ (s : State) (k : Nat), (s.port k).st = .retrain ∧ (s.port k).since + 1000 ≤ s.now ∧ s.liOn = true) ∧
    (∃ (s w : State) (e x off y : Nat) (data : List Byte) (l : Launch), s.gated 6 = false ∧ (∀ z ∈ s.st.atGate, z.1 ≠ 6) ∧ w = s.wake
      6 ∧ (w.eng e).job = some l ∧ (w.node l.key).call = some y ∧ isLE e = true ∧ y % 256 = x % 256 ∧ off % 64 = 0 ∧
      ((data.length = 64 ∨ data.length = 128 ∨ data.length = 192)) ∧ w.takes 6 = true) ∧
    (∃ (s : State) (e g b : Nat) (data : List Byte) (l : Launch), (s.eng e).job = some l ∧ isLE e = false ∧ 1 ≤ g ∧ g ≤ 64 ∧
      data.length ≤ 64 * g ∧ s.ob.stop ≠ .snapped ∧ b = s.podOf l.ctx * 8 + engRegion e) :=
  ⟨⟨port3 id, _, _, 3, Block.bytes { parcels := [{ body := .beat 9 }] }, _, by decide +kernel, by decide +kernel, rfl,
      by decide +kernel, som (by decide +kernel), by decide +kernel, rfl, by decide +kernel, by decide +kernel,
      by decide +kernel⟩,
    ⟨port3 id, _, 3, [], by decide +kernel, by decide +kernel, rfl, by decide +kernel, by decide +kernel⟩,
    ⟨rdy.updPort 3 fun x => { x with st := .hello }, _, 3, Block.bytes { parcels := [{ body := .hello 0 true 4 5 0 [] }] }, _, { hops := 5, body := .hello 0 true 4 5 0 (List.replicate 11 0) },
      by decide +kernel, by decide +kernel, rfl, by decide +kernel, som (by decide +kernel), by decide +kernel,
      by decide +kernel⟩,
    ⟨rg (port3 id) .tsuClken 0 0x80400000, by decide +kernel⟩,
    ⟨_, _, 3, _, _, { blk := {} }, port3 fun x => { x with replay := [{ blk := {} }] }, by decide +kernel, by decide +kernel,
      by decide +kernel, by decide +kernel, by decide +kernel, rfl, rfl, rfl, by decide +kernel, by decide +kernel,
      by decide +kernel, rfl⟩,
    ⟨rg (port3 fun x => { x with replay := [{ blk := {} }] }) .gcnt 0 4096, _, 3, _, _, { blk := {} }, [], by decide +kernel,
      by decide +kernel, by decide +kernel, by decide +kernel, by decide +kernel, rfl, rfl, rfl, by decide +kernel,
      by decide +kernel⟩,
    ⟨port3 fun x => { x with ctl := [{ body := .beat 9 }], credits := [(10, 1)] }, _, 3, 10, [{ body := .beat 9 }],
      by decide +kernel, by decide +kernel, by decide +kernel, by decide +kernel, rfl, by decide +kernel⟩,
    ⟨asking (port3 fun x => { x with credits := [(0, 1)] }), _, _, 3, by decide +kernel, by decide +kernel, by decide +kernel,
      by decide +kernel, rfl, by decide +kernel, rfl, by decide +kernel⟩,
    ⟨port3 fun x => { x with replay := List.replicate 2048 { blk := {} }, nakOwed := true }, 3, _, by decide +kernel,
      by decide +kernel, by decide +kernel, by decide +kernel, by decide +kernel, rfl⟩,
    ⟨rg (asking rdy) .liE2eCfg 0 0, 1, 0, { dst := 1, seq := 0, parcel := { dst := 1, body := .decrement 0 0 1 }, asker := .none, sentAt := 0 },
      by decide +kernel, by decide +kernel, by decide +kernel, by decide +kernel⟩,
    ⟨rdy.updPort 3 fun x => { x with st := .hello }, 3, by decide +kernel, by decide +kernel, by decide +kernel, by decide +kernel⟩,
    ⟨{ rdy.updPort 3 (fun x => { x with st := .hello }) with now := 1000 }, 3, by decide +kernel, by decide +kernel,
      by decide +kernel, by decide +kernel, by decide +kernel⟩,
    ⟨rdy.updPort 3 fun x => { x with st := .training }, _, 3, by decide +kernel, by decide +kernel, rfl, by decide +kernel⟩,
    ⟨port3 id, _, 3, by decide +kernel, by decide +kernel, rfl, by decide +kernel⟩,
    ⟨{ rdy.updPort 3 (fun x => { x with st := .retrain }) with now := 1000 }, 3, by decide +kernel, by decide +kernel,
      by decide +kernel⟩,
    ⟨(nd { call := some 5 }).updEng 8192 fun x => { x with job := some {} }, _, 8192, 5, 64, 5, zeros 192, {}, by decide +kernel,
      by decide +kernel, rfl, by decide +kernel, by decide +kernel, by decide +kernel, by decide +kernel, by decide +kernel,
      by decide +kernel, by decide +kernel⟩,
    ⟨job0 {}, 0, 64, _, zeros 1, {}, by decide +kernel, by decide +kernel, by decide +kernel, by decide +kernel, by decide +kernel,
      by decide +kernel, rfl⟩⟩

set_option maxRecDepth 4000 in
theorem wit_DispatchAndOfferRounds :
    (∃ (s : State), s.runs 1 = true) ∧
    (∃ (s t : State) (c i k : Nat) (u : Upset), s.runs 1 = true ∧ k = nk c i ∧ t = (match u with | .none => s | .primary => s.updNode k fun n => { n with pri := { n.pri with ok := false } } | .shadow => s.updNode k fun n => { n with shd := { n.shd with ok := false } } | .nodeWord fixed => { s with gs := { s.gs with nodeFix := if fixed then insertNat k s.gs.nodeFix else s.gs.nodeFix, nodeBad := if fixed then s.gs.nodeBad else insertNat k s.gs.nodeBad } } | .edgeWord j fixed => if fixed then s.bump ⟨.gsCorrected, 0, 0⟩ 1 else s.edgeLost c j | .object kind x => s.objectLost (objKey kind x))) ∧
    (∃ (s : State) (c i k : Nat) (el : List Nat), k = nk c i ∧ s.dispatchable k = true ∧ s.live 1 = true ∧ el = s.eligibleOf k ∧ el =
      []) ∧
    (∃ (s : State) (c i k : Nat) (el : List Nat), k = nk c i ∧ s.dispatchable k = true ∧ s.live 1 = true ∧ el = s.eligibleOf k ∧ el ≠
      [] ∧ (s.node k).d.cls = 3) ∧
    (∃ (s : State) (c i k : Nat) (el : List Nat), k = nk c i ∧ s.dispatchable k = true ∧ s.live 1 = true ∧ el = s.eligibleOf k ∧ el ≠
      [] ∧ (s.node k).d.cls ≠ 3 ∧ (s.node k).d.isKitty = true) ∧
    (∃ (s : State) (c i k : Nat) (el : List Nat) (e : _), k = nk c i ∧ s.dispatchable k = true ∧ s.live 1 = true ∧ el = s.eligibleOf
      k ∧ el ≠ [] ∧ (s.node k).d.cls ≠ 3 ∧ (s.node k).d.isKitty = false ∧ s.lockstep = true ∧ s.assigned k 0 = some e) ∧
    (∃ (s : State) (c i k : Nat) (el : List Nat) (r : _), k = nk c i ∧ s.dispatchable k = true ∧ s.live 1 = true ∧ el = s.eligibleOf
      k ∧ el ≠ [] ∧ (s.node k).d.cls ≠ 3 ∧ (s.node k).d.isKitty = false ∧ s.lockstep = false ∧ regionsOf el = [r]) ∧
    (∃ (s : State) (c i k : Nat) (el : List Nat) (r1 r2 rs : _), k = nk c i ∧ s.dispatchable k = true ∧ s.live 1 = true ∧ el =
      s.eligibleOf k ∧ el ≠ [] ∧ (s.node k).d.cls ≠ 3 ∧ (s.node k).d.isKitty = false ∧ s.lockstep = false ∧ regionsOf el = r1 ::
      r2 :: rs) ∧
    (∃ (s : State) (r c i k : Nat) (free : List Nat), k = nk c i ∧ s.dl.offers.any (fun o => decide (o.key = k) && decide (r ∈ o.asked))
      = true ∧ s.dealerOn r = true ∧ s.open = true ∧ free = s.freeIn r k ∧ pickFrom (s.pickPtr r (s.nodePod k) (s.node k).d.cls)
      free = none) ∧
    (∃ (s : State) (r c i k : Nat) (free : List Nat) (e : _), k = nk c i ∧ s.dl.offers.any (fun o => decide (o.key = k) && decide (r ∈ o.asked))
      = true ∧ s.dealerOn r = true ∧ s.open = true ∧ free = s.freeIn r k ∧ pickFrom (s.pickPtr r (s.nodePod k) (s.node k).d.cls)
      free = some e) ∧
    (∃ (s : State) (r c i : Nat) (o : Offer) (a : Nat × Option (Nat × Nat)), s.dl.offers.find? (fun o => decide (o.key = nk c i) && o.transit.any fun a => decide (a.1 = r))
      = some o ∧ s.runs 1 = true ∧ (s.dealer r).pathDown = false ∧ o.transit.find? (fun a => decide (a.1 = r)) = some a) ∧
    (∃ (s : State) (c i : Nat) (o : Offer), s.dl.offers.find? (fun o => decide (o.key = nk c i) && !o.closed) = some o ∧ s.live 1 =
      true ∧ bestYes o.got = none) ∧
    (∃ (s : State) (c i : Nat) (o : Offer) (y : _), s.dl.offers.find? (fun o => decide (o.key = nk c i) && !o.closed) = some o ∧
      s.live 1 = true ∧ bestYes o.got = some y) ∧
    (∃ (s t : State) (r c i e : Nat) (o : Offer), s.dl.offers.find? (fun o => o.confirms (nk c i) r) = some o ∧ o.confirm = some (r, e)
      ∧ s.runs 2 = true ∧ (s.dealer r).pathDown = false ∧ t = s.updOffer (fun o => o.confirms (nk c i) r) (fun o => { o with confirm := none })
      ∧ (t.eng e).held = some (nk c i) ∧ t.benched e = false) ∧
    (∃ (s t : State) (r c i e : Nat) (o : Offer), s.dl.offers.find? (fun o => o.confirms (nk c i) r) = some o ∧ o.confirm = some (r, e)
      ∧ s.runs 2 = true ∧ (s.dealer r).pathDown = false ∧ t = s.updOffer (fun o => o.confirms (nk c i) r) (fun o => { o with confirm := none })
      ∧ (t.eng e).held ≠ some (nk c i)) ∧
    (∃ (s t : State) (r c i e : Nat) (o : Offer), s.dl.offers.find? (fun o => decide (o.key = nk c i) && o.withdraw.any fun w => decide (w.1 = r))
      = some o ∧ o.withdraw.find? (fun w => decide (w.1 = r)) = some (r, e) ∧ s.runs 2 = true ∧ (s.dealer r).pathDown = false ∧
      t = s.updOffer (fun o => decide (o.key = nk c i) && o.withdraw.any fun w => decide (w.1 = r)) (fun o => { o with withdraw := dropRegion r o.withdraw })
      ∧ (t.eng e).held = some (nk c i)) ∧
    (∃ (s : State) (p r k : Nat) (rest : List Nat), s.live 1 = true ∧ (s.dealer r).pathDown = false ∧ tget [] s.dl.backlog (p * 8 + r)
      = k :: rest ∧ s.quotaOk r p (s.node k).slot (s.node k).d.isKitty = true) :=
  ⟨⟨rdy, by decide +kernel⟩,
    ⟨tiled (task 0) 0 0 0, _, 0, 0, _, .primary, by decide +kernel, rfl, rfl⟩,
    ⟨tiled (task 0) 0 0 0, 0, 0, _, _, rfl, by decide +kernel, by decide +kernel, rfl, rfl⟩,
    ⟨tiled (task 3) 1 0 1, 0, 0, _, _, rfl, by decide +kernel, by decide +kernel, rfl, by decide +kernel, by decide +kernel⟩,
    ⟨tiled (task 0x20000) 1 0 0, 0, 0, _, _, rfl, by decide +kernel, by decide +kernel, rfl, by decide +kernel, by decide +kernel,
      by decide +kernel⟩,
    ⟨rg (tiled (task 0) 1 0 0) .tsuMode 0 2, 0, 0, _, _, 0, rfl, by decide +kernel, by decide +kernel, rfl, by decide +kernel,
      by decide +kernel, by decide +kernel, by decide +kernel, by decide +kernel⟩,
    ⟨tiled (task 0) 1 0 0, 0, 0, _, _, 0, rfl, by decide +kernel, by decide +kernel, rfl, by decide +kernel, by decide +kernel,
      by decide +kernel, by decide +kernel, by decide +kernel⟩,
    ⟨tiled (task 0) 1 0x10000 0, 0, 0, _, _, 0, 1, [], rfl, by decide +kernel, by decide +kernel, rfl, by decide +kernel,
      by decide +kernel, by decide +kernel, by decide +kernel, by decide +kernel⟩,
    ⟨offering (tiled (task 0) 0 0 0) { key := 0, regions := [0], asked := [0] }, 0, 0, 0, _, _, rfl, by decide +kernel,
      by decide +kernel, by decide +kernel, rfl, by decide +kernel⟩,
    ⟨offering (tiled (task 0) 1 0 0) { key := 0, regions := [0], asked := [0] }, 0, 0, 0, _, _, 0, rfl, by decide +kernel,
      by decide +kernel, by decide +kernel, rfl, by decide +kernel⟩,
    ⟨offering (nd (task 0)) { key := 0, regions := [0], transit := [(0, none)] }, 0, 0, 0, { key := 0, regions := [0], transit := [(0, none)] },
      (0, none), by decide +kernel, by decide +kernel, by decide +kernel, by decide +kernel⟩,
    ⟨offering (nd (task 0)) { key := 0, regions := [0] }, 0, 0, { key := 0, regions := [0] }, by decide +kernel, by decide +kernel,
      by decide +kernel⟩,
    ⟨offering (nd (task 0)) { key := 0, regions := [0], got := [(0, some (0, 1))] }, 0, 0, { key := 0, regions := [0], got := [(0, some (0, 1))] },
      (0, 0), by decide +kernel, by decide +kernel, by decide +kernel⟩,
    ⟨offering (wins.updEng 0 fun x => { x with held := some 0 }) { key := 0, regions := [0], confirm := some (0, 0) }, _, 0, 0, 0, 0,
      { key := 0, regions := [0], confirm := some (0, 0) }, by decide +kernel, by decide +kernel, by decide +kernel,
      by decide +kernel, rfl, by decide +kernel, by decide +kernel⟩,
    ⟨offering (nd (task 0)) { key := 0, regions := [0], confirm := some (0, 0) }, _, 0, 0, 0, 0, { key := 0, regions := [0], confirm := some (0, 0) },
      by decide +kernel, by decide +kernel, by decide +kernel, by decide +kernel, rfl, by decide +kernel⟩,
    ⟨offering (wins.updEng 0 fun x => { x with held := some 0 }) { key := 0, regions := [0], withdraw := [(0, 0)] }, _, 0, 0, 0, 0, { key := 0, regions := [0], withdraw := [(0, 0)] },
      by decide +kernel, by decide +kernel, by decide +kernel, by decide +kernel, rfl, by decide +kernel⟩,
    ⟨{ nd (task 0) with dl := { (nd (task 0)).dl with backlog := [(0, [0])] } }, 0, 0, 0, [], by decide +kernel, by decide +kernel,
      by decide +kernel, by decide +kernel⟩⟩

set_option maxRecDepth 4000 in
theorem wit_IssueSlotsStartsCombinesAndEnds :
    (∃ (s : State) (r : Nat) (c : _), s.runs 2 = true ∧ s.ob.lossStop = false ∧ (s.dealer r).rebuild = false ∧ bit (s.reg ⟨.benchRegions, 0, 0⟩)
      r = false ∧ s.confirmedHead r = some c) ∧
    (∃ (s : State) (r : Nat) (h x e : _), s.runs 2 = true ∧ s.ob.lossStop = false ∧ (s.dealer r).rebuild = false ∧ bit (s.reg ⟨.benchRegions, 0, 0⟩)
      r = false ∧ s.confirmedHead r = none ∧ s.dealChoice r = some (h, x, e) ∧ s.lockstep = false) ∧
    (∃ (s : State) (r : Nat), s.runs 2 = true ∧ s.ob.lossStop = false ∧ (s.dealer r).rebuild = false ∧ bit (s.reg ⟨.benchRegions, 0, 0⟩)
      r = false ∧ s.confirmedHead r = none ∧ s.dealChoice r = none) ∧
    (∃ (s a b : State) (p e : Nat) (h : HandEnt), s.live 6 = true ∧ s.leChoice = some (p, h, e) ∧ s.lockstep = false ∧ a = ({ s with dl := { s.dl with leHand := eraseFirst (fun x => decide (x = h)) s.dl.leHand, leLast := p, lePtr := tput 0 s.dl.lePtr p ((e - 8192 + 1) % 32) } } : State)
      ∧ b = (((a.launch e h.key 0 12).updNode h.key fun n => { n with st := .active, startedAt := (a.launch e h.key 0 12).now }).applyStart h.key).settle) ∧
    (∃ (s a : State) (e : Nat) (l : Launch), s.dl.starts.find? (fun x => decide (x.1 = e)) = some (e, l) ∧ s.runs 1 = true ∧ s.pathUp
      e = true ∧ a = ({ s with dl := { s.dl with starts := eraseFirst (fun x => decide (x = (e, l))) s.dl.starts } } : State) ∧
      (s.node l.key).st = .ready ∧ (s.eng e).job = some l) ∧
    (∃ (s : State) (r c i : Nat), (s.dealer r).shares.any (fun h => decide (h.key = nk c i) && h.reported) = true ∧ s.runs 1 = true ∧
      (s.dealer r).pathDown = false ∧ ((∀ x, x ∈ s.dl.starts → x.2.key ≠ nk c i))) ∧
    (∃ (s : State) (e : Nat) (l : Launch), (s.eng e).job = some l ∧ s.runs 2 = true) ∧
    (∃ (s a : State) (e : Nat) (l : Launch) (st z : CellStatus), (s.eng e).job = some l ∧ isLE e = false ∧ (s.eng e).drain = none ∧
      (s.eng e).reset = none ∧ s.portHolds e = false ∧ z = (if (s.eng e).postedLost then .error else st) ∧ s.hubOn = true ∧
      s.gated 2 = false ∧ a = (s.leftovers e l.ctx).freeUp e ∧ (s.node l.key).d.isKitty = true ∧ z = .ok) ∧
    (∃ (s a : State) (e : Nat) (l : Launch) (st z : CellStatus) (b : _), (s.eng e).job = some l ∧ isLE e = false ∧ (s.eng e).drain =
      none ∧ (s.eng e).reset = none ∧ s.portHolds e = false ∧ z = (if (s.eng e).postedLost then .error else st) ∧ s.hubOn = true
      ∧ s.gated 2 = false ∧ a = (s.leftovers e l.ctx).freeUp e ∧ (s.node l.key).d.isKitty = true ∧ z ≠ .ok ∧ b = a.panelEnd
      (engRegion e) l.key l.panel false) ∧
    (∃ (s a : State) (e : Nat) (l : Launch) (st z : CellStatus), (s.eng e).job = some l ∧ isLE e = false ∧ (s.eng e).drain = none ∧
      (s.eng e).reset = none ∧ s.portHolds e = false ∧ z = (if (s.eng e).postedLost then .error else st) ∧ s.hubOn = true ∧
      s.gated 2 = false ∧ a = (s.leftovers e l.ctx).freeUp e ∧ (s.node l.key).d.isKitty = false) ∧
    (∃ (s a : State) (e : Nat) (r : EngReport), s.dl.reports.find? (fun r => decide (engRegion r.e = engRegion e)) = some r ∧ r.e = e
      ∧ s.runs 1 = true ∧ s.pathUp e = true ∧ ((∀ x, x ∈ s.dl.starts → x ≠ (e, r.job))) ∧ a = (({ s with dl := { s.dl with reports := eraseFirst (fun x => decide (x = r)) s.dl.reports } } : State).accepted e r.job r.st)
      ∧ r.st = .ok) ∧
    (∃ (s a : State) (e : Nat) (r : EngReport), s.dl.reports.find? (fun r => decide (engRegion r.e = engRegion e)) = some r ∧ r.e = e
      ∧ s.runs 1 = true ∧ s.pathUp e = true ∧ ((∀ x, x ∈ s.dl.starts → x ≠ (e, r.job))) ∧ a = (({ s with dl := { s.dl with reports := eraseFirst (fun x => decide (x = r)) s.dl.reports } } : State).accepted e r.job r.st)
      ∧ r.st = .error) ∧
    (∃ (z s : State) (k : Nat) (l : Launch) (st y : CellStatus), z.gated 6 = false ∧ (∀ x ∈ z.st.atGate, x.1 ≠ 6) ∧ s = z.wake 6 ∧
      (s.eng (leId k)).job = some l ∧ (s.eng (leId k)).drain = none ∧ (s.eng (leId k)).reset = none ∧ s.portHolds (leId k) =
      false ∧ y = (if (s.eng (leId k)).postedLost then .error else st) ∧ s.takes 6 = true ∧ y = .ok) ∧
    (∃ (z s : State) (k : Nat) (l : Launch) (st y : CellStatus), z.gated 6 = false ∧ (∀ x ∈ z.st.atGate, x.1 ≠ 6) ∧ s = z.wake 6 ∧
      (s.eng (leId k)).job = some l ∧ (s.eng (leId k)).drain = none ∧ (s.eng (leId k)).reset = none ∧ s.portHolds (leId k) =
      false ∧ y = (if (s.eng (leId k)).postedLost then .error else st) ∧ s.takes 6 = true ∧ y ≠ .ok) ∧
    (∃ (s a b : State) (e : Nat) (st : CellStatus) (l : Launch), (s.eng e).job = some l ∧ (s.eng e).drain ≠ none ∧ (s.eng e).reset =
      none ∧ s.portHolds e = false ∧ s.hubOn = true ∧ a = (if (s.node l.key).d.isKitty then s else s.dropStarts e).updCmdOf
      l.key (fun c => { c with drained := c.drained + 1 }) ∧ b = ((a.leftovers e l.ctx).freeUp e).accepted e l st) ∧
    (∃ (s a b : State) (e t : Nat) (l : Launch) (lines : List Nat), (s.eng e).job = some l ∧ (s.eng e).drain = some t ∧ (s.eng e).reset
      = none ∧ t + s.fld ⟨.drainLimit, 0, 0⟩ 0 16 ≤ s.now ∧ s.hubOn = true ∧ a = s.killCell e l lines ∧ (a.node l.key).d.isKitty
      = true ∧ b = a.countKilled l.key ∧ (b.node l.key).d.isKitty = true) ∧
    (∃ (s a b : State) (e t : Nat) (l : Launch) (lines : List Nat), (s.eng e).job = some l ∧ (s.eng e).drain = some t ∧ (s.eng e).reset
      = none ∧ t + s.fld ⟨.drainLimit, 0, 0⟩ 0 16 ≤ s.now ∧ s.hubOn = true ∧ a = s.killCell e l lines ∧ (a.node l.key).d.isKitty
      = false ∧ b = (a.dropStarts e).countKilled l.key ∧ (b.node l.key).d.isKitty = false ∧ (((b.node l.key).st = .active ∨ (b.node l.key).st = .ready))) ∧
    (∃ (s : State) (e : Nat), (s.eng e).reset ≠ none ∧ s.hubOn = true) ∧
    (∃ (s a : State) (e t : Nat), (s.eng e).reset = some t ∧ t + 2 ≤ s.now ∧ s.hubOn = true ∧ a = (s.freeUp e).updEng e (fun x => { x with reset := none, drain := none })) :=
  ⟨⟨rdy.updDealer 7 fun x => { x with confirmed := [(0, 0)] }, 7, (0, 0), by decide +kernel, by decide +kernel, by decide +kernel,
      by decide +kernel, by decide +kernel⟩,
    ⟨(tiled (task 0) 1 0 0).updDealer 0 fun x => { x with hands := [{ key := 0, pod := 0, cls := 0, slot := 0 }] }, 0, 0, { key := 0, pod := 0, cls := 0, slot := 0 },
      0, by decide +kernel, by decide +kernel, by decide +kernel, by decide +kernel, by decide +kernel, by decide +kernel,
      by decide +kernel⟩,
    ⟨rdy, 7, by decide +kernel, by decide +kernel, by decide +kernel, by decide +kernel, by decide +kernel, by decide +kernel⟩,
    ⟨{ tiled (task 3) 1 0 1 with dl := { (tiled (task 3) 1 0 1).dl with leHand := [{ key := 0, pod := 0, cls := 3, slot := 0 }] } },
      _, _, 0, 8192, { key := 0, pod := 0, cls := 3, slot := 0 }, by decide +kernel, by decide +kernel, by decide +kernel, rfl,
      rfl⟩,
    ⟨{ (job0 {}).setNode 0 (task 0) with dl := { (job0 {}).dl with starts := [(0, {})] } }, _, 0, {}, by decide +kernel,
      by decide +kernel, by decide +kernel, rfl, by decide +kernel, by decide +kernel⟩,
    ⟨rdy.updDealer 7 fun x => { x with shares := [{ key := 0, reported := true }] }, 7, 0, 0, by decide +kernel, by decide +kernel,
      by decide +kernel, by decide +kernel⟩,
    ⟨job0 {}, 0, {}, by decide +kernel, by decide +kernel⟩,
    ⟨(job0 {}).setNode 0 (task 0x20000), _, 0, {}, .ok, _, by decide +kernel, by decide +kernel, by decide +kernel,
      by decide +kernel, by decide +kernel, rfl, by decide +kernel, by decide +kernel, rfl, by decide +kernel, rfl⟩,
    ⟨(job0 {}).setNode 0 (task 0x20000), _, 0, {}, .error, _, _, by decide +kernel, by decide +kernel, by decide +kernel,
      by decide +kernel, by decide +kernel, rfl, by decide +kernel, by decide +kernel, rfl, by decide +kernel,
      by decide +kernel, rfl⟩,
    ⟨(job0 {}).setNode 0 (task 0), _, 0, {}, .ok, _, by decide +kernel, by decide +kernel, by decide +kernel, by decide +kernel,
      by decide +kernel, rfl, by decide +kernel, by decide +kernel, rfl, by decide +kernel⟩,
    ⟨reported .ok, _, 0, { e := 0, job := {}, st := .ok, word := 0 }, by decide +kernel, by decide +kernel, by decide +kernel,
      by decide +kernel, by decide +kernel, rfl, by decide +kernel⟩,
    ⟨reported .error, _, 0, { e := 0, job := {}, st := .error, word := 0 }, by decide +kernel, by decide +kernel, by decide +kernel,
      by decide +kernel, by decide +kernel, rfl, by decide +kernel⟩,
    ⟨wins.updEng 8223 fun x => { x with job := some {} }, _, 31, {}, .ok, _, by decide +kernel, by decide +kernel, rfl,
      by decide +kernel, by decide +kernel, by decide +kernel, by decide +kernel, rfl, by decide +kernel, rfl⟩,
    ⟨wins.updEng 8223 fun x => { x with job := some {} }, _, 31, {}, .error, _, by decide +kernel, by decide +kernel, rfl,
      by decide +kernel, by decide +kernel, by decide +kernel, by decide +kernel, rfl, by decide +kernel, by decide +kernel⟩,
    ⟨(job0 { drain := some 0 }).setNode 0 { st := .active }, _, _, 0, .ok, {}, by decide +kernel, by decide +kernel,
      by decide +kernel, by decide +kernel, by decide +kernel, rfl, rfl⟩,
    ⟨rg ((job0 { drain := some 0 }).setNode 0 (task 0x20000)) .drainLimit 0 0, _, _, 0, 0, {}, [], by decide +kernel,
      by decide +kernel, by decide +kernel, by decide +kernel, by decide +kernel, rfl, by decide +kernel, rfl, by decide +kernel⟩,
    ⟨rg ((job0 { drain := some 0 }).setNode 0 (task 0)) .drainLimit 0 0, _, _, 0, 0, {}, [], by decide +kernel, by decide +kernel,
      by decide +kernel, by decide +kernel, by decide +kernel, rfl, by decide +kernel, rfl, by decide +kernel, by decide +kernel⟩,
    ⟨job0 { reset := some 0 }, 0, by decide +kernel, by decide +kernel⟩,
    ⟨{ job0 { reset := some 0 } with now := 2 }, _, 0, 0, by decide +kernel, by decide +kernel, by decide +kernel, rfl⟩⟩

set_option maxRecDepth 4000 in
theorem wit_LoopsSproutsSendsAndRetries :
    (∃ (s a : State) (c i k t : Nat), k = nk c i ∧ (s.node k).st = .ready ∧ (s.node k).d.kind = .loop ∧ s.live 1 = true ∧ s.saveHolds
      k = false ∧ s.atOnce (some (ctxSpace c, (s.node k).d.t.toNat)) = true ∧ a = ((s.updNode k fun n => { n with st := .active, startedAt := s.now, loopEnd := false }).noteHost (ctxSpace c) (s.node k).d.t.toNat)
      ∧ i < 2 ^ 20 ∧ a.readWord (ctxSpace c) (s.node k).d.t.toNat 4 = some t ∧ t = 0) ∧
    (∃ (s a : State) (c i k t : Nat), k = nk c i ∧ (s.node k).st = .ready ∧ (s.node k).d.kind = .loop ∧ s.live 1 = true ∧ s.saveHolds
      k = false ∧ s.atOnce (some (ctxSpace c, (s.node k).d.t.toNat)) = true ∧ a = ((s.updNode k fun n => { n with st := .active, startedAt := s.now, loopEnd := false }).noteHost (ctxSpace c) (s.node k).d.t.toNat)
      ∧ i < 2 ^ 20 ∧ a.readWord (ctxSpace c) (s.node k).d.t.toNat 4 = some t ∧ t ≠ 0 ∧ t ≤ (s.node k).d.tripMax) ∧
    (∃ (s : State) (c i k t : Nat), k = nk c i ∧ (s.node k).trip = some t ∧ (s.node k).st = .active ∧ (s.node k).d.kind = .loop ∧
      s.runs 1 = true ∧ s.iterationOver k = true ∧ ((s.node k).iterNo + 1 < t ∧ (s.node k).loopEnd = false)) ∧
    (∃ (s : State) (c i k t : Nat), k = nk c i ∧ (s.node k).trip = some t ∧ (s.node k).st = .active ∧ (s.node k).d.kind = .loop ∧
      s.runs 1 = true ∧ s.iterationOver k = true ∧ ((t ≤ (s.node k).iterNo + 1 ∨ (s.node k).loopEnd = true))) ∧
    (∃ (s a t : State) (c i k nc ec b : Nat) (h : List Byte) (ns : List (List Byte)) (es : List (BitVec 32)), k = nk c i ∧ i < 2 ^ 20
      ∧ (s.node k).st = .active ∧ (s.node k).d.kind = .sprout ∧ (s.node k).place = .unit ∧ s.runs 1 = true ∧ b = (s.node k).constAddr
      + 0x100 ∧ s.atOnce (some (ctxSpace c, b)) = true ∧ a = s.noteHost (ctxSpace c) b ∧ a.readBytes (ctxSpace c) b 16 = some h
      ∧ sproutHead h = (nc, ec, 0) ∧ 1 ≤ nc ∧ nc ≤ (s.node k).d.resNodes ∧ ec ≤ (s.node k).d.resEdges ∧ a.sproutArrays (ctxSpace c)
      b nc ec = some (ns, es) ∧ ns.all sproutNodeOk = true ∧ ns.all (sproutEdgesOk ec) = true ∧ ((∀ w, w ∈ es → edgeTarget w < nc))
      ∧ a.applyGraph { ctx := c, first := ((s.node k).res.getD (0, 0)).1, nodes := ns.map (moveEdgeBase ((s.node k).res.getD (0, 0)).2), efirst := ((s.node k).res.getD (0, 0)).2, edges := es.map fun w => setBits w 0 20 (edgeTarget w + ((s.node k).res.getD (0, 0)).1), cmd := (s.node k).cmd, sprout := some k }
      = .ok t) ∧
    (∃ (s a : State) (c i k : Nat), k = nk c i ∧ i < 2 ^ 20 ∧ (s.node k).st = .ready ∧ (s.node k).d.kind = .remote ∧ s.live 6 = true
      ∧ s.saveHolds k = false ∧ a = s.updNode k (fun n => { n with st := .active, startedAt := s.now, place := .unit, sent := true })
      ∧ (s.node k).d.destChip ≠ s.chipId) ∧
    (∃ (s a : State) (c i k : Nat), k = nk c i ∧ i < 2 ^ 20 ∧ (s.node k).st = .ready ∧ (s.node k).d.kind = .remote ∧ s.live 6 = true
      ∧ s.saveHolds k = false ∧ a = s.updNode k (fun n => { n with st := .active, startedAt := s.now, place := .unit, sent := true })
      ∧ (s.node k).d.destChip = s.chipId) ∧
    (∃ (s t : State) (c : Nat), s.runs 1 = true ∧ s.away c = false ∧ t = (s.ctx c).dynWait.foldl State.dynTry s) ∧
    (∃ (s : State) (k : Nat) (r : _), k ∈ (s.ctx (nkCtx k)).dynWait ∧ (s.node k).d.kind = .anchor ∧ s.trickOf k = some r) ∧
    (∃ (s : State) (k : Nat) (w : _), k ∈ (s.ctx (nkCtx k)).dynWait ∧ (s.node k).d.kind ≠ .anchor ∧ s.gs.fanHeld.find? (fun w => decide (w.node = k))
      = some w) :=
  ⟨⟨nd { st := .ready, d := { kind := .loop, b := 0x500000000, t := 0x1000 } }, _, 0, 0, _, 0, rfl, by decide +kernel,
      by decide +kernel, by decide +kernel, by decide +kernel, by decide +kernel, rfl, by decide +kernel, by decide +kernel,
      by decide +kernel⟩,
    ⟨put (nd { st := .ready, d := { kind := .loop, b := 0x500000000, t := 0x1000 } }) 0x1000 [5], _, 0, 0, _, 5, rfl,
      by decide +kernel, by decide +kernel, by decide +kernel, by decide +kernel, by decide +kernel, rfl, by decide +kernel,
      by decide +kernel, by decide +kernel, by decide +kernel⟩,
    ⟨nd { st := .active, trip := some 5, d := { kind := .loop } }, 0, 0, _, 5, rfl, by decide +kernel, by decide +kernel,
      by decide +kernel, by decide +kernel, by decide +kernel, by decide +kernel⟩,
    ⟨nd { st := .active, trip := some 1, d := { kind := .loop } }, 0, 0, _, 1, rfl, by decide +kernel, by decide +kernel,
      by decide +kernel, by decide +kernel, by decide +kernel, by decide +kernel⟩,
    ⟨put (server.setNode (nk 0 0) { st := .active, place := .unit, res := some (1024, 4096), d := { kind := .sprout, b := 0x1000, t := 0x10001 } })
      0x1100 (leBytes 2 1 ++ zeros 14 ++ leBytes 1 2 ++ zeros 31), _, _, 0, 0, _, 1, 0, 0x1100, leBytes 2 1 ++ zeros 14,
      [leBytes 1 2 ++ zeros 31], [], rfl, by decide +kernel, by decide +kernel, by decide +kernel, by decide +kernel,
      by decide +kernel, by decide +kernel, by decide +kernel, rfl, by decide +kernel, by decide +kernel, by decide +kernel,
      by decide +kernel, by decide +kernel, by decide +kernel, by decide +kernel, by decide +kernel, (fun w h => absurd h List.not_mem_nil),
      okOf (by decide +kernel)⟩,
    ⟨nd { st := .ready, d := { kind := .remote, w0 := 1 } }, _, 0, 0, _, rfl, by decide +kernel, by decide +kernel,
      by decide +kernel, by decide +kernel, by decide +kernel, rfl, by decide +kernel⟩,
    ⟨nd { st := .ready, d := { kind := .remote } }, _, 0, 0, _, rfl, by decide +kernel, by decide +kernel, by decide +kernel,
      by decide +kernel, by decide +kernel, rfl, by decide +kernel⟩,
    ⟨((cx wins { st := .resident, dynWait := [7] }).setNode 7 { st := .active, d := { kind := .anchor } }).updRos 3 fun x => { x with trick := some aTrick },
      _, 0, by decide +kernel, by decide +kernel, rfl⟩,
    ⟨((cx wins { st := .resident, dynWait := [7] }).setNode 7 { st := .active, d := { kind := .anchor } }).updRos 3 fun x => { x with trick := some aTrick },
      7, 3, by decide +kernel, by decide +kernel, by decide +kernel⟩,
    ⟨{ cx wins { st := .resident, dynWait := [7] } with gs := { (cx wins { st := .resident, dynWait := [7] }).gs with fanHeld := [{ node := 7 }] } },
      7, { node := 7 }, by decide +kernel, by decide +kernel, by decide +kernel⟩⟩

set_option maxRecDepth 4000 in
theorem wit_FanOutAndLandingEntries :
    (∃ (s a b u : State) (t : State × FanWork) (k : Nat) (bs : List Byte) (h : FanHead) (p : Pass) (rs : List (Nat × Nat × Nat)) (w : FanWork),
      s.nextFanout = some k ∧ s.gs.fan = none ∧ s.live 1 = true ∧ s.atOnce s.expandPlace = true ∧ a = (s.updNode k (fun n => { n with st := .active, startedAt := s.now, place := .unit })).noteHost
      (ctxSpace (nkCtx k)) (s.node k).d.b.toNat ∧ a.readBytes (ctxSpace (nkCtx k)) (s.node k).d.b.toNat 64 = some bs ∧ h =
      FanHead.ofBytes bs ∧ h.bad (s.node k).d = false ∧ h.epoch = a.fanEpoch k ∧ p = a.fanPass (nkCtx k) (a.node k).d (decide (h.mode = 1))
      h.tokens ∧ p.unread = false ∧ p.bad = none ∧ w = { node := k, outAddr := h.out, epoch := h.epoch, tokens := h.tokens, sized := decide (h.mode = 1), retAddr := h.ret, rowBytes := h.rowBytes, remoteTpl := h.tpl, req := p.req, kept := p.kept, entries := p.entries, masks := p.masks }
      ∧ b = a.imbalance k w ∧ (fanOffsets (a.node k).d h.tokens).2.2 ≤ h.size ∧ ((if h.place = 0 ∨ w.sized then some [] else b.placements (ctxSpace (nkCtx k)) h.place (tkeys p.kept)) = some rs)
      ∧ fanTooBig (b.node (nk (nkCtx k) (a.node k).d.fanTemplate)).d { w with remote := rs } = false ∧ t = b.openAll { w with remote := rs }
      rs ∧ u = (if t.2.waiting then t.1.bump (liCnt 2) 1 else t.1)) ∧
    (∃ (s : State) (w : FanWork) (t : State × FanWork), s.gs.fan = some w ∧ w.waiting = true ∧ (s.li.landings.filter fun x => decide (x.2.st ≠ .free)).length
      + (w.remote.length - w.opened.length) ≤ 16384 ∧ s.runs 1 = true ∧ t = s.openAll { w with waiting := false } w.remote) ∧
    (∃ (s t a b : State) (w : FanWork) (k c : Nat) (bs : List Nat), s.gs.fan = some w ∧ w.waiting = false ∧ s.runs 1 = true ∧
      s.atOnce s.rowsPlace = true ∧ s.fanPassTwo w = (t, none) ∧ k = w.node ∧ c = nkCtx k ∧ a = ((((t.bump (gcnt 12) 1).bump (ctxCnt c 7) 1).bump (ctxCnt c 8) (tabSum w.req - tabSum w.kept)).updNode k fun n => { n with fanOut := [w.outAddr, (fanOffsets (s.node k).d w.tokens).1, (fanOffsets (s.node k).d w.tokens).2.1, w.retAddr, w.rowBytes] })
      ∧ a.remoteTplBad w = false ∧ (((a.node (nk c (a.node k).d.fanTemplate)).st = .template ∨ w.kept.length = w.remote.length))
      ∧ b = ({ a with gs := { a.gs with fan := none, fanHeld := a.gs.fanHeld.filter fun h => decide (h.node ≠ k) } } : State) ∧
      lowestFree (tkeys (a.ctx c).dynN) (a.nodeBlocks c) (ceilDiv w.kept.length 64) = some bs) ∧
    (∃ (s : State) (c i k : Nat), k = nk c i ∧ (s.node k).st = .active ∧ (s.node k).d.kind = .fanout ∧ s.fanSettled k = true ∧ s.runs
      1 = true) ∧
    (∃ (s : State) (x : Nat), (s.callSlot x).busy = true ∧ s.callOver x = true ∧ s.runs 6 = true ∧ s.away (s.callSlot x).ctx = false) ∧
    (∃ (s : State) (l t0 : Nat), (s.landing l).callAt = some t0 ∧ (s.landing l).st = .isOpen ∧ s.fld ⟨.liLandCfg, 0, 0⟩ 0 20 ≠ 0 ∧ t0
      + s.fld ⟨.liLandCfg, 0, 0⟩ 0 20 ≤ s.now ∧ s.runs 6 = true) ∧
    (∃ (s a : State) (l : Nat), (((s.landing l).st = .filled ∨ (s.landing l).st = .revoked ∨ (s.landing l).st = .broken)) ∧
      s.openerDone (s.landing l) = true ∧ (s.landing l).leftAt + s.fld ⟨.liLandCfg, 0, 0⟩ 32 16 ≤ s.now ∧ s.runs 6 = true ∧ a =
      s.updLanding l (fun x => { gen := x.gen, ctx := x.ctx, dropTold := x.dropTold })) :=
  ⟨⟨put (fanNode .ready) 0x8000 (leBytes 4 4 ++ zeros 2 ++ [1] ++ zeros 1 ++ leBytes 8 0x9000 ++ leBytes 4 0x10000 ++ zeros 44), _,
      _, _, _, 0, _, _, _, _, _, by decide +kernel, by decide +kernel, by decide +kernel, by decide +kernel, rfl, som
      (by decide +kernel), rfl, by decide +kernel, by decide +kernel, rfl, by decide +kernel, by decide +kernel, rfl, rfl,
      by decide +kernel, som (by decide +kernel), by decide +kernel, rfl, rfl⟩,
    ⟨{ rdy with gs := { rdy.gs with fan := some { node := 0, waiting := true } } }, { node := 0, waiting := true }, _,
      by decide +kernel, by decide +kernel, by decide +kernel, by decide +kernel, rfl⟩,
    ⟨{ fanNode .active with gs := { (fanNode .active).gs with fan := some fanWork } }, _, _, _, fanWork, _, _, _, by decide +kernel,
      by decide +kernel, by decide +kernel, by decide +kernel, Prod.ext rfl (by decide +kernel), rfl, rfl, rfl,
      by decide +kernel, by decide +kernel, rfl, som (by decide +kernel)⟩,
    ⟨fanNode .active, 0, 0, _, rfl, by decide +kernel, by decide +kernel, by decide +kernel, by decide +kernel⟩,
    ⟨rdy.updCall 5 fun x => { x with busy := true }, 5, by decide +kernel, by decide +kernel, by decide +kernel, by decide +kernel⟩,
    ⟨{ rg (rdy.updLanding 2 fun x => { x with st := .isOpen, callAt := some 0 }) .liLandCfg 0 1 with now := 1 }, 2, 0,
      by decide +kernel, by decide +kernel, by decide +kernel, by decide +kernel, by decide +kernel⟩,
    ⟨rg (rdy.updLanding 2 fun x => { x with st := .filled }) .liLandCfg 0 0, _, 2, by decide +kernel, by decide +kernel,
      by decide +kernel, by decide +kernel, rfl⟩⟩

set_option maxRecDepth 4000 in
theorem wit_TricksRecordsAndImports :
    (∃ (s a : State) (c i x k : Nat) (q : Comp), x = nk c i ∧ k = (s.node x).d.roster ∧ (s.ctx (nkCtx x)).st = .resident ∧ s.live 4 =
      true ∧ (((s.node x).st = .ready ∧ (s.node x).d.kind = .anchor ∧ s.nextAnchor = some x ∧ s.atOnce (s.replayPlace x) = true ∧ a = s.updNode x (fun n => { n with st := .active, startedAt := s.now, place := .unit }) ∨ (s.node x).st = .active ∧ s.atOnce (s.replayPlace x) = true ∧ x ∈ (s.ros k).anchors ∧ (s.ros k).wake = true ∧ a = s))
      ∧ (a.node x).d.roster = k ∧ a.roEnabled k = true ∧ a.roCtx k = nkCtx x ∧ (a.ros k).trick = none ∧ ((a.roClosed k = false ∨ a.rosterHolds k = true))
      ∧ a.roReplayEn k = false ∧ q = a.composePass k ∧ q.bad = false ∧ q.taken ≠ [] ∧ (s.node x).st = .ready) ∧
    (∃ (s a : State) (c i x k : Nat) (q : Comp), x = nk c i ∧ k = (s.node x).d.roster ∧ (s.ctx (nkCtx x)).st = .resident ∧ s.live 4 =
      true ∧ (((s.node x).st = .ready ∧ (s.node x).d.kind = .anchor ∧ s.nextAnchor = some x ∧ s.atOnce (s.replayPlace x) = true ∧ a = s.updNode x (fun n => { n with st := .active, startedAt := s.now, place := .unit }) ∨ (s.node x).st = .active ∧ s.atOnce (s.replayPlace x) = true ∧ x ∈ (s.ros k).anchors ∧ (s.ros k).wake = true ∧ a = s))
      ∧ (a.node x).d.roster = k ∧ a.roEnabled k = true ∧ a.roCtx k = nkCtx x ∧ (a.ros k).trick = none ∧ ((a.roClosed k = false ∨ a.rosterHolds k = true))
      ∧ a.roReplayEn k = false ∧ q = a.composePass k ∧ q.bad = false ∧ q.taken ≠ [] ∧ (s.node x).st = .active) ∧
    (∃ (s a u : State) (c i x k : Nat) (q : Comp), x = nk c i ∧ k = (s.node x).d.roster ∧ (s.ctx (nkCtx x)).st = .resident ∧ s.live 4
      = true ∧ (((s.node x).st = .ready ∧ (s.node x).d.kind = .anchor ∧ s.nextAnchor = some x ∧ s.atOnce (s.replayPlace x) = true ∧ a = s.updNode x (fun n => { n with st := .active, startedAt := s.now, place := .unit }) ∨ (s.node x).st = .active ∧ s.atOnce (s.replayPlace x) = true ∧ x ∈ (s.ros k).anchors ∧ (s.ros k).wake = true ∧ a = s))
      ∧ (a.node x).d.roster = k ∧ a.roEnabled k = true ∧ a.roCtx k = nkCtx x ∧ (a.ros k).trick = none ∧ ((a.roClosed k = false ∨ a.rosterHolds k = true))
      ∧ a.roReplayEn k = false ∧ q = a.composePass k ∧ q.bad = false ∧ q.taken = [] ∧ u = (if q.skipped ≠ 0 ∧ q.skipped = ([0, 1, 2, 3].map fun j => (a.roList k j).length).sum ∧ (((q.s.noteFamine k q.skipped).anchorWaits k x).ros k).stallTold = false then (((q.s.noteFamine k q.skipped).anchorWaits k x).updRos k fun y => { y with stallTold := true }).report { typ := 0x52, source := 0x8004, ctx := some (nkCtx x), body := [k] } else (q.s.noteFamine k q.skipped).anchorWaits k x)
      ∧ (s.node x).st = .ready) ∧
    (∃ (s a u : State) (c i x k : Nat) (q : Comp), x = nk c i ∧ k = (s.node x).d.roster ∧ (s.ctx (nkCtx x)).st = .resident ∧ s.live 4
      = true ∧ (((s.node x).st = .ready ∧ (s.node x).d.kind = .anchor ∧ s.nextAnchor = some x ∧ s.atOnce (s.replayPlace x) = true ∧ a = s.updNode x (fun n => { n with st := .active, startedAt := s.now, place := .unit }) ∨ (s.node x).st = .active ∧ s.atOnce (s.replayPlace x) = true ∧ x ∈ (s.ros k).anchors ∧ (s.ros k).wake = true ∧ a = s))
      ∧ (a.node x).d.roster = k ∧ a.roEnabled k = true ∧ a.roCtx k = nkCtx x ∧ (a.ros k).trick = none ∧ ((a.roClosed k = false ∨ a.rosterHolds k = true))
      ∧ a.roReplayEn k = false ∧ q = a.composePass k ∧ q.bad = false ∧ q.taken = [] ∧ u = (if q.skipped ≠ 0 ∧ q.skipped = ([0, 1, 2, 3].map fun j => (a.roList k j).length).sum ∧ (((q.s.noteFamine k q.skipped).anchorWaits k x).ros k).stallTold = false then (((q.s.noteFamine k q.skipped).anchorWaits k x).updRos k fun y => { y with stallTold := true }).report { typ := 0x52, source := 0x8004, ctx := some (nkCtx x), body := [k] } else (q.s.noteFamine k q.skipped).anchorWaits k x)
      ∧ (s.node x).st = .active) ∧
    (∃ (s : State) (k : Nat) (t : Trick) (r : InstResult), (s.ros k).trick = some t ∧ t.instantiated = false ∧ t.folded = false ∧
      (s.node t.anchor).st = .active ∧ t.anchor ∉ (s.ctx (nkCtx t.anchor)).dynWait ∧ s.runs 4 = true ∧ r = s.instantiate (nkCtx t.anchor)
      (s.node t.anchor).d.tplBase (s.node t.anchor).d.tplCount { cmd := (s.node t.anchor).cmd, parent := some t.anchor, epoch := t.epoch, owner := .node (nkIdx t.anchor) }
      (stepChange t.tokens t.capFactor)) ∧
    (∃ (s : State) (k : Nat) (t : Trick) (r : Option State), (s.ros k).trick = some t ∧ t.resulted = false ∧ s.trickSettled t = true
      ∧ s.runs 4 = true ∧ s.atOnce (s.resultPlace k) = true ∧ r = (if t.folded then some ((s.restoreSeqs k t).dynServed t.anchor) else s.seqEnds k t 0 t.seqs)) ∧
    (∃ (s a u : State) (k wr : Nat) (r : RetRec) (rest : List RetRec), (s.ros k).retire = r :: rest ∧ s.retireFull k = false ∧ s.runs
      4 = true ∧ wr = (s.reg ⟨.roRetireWr, k, 0⟩).toNat ∧ s.writeBytes (ctxSpace (s.roCtx k)) ((s.reg ⟨.roRetireAddr, k, 0⟩).toNat + wr % 2 ^ s.fld ⟨.roRetireShift, k, 0⟩ 0 5 * 32)
      (s.retireBytes k r) = some u ∧ a = (({ (s.updRos k fun x => { x with retire := rest }).updSeq r.slot fun e => { epoch := e.epoch } with mem := u.mem, poison := u.poison } : State).setReg ⟨.roRetireWr, k, 0⟩ (BitVec.ofNat 64 ((wr + 1) % 2 ^ 32)))) ∧
    (∃ (s u v : State) (k size wr base pad n : Nat) (t : Trick), (s.ros k).trick = some t ∧ t.resulted = true ∧ s.logFull k t = false
      ∧ s.runs 4 = true ∧ size = 2 ^ s.fld ⟨.roLogShift, k, 0⟩ 0 5 ∧ wr = (s.reg ⟨.roLogWr, k, 0⟩).toNat ∧ base = (s.reg ⟨.roLogAddr, k, 0⟩).toNat
      ∧ (pad, n) = s.logNeed k t ∧ (if pad = 0 then some s else s.writeBytes (ctxSpace (s.roCtx k)) (base + wr % size * 64) padBlock)
      = some u ∧ u.writeBytes (ctxSpace (s.roCtx k)) (base + (wr + pad) % size * 64) (t.logBytes k) = some v) ∧
    (∃ (s a : State) (q l k need : Nat), s.importLanding q = some l ∧ (s.seqEnt q).st = .importing ∧ (s.landing l).st = .filled ∧
      s.runs 4 = true ∧ k = (s.seqEnt q).roster ∧ need = ceilDiv (s.seqEnt q).impTokens (s.pageTokens k) - (s.seqEnt q).pages.length
      ∧ need ≤ s.grantable k ∧ (s.givePages k q need).2 = true ∧ a = (s.givePages k q need).1.updSeq q (fun e => { e with kvLen := e.impTokens, imported := true, starved := false, st := if e.prefillLeft = 0 then .ready else .pending })) :=
  ⟨⟨rosterOf .ready 0x40004 {}, _, 0, 0, _, _, _, rfl, rfl, by decide +kernel, by decide +kernel, Or.inl ⟨by decide +kernel, by decide +kernel, by decide +kernel, by decide +kernel, rfl⟩,
      by decide +kernel, by decide +kernel, by decide +kernel, by decide +kernel, by decide +kernel, by decide +kernel, rfl,
      by decide +kernel, by decide +kernel, by decide +kernel⟩,
    ⟨rosterOf .active 0x40004 { anchors := [0], wake := true }, _, 0, 0, _, _, _, rfl, rfl, by decide +kernel, by decide +kernel,
      Or.inr ⟨by decide +kernel, by decide +kernel, by decide +kernel, by decide +kernel, rfl⟩, by decide +kernel,
      by decide +kernel, by decide +kernel, by decide +kernel, by decide +kernel, by decide +kernel, rfl, by decide +kernel,
      by decide +kernel, by decide +kernel⟩,
    ⟨rosterOf .ready 0 {}, _, _, 0, 0, _, _, _, rfl, rfl, by decide +kernel, by decide +kernel, Or.inl ⟨by decide +kernel, by decide +kernel, by decide +kernel, by decide +kernel, rfl⟩,
      by decide +kernel, by decide +kernel, by decide +kernel, by decide +kernel, by decide +kernel, by decide +kernel, rfl,
      by decide +kernel, by decide +kernel, rfl, by decide +kernel⟩,
    ⟨rosterOf .active 0 { anchors := [0], wake := true }, _, _, 0, 0, _, _, _, rfl, rfl, by decide +kernel, by decide +kernel, Or.inr
      ⟨by decide +kernel, by decide +kernel, by decide +kernel, by decide +kernel, rfl⟩, by decide +kernel, by decide +kernel,
      by decide +kernel, by decide +kernel, by decide +kernel, by decide +kernel, rfl, by decide +kernel, by decide +kernel,
      rfl, by decide +kernel⟩,
    ⟨trickOn trick0, 0, trick0, _, by decide +kernel, by decide +kernel, by decide +kernel, by decide +kernel, by decide +kernel,
      by decide +kernel, rfl⟩,
    ⟨trickOn { trick0 with instantiated := true }, 0, { trick0 with instantiated := true }, _, by decide +kernel, by decide +kernel,
      by decide +kernel, by decide +kernel, by decide +kernel, rfl⟩,
    ⟨(trickOn trick0).updRos 0 fun x => { x with retire := [⟨5, 0, 0⟩] }, _, _, 0, _, ⟨5, 0, 0⟩, [], by decide +kernel,
      by decide +kernel, by decide +kernel, rfl, som (by decide +kernel), rfl⟩,
    ⟨trickOn { trick0 with resulted := true }, _, _, 0, _, _, _, 0, 1, { trick0 with resulted := true }, by decide +kernel,
      by decide +kernel, by decide +kernel, by decide +kernel, rfl, rfl, rfl, by decide +kernel, som (by decide +kernel), som
      (by decide +kernel)⟩,
    ⟨importing, _, 5, 2, _, _, by decide +kernel, by decide +kernel, by decide +kernel, by decide +kernel, rfl, rfl,
      by decide +kernel, by decide +kernel, rfl⟩⟩

set_option maxRecDepth 8000 in
theorem wit_MonitorCommandsAreAnswered :
    (∃ (s a : State), s.console 1 a) ∧
    (∃ (s a : State), s.console 1 a ∧ a.gated 6 = false) ∧
    (∃ (s a : State) (t : _), s.console 1 a ∧ a.gated 7 = false ∧ t = a.gcntSnapCmd 1) ∧
    (∃ (s a : State) (off n ws t : _), s.console 2 a ∧ a.draoftWords off n = some (ws, t)) ∧
    (∃ (s a : State), s.console 2 a ∧ a.gated 3 = false) ∧
    (∃ (s a : State), s.console 2 a ∧ a.gated 1 = false) ∧
    (∃ (s a : State) (off r h : _), s.console 3 a ∧ target off false = some (r, h) ∧ draoftBarred r.name = false ∧ r.name ≠ .aperture
      ∧ a.unitGated r = false ∧ a.snapHolds off = false) ∧
    (∃ (s a : State), s.console 3 a ∧ a.gated 7 = false) ∧
    (∃ (s a : State) (t : _), s.console 3 a ∧ a.gated 7 = false ∧ t = a.writeReg (.core 8) ⟨.obStop, 0, 0⟩ 1 ∧ t.ob.stop ≠ a.ob.stop) ∧
    (∃ (s a : State) (t : _), s.console 3 a ∧ a.gated 7 = false ∧ t = a.writeReg (.core 8) ⟨.obStop, 0, 0⟩ 2 ∧ t.ob.stop ≠ a.ob.stop) ∧
    (∃ (s a : State) (b t : _) (id : BitVec 32), s.console 3 a ∧ a.gated 7 = false ∧ b = a.setReg ⟨.snapId, 0, 0⟩ (id.setWidth 64) ∧
      t = b.writeReg (.core 8) ⟨.obStop, 0, 0⟩ 3 ∧ t.ob.stop ≠ a.ob.stop) ∧
    (∃ (s a : State) (t : _), s.console 3 a ∧ a.gated 7 = false ∧ t = a.writeReg (.core 8) ⟨.obStop, 0, 0⟩ 4 ∧ t.ob.stop ≠ a.ob.stop) ∧
    (∃ (s t : State), s.gated 8 = false ∧ (∀ x ∈ s.st.atGate, x.1 ≠ 8) ∧ t = s.wake 8 ∧ (t.core 8).st = 2 ∧ t.sv.uartOff = false ∧
      t.ready = true ∧ 1 ≤ t.fld ⟨.svDraoft, 0, 0⟩ 0 2 ∧ t.fld ⟨.svDraoft, 0, 0⟩ 0 2 < 3) ∧
    (∃ (s : State), s.gated 8 = true) :=
  ⟨⟨monitor 3, _, con (by decide +kernel)⟩,
    ⟨monitor 3, _, con (by decide +kernel), by decide +kernel⟩,
    ⟨monitor 3, _, _, con (by decide +kernel), by decide +kernel, rfl⟩,
    ⟨monitor 3, _, 0, 1, _, _, con (by decide +kernel), som (by decide +kernel)⟩,
    ⟨monitor 3, _, con (by decide +kernel), by decide +kernel⟩,
    ⟨monitor 3, _, con (by decide +kernel), by decide +kernel⟩,
    ⟨monitor 3, _, Reg.off ⟨.slotRing, 3, 0⟩, ⟨.slotRing, 3, 0⟩, .low, con (by decide +kernel), by decide +kernel, by decide +kernel,
      by decide +kernel, by decide +kernel, by decide +kernel⟩,
    ⟨monitor 3, _, con (by decide +kernel), by decide +kernel⟩,
    ⟨monitor 3, _, _, con (by decide +kernel), by decide +kernel, rfl, by decide +kernel⟩,
    ⟨monitor 3, _, _, con (by decide +kernel), by decide +kernel, rfl, by decide +kernel⟩,
    ⟨monitor 3, _, _, _, (1 : BitVec 32), con (by decide +kernel), by decide +kernel, rfl, rfl, by decide +kernel⟩,
    ⟨{ monitor 3 with ob := { (monitor 3).ob with stop := .frozen } }, _, _, con (by decide +kernel), by decide +kernel, rfl,
      by decide +kernel⟩,
    ⟨monitor 1, _, by decide +kernel, by decide +kernel, rfl, by decide +kernel, by decide +kernel, by decide +kernel,
      by decide +kernel, by decide +kernel⟩,
    ⟨rg (monitor 3) .tsuClken 0 0x81000000, by decide +kernel⟩⟩

theorem wit_RequestParcelsComplete :
    (∃ (s w : State) (k q n c cnt : Nat) (p : Parcel), s.arrives k q 1 p ∧ s.fresh p ∧ w = s.tookReq p ∧ p.body = .decrement n c cnt
      ∧ (w.ctx c).st = .resident ∧ p.slice = w.ctxTag c ∧ w.nodesValid c = true ∧ n < w.nodeWin c) ∧
    (∃ (s w : State) (k q n c cnt : Nat) (p : Parcel), s.arrives k q 1 p ∧ s.fresh p ∧ w = s.tookReq p ∧ p.body = .decrement n c cnt
      ∧ ((w.ctx c).st = .saving ∨ (w.ctx c).st = .restoring) ∧ w.li.pend.length < 256) ∧
    (∃ (s w : State) (k q v op c amt : Nat) (o : SyncOp) (p : Parcel), s.arrives k q 2 p ∧ s.fresh p ∧ w = s.tookReq p ∧ p.body =
      .signal v op c amt ∧ p.slice = w.ctxTag c ∧ sigOp op amt = some o) ∧
    (∃ (s w u v : State) (k q x rows rb l g ep e blk : Nat) (p : Parcel), s.arrives k q 3 p ∧ s.headParcel k q = some (p, blk) ∧
      s.fresh p ∧ w = s.tookReq p ∧ p.body = .call x rows rb l g ep ∧ w.callRefusal p x = none ∧ w.serving x = some e ∧ u = (if (w.callSlot (w.nextCall e)).busy = true ∧ w.callOver (w.nextCall e) = true then w.freeCall (w.nextCall e) else w)
      ∧ v = u.popParcel k q true ∧ (u.callSlot (w.nextCall e)).busy = false ∧ (∀ y ∈ u.li.callWait, y.entry ≠ e)) ∧
    (∃ (s w u v : State) (k q x rows rb l g ep e blk : Nat) (p : Parcel), s.arrives k q 3 p ∧ s.headParcel k q = some (p, blk) ∧
      s.fresh p ∧ w = s.tookReq p ∧ p.body = .call x rows rb l g ep ∧ w.callRefusal p x = none ∧ w.serving x = some e ∧ u = (if (w.callSlot (w.nextCall e)).busy = true ∧ w.callOver (w.nextCall e) = true then w.freeCall (w.nextCall e) else w)
      ∧ v = u.popParcel k q true ∧ (u.callSlot (w.nextCall e)).busy = true) ∧
    (∃ (s : State), s.lockstep = true) :=
  ⟨⟨rcv wins { body := .decrement 5 0 1 }, _, 0, 0, 5, 0, 1, { body := .decrement 5 0 1 }, arr (by decide +kernel), fsh
      (by decide +kernel), rfl, by decide +kernel, by decide +kernel, by decide +kernel, by decide +kernel, by decide +kernel⟩,
    ⟨rcv saving { body := .decrement 5 0 1 }, _, 0, 0, 5, 0, 1, { body := .decrement 5 0 1 }, arr (by decide +kernel), fsh
      (by decide +kernel), rfl, by decide +kernel, by decide +kernel, by decide +kernel⟩,
    ⟨rcv wins { body := .signal 3 0 0 0 }, _, 0, 0, 3, 0, 0, 0, .set, { body := .signal 3 0 0 0 }, arr (by decide +kernel), fsh
      (by decide +kernel), rfl, by decide +kernel, by decide +kernel, by decide +kernel⟩,
    ⟨rcv server { body := .call 7 1 64 0 0 0 }, _, _, _, 0, 0, 7, 1, 64, 0, 0, 0, 0, 0, { body := .call 7 1 64 0 0 0 }, arr
      (by decide +kernel), by decide +kernel, fsh (by decide +kernel), rfl, by decide +kernel, by decide +kernel,
      by decide +kernel, rfl, rfl, by decide +kernel, by decide +kernel⟩,
    ⟨rcv ((server.setNode (nk 0 1) { st := .active, call := some 0 }).updCall 0 fun x => { x with busy := true }) { body := .call 7 1 64 0 0 0 },
      _, _, _, 0, 0, 7, 1, 64, 0, 0, 0, 0, 0, { body := .call 7 1 64 0 0 0 }, arr (by decide +kernel), by decide +kernel, fsh
      (by decide +kernel), rfl, by decide +kernel, by decide +kernel, by decide +kernel, rfl, rfl, by decide +kernel⟩,
    ⟨rg rdy .tsuMode 0 2, by decide +kernel⟩⟩

theorem wit_AnswersAndControlParcelsComplete :
    (∃ (s w : State) (k q l g ep off n : Nat) (data : List Byte) (p : Parcel) (x : Landing), s.arrives k q 4 p ∧ p.body = .ret l g ep
      off data ∧ w = s.bump (gcnt 7) 1 ∧ x = w.landing l ∧ n = data.length ∧ x.st = .isOpen ∧ x.gen.toNat = g ∧ x.epoch = ep ∧
      x.received = off ∧ 0 < n ∧ off + n ≤ x.expect) ∧
    (∃ (s w : State) (k q n st why : Nat) (p : Parcel), s.arrives k q 5 p ∧ p.body = .ack n st why ∧ w = s.bump (gcnt 7) 1) ∧
    (∃ (s w a b : State) (k q far lo hi sys rev : Nat) (seen : Bool) (cr : List Nat) (p : Parcel), s.arrives k q 0x10 p ∧ p.body =
      .hello far seen lo hi sys cr ∧ w = s.bump (gcnt 7) 1 ∧ rev = min hi (w.fld ⟨.liRev, 0, 0⟩ 8 8) ∧ a = (w.setReg ⟨.portFound, k, 0⟩ (BitVec.ofNat 64 (p.src + far * 2 ^ 16 + sys * 2 ^ 32))).updPort
      k (fun y => { y with gotAny := true, gotSeen := y.gotSeen || seen, farCredits := cr, farRev := (lo, hi) }) ∧ (b = (if (w.port k).st ≠ .hello then w else if rev < lo ∨ rev < a.fld ⟨.liRev, 0, 0⟩ 0 8 then ((a.toPortState k .fenced 0).updPort k fun y => { y with reason := 5 }).portEvent k 0x73 5 else (a.updPort k fun y => { y with rev := rev }).judgePort k))) ∧
    (∃ (s w b : State) (k q v : Nat) (p : Parcel), s.arrives k q 0x11 p ∧ p.body = .beat v ∧ w = s.bump (gcnt 7) 1 ∧ b = (if w.beatSource = 2 ∧ w.beatPort = some k ∧ w.ready then if w.beatTick + w.beatWindow < w.beatPeriod then w.glitch else if w.beatTick ≤ w.beatPeriod + w.beatWindow then { w with tb := { w.tb with remote := some v, remoteAt := w.now } } else w else w.bump (liCnt 10) 1)) ∧
    (∃ (s w b : State) (k q id : Nat) (p : Parcel), s.arrives k q 0x12 p ∧ p.body = .cutMarker id ∧ s.ob.stop ≠ .snapped ∧ w = s.bump
      (gcnt 7) 1 ∧ b = (if higher32 id (w.fld ⟨.snapLast, 0, 0⟩ 0 32) then w.takeSnap id (some k) else w)) ∧
    (∃ (s : State), s.lockstep = true) ∧
    (∃ (s : State), s.lockstep = true ∧ s.ob.stop ≠ .snapped) :=
  ⟨⟨rcv (wins.updLanding 2 fun x => { x with st := .isOpen, expect := 64 }) { body := .ret 2 0 0 0 (zeros 64) }, _, 0, 0, 2, 0, 0,
      0, _, zeros 64, { body := .ret 2 0 0 0 (zeros 64) }, _, arr (by decide +kernel), by decide +kernel, rfl, rfl, rfl,
      by decide +kernel, by decide +kernel, by decide +kernel, by decide +kernel, by decide +kernel, by decide +kernel⟩,
    ⟨rcv wins { body := .ack 4 0 0 }, _, 0, 0, 4, 0, 0, { body := .ack 4 0 0 }, arr (by decide +kernel), by decide +kernel, rfl⟩,
    ⟨rcv wins { body := .hello 1 false 4 5 0 [] }, _, _, _, 0, 0, 1, 4, 5, 0, _, false, [], { body := .hello 1 false 4 5 0 [] }, arr
      (by decide +kernel), by decide +kernel, rfl, rfl, rfl, rfl⟩,
    ⟨rcv (rg (beating 2 100) .portCfg 0 4) { body := .beat 9 }, _, _, 0, 0, 9, { body := .beat 9 }, arr (by decide +kernel),
      by decide +kernel, rfl, rfl⟩,
    ⟨rcv wins { body := .cutMarker 1 }, _, _, 0, 0, 1, { body := .cutMarker 1 }, arr (by decide +kernel), by decide +kernel,
      by decide +kernel, rfl, rfl⟩,
    ⟨rg rdy .tsuMode 0 2, by decide +kernel⟩,
    ⟨rg rdy .tsuMode 0 2, by decide +kernel, by decide +kernel⟩⟩

theorem wit_StepRunsTheFrontCommand :
    ∃ (s : State) (c : Instr) (cs : List Instr), s.pending = c :: cs :=
  ⟨{ rdy with pending := [.gsInitDone, .startReady] }, .gsInitDone, [.startReady], by decide +kernel⟩

theorem wit_AnEmptyQueueIsOneHubCycle :
    (∃ (s : State), s.pending = []) ∧
    (∃ (s : State) (u : _), s.pending = [] ∧ u = (s.bump (gcnt 0) 1).settleShort ∧ (∀ x ∈ u.st.atGate, u.gated x.1 = true)) :=
  ⟨⟨rdy, by decide +kernel⟩,
    ⟨rdy, _, by decide +kernel, rfl, by decide +kernel⟩⟩

theorem wit_EveryStepKeepsMemoryCanonical :
    ∃ (s t : State), s.Wf ∧ step s = .next t :=
  ⟨put { rdy with pending := [.retireRecordWrite 0] } 0x40 [1, 2], _, (by decide +kernel : Memory.wf _ = true), rfl⟩


theorem wit_CommandsKeepQueueMapAndWhatWasDriven :
    ∃ (c : Instr) (s t : State), exec c s = .next t :=
  ⟨.gsInitDone, State.reset, _, rfl⟩

theorem wit_StorelessCommandsLeaveMemory :
    ∃ (c : Instr) (s t : State), mayStore c = false ∧ exec c s = .next t :=
  ⟨.gsInitDone, State.reset, _, by decide +kernel, rfl⟩

theorem wit_NodeDescriptorsRoundTrip :
    ∃ (bs : List Byte) (d : Desc), bs.length = 32 ∧ leAt bs 4 4 < 2 ^ 22 ∧ Desc.decode bs = some d :=
  ⟨leBytes 1 2 ++ zeros 31, { kind := .join }, by decide +kernel, by decide +kernel, by decide +kernel⟩

theorem wit_EveryRegisterIsReachedAtItsOffset :
    (∃ (r : Reg), r.valid = true) ∧
    (∃ (r : Reg), r.valid = true ∧ r.row.wide = true) ∧
    (∃ (r : Reg), r.valid = true ∧ r.row.wide = false) :=
  ⟨⟨⟨.slotCfg, 255, 0⟩, by decide +kernel⟩,
    ⟨⟨.slotRing, 255, 0⟩, by decide +kernel, by decide +kernel⟩,
    ⟨⟨.tsuErr, 0, 0⟩, by decide +kernel, by decide +kernel⟩⟩

set_option maxRecDepth 8000 in
theorem wit_TeardownLeavesNothingOfTheContext :
    (∃ (c : Nat) (s t : State), (s.ctx c).st = .faulted ∧ (s.ctx c).torn = false ∧ (s.ctx c).faultedInSave = false ∧ s.tearDrained c
      = true ∧ s.hubOn = true ∧ exec (.teardownContinue c) s = .next t) ∧
    (∃ (c : Nat) (s t : State) (e : _), (s.ctx c).st = .faulted ∧ (s.ctx c).torn = false ∧ (s.ctx c).faultedInSave = false ∧
      s.tearDrained c = true ∧ s.hubOn = true ∧ exec (.teardownContinue c) s = .next t ∧ e ∈ t.gs.edges) ∧
    (∃ (c : Nat) (s t : State) (r d h : _), (s.ctx c).st = .faulted ∧ (s.ctx c).torn = false ∧ (s.ctx c).faultedInSave = false ∧
      s.tearDrained c = true ∧ s.hubOn = true ∧ exec (.teardownContinue c) s = .next t ∧ (r, d) ∈ t.dl.dealers ∧ h ∈ d.hands) ∧
    (∃ (c : Nat) (s t : State) (r d : _) (h : Share), (s.ctx c).st = .faulted ∧ (s.ctx c).torn = false ∧ (s.ctx c).faultedInSave =
      false ∧ s.tearDrained c = true ∧ s.hubOn = true ∧ exec (.teardownContinue c) s = .next t ∧ (r, d) ∈ t.dl.dealers ∧ h ∈
      d.shares) ∧
    (∃ (c : Nat) (s t : State) (r d x : _), (s.ctx c).st = .faulted ∧ (s.ctx c).torn = false ∧ (s.ctx c).faultedInSave = false ∧
      s.tearDrained c = true ∧ s.hubOn = true ∧ exec (.teardownContinue c) s = .next t ∧ (r, d) ∈ t.dl.dealers ∧ x ∈ d.confirmed) ∧
    (∃ (c : Nat) (s t : State) (x : _), (s.ctx c).st = .faulted ∧ (s.ctx c).torn = false ∧ (s.ctx c).faultedInSave = false ∧
      s.tearDrained c = true ∧ s.hubOn = true ∧ exec (.teardownContinue c) s = .next t ∧ x ∈ t.dl.starts) :=
  ⟨⟨0, tearing0, _, by decide +kernel, by decide +kernel, by decide +kernel, by decide +kernel, by decide +kernel, rfl⟩,
    ⟨0, tearing0, _, (ek 1 0, 5), by decide +kernel, by decide +kernel, by decide +kernel, by decide +kernel, by decide +kernel, rfl,
      by decide +kernel⟩,
    ⟨0, tearing0, _, 0, { hands := [{ key := nk 1 0, pod := 0, cls := 0, slot := 0 }], shares := [{ key := nk 1 1 }], confirmed := [(nk 1 2, 0)] },
      { key := nk 1 0, pod := 0, cls := 0, slot := 0 }, by decide +kernel, by decide +kernel, by decide +kernel,
      by decide +kernel, by decide +kernel, rfl, by decide +kernel, by decide +kernel⟩,
    ⟨0, tearing0, _, 0, { hands := [{ key := nk 1 0, pod := 0, cls := 0, slot := 0 }], shares := [{ key := nk 1 1 }], confirmed := [(nk 1 2, 0)] },
      { key := nk 1 1 }, by decide +kernel, by decide +kernel, by decide +kernel, by decide +kernel, by decide +kernel, rfl,
      by decide +kernel, by decide +kernel⟩,
    ⟨0, tearing0, _, 0, { hands := [{ key := nk 1 0, pod := 0, cls := 0, slot := 0 }], shares := [{ key := nk 1 1 }], confirmed := [(nk 1 2, 0)] },
      (nk 1 2, 0), by decide +kernel, by decide +kernel, by decide +kernel, by decide +kernel, by decide +kernel, rfl,
      by decide +kernel, by decide +kernel⟩,
    ⟨0, tearing0, _, (0, { ctx := 1 }), by decide +kernel, by decide +kernel, by decide +kernel, by decide +kernel,
      by decide +kernel, rfl, by decide +kernel⟩⟩

theorem wit_AccessesWaitOrAreAborted :
    (∃ (s t : State) (who : Requester) (r : Reg) (v : BitVec 64), s.ob.stop = .snapped ∧ r.valid = true ∧ r.off / 0x10000 ≠ 8 ∧ r.off
      / 0x10000 ≠ 0xB ∧ t = { s with ob := { s.ob with snapHeld := s.ob.snapHeld ++ [.write who r.off r.row.wide v] } }) ∧
    (∃ (s t : State) (n : Nat) (v : BitVec 32), s.ob.stop = .snapped ∧ t = { s with ob := { s.ob with snapHeld := s.ob.snapHeld ++ [.doorbell n v] } }) ∧
    (∃ (s : State) (r : _), s.lockstep = true ∧ s.ob.stop ≠ .snapped ∧ Reg.valid r = true) ∧
    (∃ (s : State), s.lockstep = true ∧ s.ob.stop ≠ .snapped) ∧
    (∃ (s : State) (h t : _), s.lockstep = true ∧ s.ob.stop ≠ .snapped ∧ t = ({ s with ob := { s.ob with inputs := s.ob.inputs ++ [h] } } : State)) ∧
    (∃ (s : State), s.ready = false ∧ s.inputsWait = false ∧ s.ob.snapHeld = [] ∧ s.ob.stop ≠ .snapped) ∧
    (∃ (s : State) (r h off : _), s.ready = false ∧ s.inputsWait = false ∧ s.ob.snapHeld = [] ∧ s.ob.stop ≠ .snapped ∧ target off
      false = some (r, h) ∧ r.name ≠ .tsuIdent ∧ r.name ≠ .tsuStart) :=
  ⟨⟨stopped .snapped, _, .host, ⟨.slotRing, 255, 0⟩, 0, by decide +kernel, by decide +kernel, by decide +kernel, by decide +kernel,
      rfl⟩,
    ⟨stopped .snapped, _, 3, 0, by decide +kernel, rfl⟩,
    ⟨rg rdy .tsuMode 0 2, ⟨.slotRing, 255, 0⟩, by decide +kernel, by decide +kernel, by decide +kernel⟩,
    ⟨rg rdy .tsuMode 0 2, by decide +kernel, by decide +kernel⟩,
    ⟨rg rdy .tsuMode 0 2, .beatPin, _, by decide +kernel, by decide +kernel, rfl⟩,
    ⟨State.reset, by decide +kernel, by decide +kernel, by decide +kernel, by decide +kernel⟩,
    ⟨State.reset, ⟨.slotRing, 3, 0⟩, .low, Reg.off ⟨.slotRing, 3, 0⟩, by decide +kernel, by decide +kernel, by decide +kernel,
      by decide +kernel, by decide +kernel, by decide +kernel, by decide +kernel⟩⟩

set_option maxRecDepth 8000 in
theorem wit_WritesStayInTheirBytes :
    (∃ (s t : State) (sp a : Nat) (bs : List Byte), s.Wf ∧ s.writeBytes sp a bs = some t) ∧
    (∃ (s t : State) (sp a : Nat) (bs : List Byte) (p : _), s.Wf ∧ s.writeBytes sp a bs = some t ∧ ((∀ i, i < bs.length → s.phys sp (a + i) ≠ some p))) ∧
    (∃ (s t : State) (sp a : Nat) (bs : List Byte) (i p : _), s.Wf ∧ s.writeBytes sp a bs = some t ∧ i < bs.length ∧ s.phys sp (a + i)
      = some p ∧ ((∀ j, j < bs.length → s.phys sp (a + j) = some p → j = i))) ∧
    (∃ (s t : State) (k p : Nat), s.Wf ∧ exec (.retireRecordWrite k) s = .next t ∧ ((∀ i, i < 32 → s.phys (ctxSpace (s.roCtx k)) ((s.reg ⟨.roRetireAddr, k, 0⟩).toNat + (s.reg ⟨.roRetireWr, k, 0⟩).toNat % 2 ^ s.fld ⟨.roRetireShift, k, 0⟩ 0 5 * 32 + i) ≠ some p))) :=
  ⟨⟨rdy, _, 0, 64, [1, 2], (by decide +kernel : Memory.wf _ = true), som (by decide +kernel)⟩,
    ⟨rdy, _, 0, 64, [1, 2], 66, (by decide +kernel : Memory.wf _ = true), som (by decide +kernel), by decide +kernel⟩,
    ⟨rdy, _, 0, 64, [1, 2], 1, 65, (by decide +kernel : Memory.wf _ = true), som (by decide +kernel), by decide +kernel,
      by decide +kernel, by decide +kernel⟩,
    ⟨rg rdy .roRetireShift 0 6, _, 0, 32, (by decide +kernel : Memory.wf _ = true), rfl, by decide +kernel⟩⟩

theorem wit_PicksTakeTheFirstFreeTileFromThePointer :
    ∃ (ptr e : Nat) (es : List Nat), ptr < 48 ∧ ((∀ x, x ∈ es → engTile x < 48)) ∧ pickFrom ptr es = some e :=
  ⟨32, 2688, [2528, 2544, 2688], by decide +kernel, by decide +kernel, by decide +kernel⟩

theorem wit_SharesDivideThePanels :
    (∃ (es : List Nat) (n : Nat) (p : _), es ≠ [] ∧ p < n) ∧
    (∃ (es : List Nat) (n : Nat) (b c p : _), es ≠ [] ∧ b ∈ shareBounds es n ∧ c ∈ shareBounds es n ∧ b.2.1 ≤ p ∧ p < b.2.2 ∧ c.2.1 ≤
      p ∧ p < c.2.2) ∧
    (∃ (es : List Nat) (n : Nat) (b : _), es ≠ [] ∧ b ∈ shareBounds es n) :=
  ⟨⟨[0, 1024], 5, 4, by decide +kernel, by decide +kernel⟩,
    ⟨[0, 1024], 5, (0, 0, 2), (0, 0, 2), 1, by decide +kernel, by decide +kernel, by decide +kernel, by decide +kernel,
      by decide +kernel, by decide +kernel, by decide +kernel⟩,
    ⟨[0, 1024], 5, (0, 0, 2), by decide +kernel, by decide +kernel⟩⟩

theorem wit_DriverTeardownFaultsTheContext :
    (∃ (s w : State) (v : BitVec 32) (c : Nat), s.admits ⟨.fcTeardown, 0, 0⟩ w ∧ c = bits v 0 9 ∧ (w.ctx c).st ≠ .unused ∧ (w.ctx c).st
      ≠ .faulted) ∧
    (∃ (s w : State) (v : BitVec 32) (c : Nat), s.admits ⟨.fcTeardown, 0, 0⟩ w ∧ c = bits v 0 9 ∧ ((w.ctx c).st = .unused ∨ (w.ctx c).st = .faulted)) :=
  ⟨⟨cx rdy { st := .resident }, _, 0, _, adm (by decide +kernel), rfl, by decide +kernel, by decide +kernel⟩,
    ⟨rdy, _, 511, _, adm (by decide +kernel), rfl, by decide +kernel⟩⟩

theorem wit_LaunchCompletionAndTraceRecordsAreLaidOut :
    (∃ (l : Launch) (r : List Byte), r = l.bytes) ∧
    (∃ (c : CplRec) (n : Nat) (r : List Byte), r = c.bytes n) ∧
    (∃ (t : TraceRec) (r : List Byte), r = t.bytes) :=
  ⟨⟨{ node := 5 }, _, rfl⟩,
    ⟨{ seq := 7 }, 3, _, rfl⟩,
    ⟨{ typ := 8, source := 10 }, _, rfl⟩⟩

theorem wit_CallRecordsAreLaidOut :
    ∃ (p : Parcel) (x rows rb l gen ep : Nat) (r : List Byte), r = callRecord p x rows rb l gen ep :=
  ⟨{ body := .beat 0 }, 7, 1, 64, 2, 1, 0, _, rfl⟩

theorem wit_TheFanOutAreaIsLaidOut :
    ∃ (d : Desc) (tokens e k cap b : Nat), e = d.expertsM1 + 1 ∧ k = d.topk ∧ cap = (if d.capacity ≠ 0 then d.capacity else tokens) ∧ b
    = min (tokens * k) (e * cap) :=
  ⟨{ kind := .fanout, t := 0x1000 }, 4, _, _, _, _, rfl, rfl, rfl, rfl⟩

set_option maxRecDepth 8000 in
theorem wit_HostReadsWaitInLockstep :
    (∃ (s : State) (n : _), s.lockstep = true ∧ s.hubOn = true ∧ s.hostAt (ctxSpace (s.slotCtx n)) (s.reg ⟨.slotShadow, n, 0⟩).toNat
      = true ∧ .completion (.shadowPoll n) ∉ s.ob.inputs) ∧
    (∃ (s : State) (n : _), s.lockstep = true ∧ s.hubOn = true ∧ s.slotShadow n = true ∧ s.hostAt (ctxSpace (s.slotCtx n)) (s.reg ⟨.slotShadow, n, 0⟩).toNat
      = true ∧ .completion (.slotIdleCheck n) ∉ s.ob.inputs) ∧
    (∃ (s : State) (c i : _), s.lockstep = true ∧ s.hubOn = true ∧ s.hostAt (ctxSpace c) (s.node (nk c i)).d.t.toNat = true ∧
      .completion (.loopStart c i) ∉ s.ob.inputs) ∧
    (∃ (s : State) (c i : _), s.lockstep = true ∧ s.hubOn = true ∧ s.hostAt (ctxSpace c) ((s.node (nk c i)).constAddr + 0x100) = true
      ∧ .completion (.sproutRead c i) ∉ s.ob.inputs) ∧
    (∃ (s : State) (c i : _), s.lockstep = true ∧ s.hubOn = true ∧ s.hostAt (ctxSpace (s.node (nk c i)).ptrCtx) (s.node (nk c i)).d.b.toNat
      = true ∧ .completion (.indirectPointerRead c i) ∉ s.ob.inputs) ∧
    (∃ (s : State) (c vid : _), s.lockstep = true ∧ s.hubOn = true ∧ s.hostAt (ctxSpace c) ((s.reg ⟨.xlatBase, c, 0⟩).toNat + 8 * vid)
      = true ∧ .completion (.xlatFill c vid) ∉ s.ob.inputs) ∧
    (∃ (s : State) (c : _), s.lockstep = true ∧ s.hubOn = true ∧ s.hostAt devSpace (s.reg ⟨.ctxSaveAddr, c, 0⟩).toNat = true ∧
      .completion (.restoreComplete c) ∉ s.ob.inputs) ∧
    (∃ (s : State) (x : _), s.lockstep = true ∧ s.hubOn = true ∧ s.expandPlace = some x ∧ s.hostAt x.1 x.2 = true ∧ .completion
      .fanoutExpand ∉ s.ob.inputs) ∧
    (∃ (s : State) (x : _), s.lockstep = true ∧ s.hubOn = true ∧ s.rowsPlace = some x ∧ s.hostAt x.1 x.2 = true ∧ .completion
      .fanoutInstantiate ∉ s.ob.inputs) ∧
    (∃ (s : State) (n x : _), s.lockstep = true ∧ s.hubOn = true ∧ s.headArray n = some x ∧ s.hostAt x.1 x.2 = true ∧ .completion
      (.launchGraph n) ∉ s.ob.inputs) ∧
    (∃ (s : State) (n x : _), s.lockstep = true ∧ s.hubOn = true ∧ s.headArray n = some x ∧ s.hostAt x.1 x.2 = true ∧ .completion
      (.appendNodes n) ∉ s.ob.inputs) ∧
    (∃ (s : State) (n x : _), s.lockstep = true ∧ s.hubOn = true ∧ s.headArray n = some x ∧ s.hostAt x.1 x.2 = true ∧ .completion
      (.rosterAdmit n) ∉ s.ob.inputs) ∧
    (∃ (s : State) (n x : _), s.lockstep = true ∧ s.hubOn = true ∧ s.headArray n = some x ∧ s.hostAt x.1 x.2 = true ∧ .completion
      (.rosterExtend n) ∉ s.ob.inputs) ∧
    (∃ (s : State) (n x : _), s.lockstep = true ∧ s.hubOn = true ∧ s.headArray n = some x ∧ s.hostAt x.1 x.2 = true ∧ .completion
      (.rosterFold n) ∉ s.ob.inputs) ∧
    (∃ (s : State) (c i x : _), s.lockstep = true ∧ s.hubOn = true ∧ s.replayPlace (nk c i) = some x ∧ s.hostAt x.1 x.2 = true ∧
      .completion (.trickCompose c i) ∉ s.ob.inputs) ∧
    (∃ (s : State) (c i x : _), s.lockstep = true ∧ s.hubOn = true ∧ s.replayPlace (nk c i) = some x ∧ s.hostAt x.1 x.2 = true ∧
      .completion (.composeRetry c i) ∉ s.ob.inputs) ∧
    (∃ (s : State) (k x : _), s.lockstep = true ∧ s.hubOn = true ∧ s.resultPlace k = some x ∧ s.hostAt x.1 x.2 = true ∧ .completion
      (.trickEnd k) ∉ s.ob.inputs) ∧
    (∃ (s : State) (n : _), s.lockstep = true ∧ s.hubOn = true ∧ s.nextFetch = some n ∧ s.fetchesOut.length < 8 ∧ s.hostAt (ctxSpace (s.slotCtx n))
      ((s.reg ⟨.slotRing, n, 0⟩).toNat + (s.slot n).wdev.toNat % s.ringSize n * 64) = true ∧ .completion (.ringFetch n) ∉
      s.ob.inputs) :=
  ⟨⟨hosted rdy, 0, by decide +kernel, by decide +kernel, by decide +kernel, by decide +kernel⟩,
    ⟨hosted (rg rdy .slotCfg 0 4), 0, by decide +kernel, by decide +kernel, by decide +kernel, by decide +kernel, by decide +kernel⟩,
    ⟨hosted rdy, 0, 0, by decide +kernel, by decide +kernel, by decide +kernel, by decide +kernel⟩,
    ⟨hosted rdy, 0, 0, by decide +kernel, by decide +kernel, by decide +kernel, by decide +kernel⟩,
    ⟨hosted rdy, 0, 0, by decide +kernel, by decide +kernel, by decide +kernel, by decide +kernel⟩,
    ⟨hosted rdy, 0, 3, by decide +kernel, by decide +kernel, by decide +kernel, by decide +kernel⟩,
    ⟨hosted rdy, 0, by decide +kernel, by decide +kernel, by decide +kernel, by decide +kernel⟩,
    ⟨hosted (fanNode .ready), (1, 0x8000), by decide +kernel, by decide +kernel, by decide +kernel, by decide +kernel,
      by decide +kernel⟩,
    ⟨hosted { fanNode .active with gs := { (fanNode .active).gs with fan := some { node := 0 } } }, (1, 0x8040), by decide +kernel,
      by decide +kernel, by decide +kernel, by decide +kernel, by decide +kernel⟩,
    ⟨hosted (headed wins (rb 1 0x1000 0 0 0 0 0)), 0, (1, 0), by decide +kernel, by decide +kernel, by decide +kernel,
      by decide +kernel, by decide +kernel⟩,
    ⟨hosted (headed wins (rb 1 0x1000 0 0 0 0 0)), 0, (1, 0), by decide +kernel, by decide +kernel, by decide +kernel,
      by decide +kernel, by decide +kernel⟩,
    ⟨hosted (headed wins (rb 1 0x1000 0 0 0 0 0)), 0, (1, 0), by decide +kernel, by decide +kernel, by decide +kernel,
      by decide +kernel, by decide +kernel⟩,
    ⟨hosted (headed wins (rb 1 0x1000 0 0 0 0 0)), 0, (1, 0), by decide +kernel, by decide +kernel, by decide +kernel,
      by decide +kernel, by decide +kernel⟩,
    ⟨hosted (headed wins (rb 1 0x1000 0 0 0 0 0)), 0, (1, 0), by decide +kernel, by decide +kernel, by decide +kernel,
      by decide +kernel, by decide +kernel⟩,
    ⟨hosted (rg (rosterOf .ready 0 {}) .roCtrl 0 0x21 |> fun s => rg s .roReplayWr 0 1), 0, 0, (1, 0), by decide +kernel,
      by decide +kernel, by decide +kernel, by decide +kernel, by decide +kernel⟩,
    ⟨hosted (rg (rosterOf .ready 0 {}) .roCtrl 0 0x21 |> fun s => rg s .roReplayWr 0 1), 0, 0, (1, 0), by decide +kernel,
      by decide +kernel, by decide +kernel, by decide +kernel, by decide +kernel⟩,
    ⟨hosted (trickOn { trick0 with instantiated := true }), 0, (1, 0x74), by decide +kernel, by decide +kernel, by decide +kernel,
      by decide +kernel, by decide +kernel⟩,
    ⟨hosted (rg (slt rdy { st := .fetching, whost := 2 }) .slotCfg 0 0x3000), 0, by decide +kernel, by decide +kernel,
      by decide +kernel, by decide +kernel, by decide +kernel, by decide +kernel⟩⟩

theorem wit_OfferMessagesTouchOnlyTheDealing :
    ∃ (s t : State) (r c i : Nat) (x : Instr), ((x = .offerAnswer r c i ∨ x = .answerArrival r c i ∨ x = .offerWithdraw r c i)) ∧ exec x
    s = .next t :=
  ⟨offering (nd (task 0)) { key := 0, regions := [0], asked := [0] }, _, 0, 0, 0, .offerAnswer 0 0 0, by decide +kernel, rfl⟩

theorem wit_PortEventsTouchOnlyTheLinks :
    (∃ (s w t : State) (k : Nat) (x : Instr), s.gated 6 = false ∧ (∀ y ∈ s.st.atGate, y.1 ≠ 6) ∧ ((x = .phyReady k ∧ w = s.wake 6 ∨ (x = .retrainExpiry k ∨ x = .linkSilent k ∨ x = .helloSend k) ∧ w = s))
      ∧ exec x s = .next t) ∧
    (∃ (s : State), s.gated 6 = true) :=
  ⟨⟨rdy.updPort 3 fun x => { x with st := .training }, _, _, 3, .phyReady 3, by decide +kernel, by decide +kernel, Or.inl ⟨rfl, rfl⟩,
      rfl⟩,
    ⟨rg (port3 id) .tsuClken 0 0x80400000, by decide +kernel⟩⟩

theorem wit_AStoppedHubDoesNothing :
    (∃ (s : State), s.hubOn = false) ∧
    (∃ (s : State), s.hubOn = false ∧ s.gated 6 = false ∧ (∀ x ∈ s.st.atGate, x.1 ≠ 6) ∧ (s.wake 6).hubOn = false) :=
  ⟨⟨stopped .frozen, by decide +kernel⟩,
    ⟨stopped .frozen, by decide +kernel, by decide +kernel, by decide +kernel, by decide +kernel⟩⟩

/-! ### Ill-formed commands are refused -/

theorem test_wf_ranges : [Instr.doorbellWrite 256 0, .destroy (.core 9) 0, .destroy .host 256, .tsetCommit .host 16 0,
    .tileOwnerWrite .host 384 0, .tileDeparted 384, .contextSave .host 512 0, .saveImageWrite 512, .freeze (.core 9), .spiDone (zeros 65),
    .firmwareLoad .host 9 0, .firmwareLoaded 9, .inspSelect .host 0 0, .inspSelect .host 11 0, .registerWrite .host (2 ^ 22) 0,
    .accessAbort .host 3 0 4 false, .rosterEnable .host 16 0, .portEnable .host 64 0, .portExpectWrite .host (some 64) 0, .scrub 512 ⟨0, .none⟩,
    .scrub 0 ⟨2 ^ 20, .none⟩, .offerAnswer 8 0 0, .backlogDispatch 16 0, .issueSlot 8, .regionPathFault 9 ⟨0, 8⟩, .invalDone 0x300, .invalDone 0xB,
    .invalDone 0x2020, .leCompletion 32 .ok 0, .callSlotFree 4096, .landingTimeout 16384, .trickEnd 16, .importLanded 16384,
    .syncRead 0 (2 ^ 24) .tile, .xlatFill 0 (2 ^ 24), .supplyWarn 9, .pllStable 10, .vectorSignal 512, .donateTimeout (2 ^ 18),
    .allBlocked 16, .ackReceive 64 0, .ackReceive 0 11, .nakReceive 64 0, .e2eResend 8192 0, .nativeGateStop 9, .draoftRd 0 0,
    .draoftRd 0 65, .draoftObj 3 0, .draoftDump false 16, .draoftDump true 512, .draoftWr (2 ^ 22) 0].any Instr.wf = false := by
  decide +kernel

theorem test_wf_accepts : [Instr.doorbellWrite 255 0, .invalDone 0x1FAF, .invalDone 0x1EFA, .regionPathFault 8 ⟨0, 8⟩, .draoftDump true 511,
    .beatTick].map Instr.wf = [true, false, true, true, true, true] := by decide +kernel

/-! ### Worked examples of the spec -/

/-- The state that a command leaves. -/
def after (o : Host.Outcome State Fault Refusal) : State :=
  match o with
  | .next t => t
  | _ => State.reset

/-- 03, "five issue slots in region 2": the engine dealt in each slot. -/
theorem test_five_issue_slots : [pickFrom 32 [0x09E0, 0x09F0, 0x0A80], pickFrom 10 [0x0830, 0x0910], pickFrom 0 [0x0823, 0x0825],
    pickFrom 41 [0x09E0, 0x09F0], pickFrom 18 [0x0830]] = [some 0x0A80, some 0x0910, some 0x0823, some 0x09E0, some 0x0830] := by
  decide +kernel

/-- 03, the same table: the pointer after slot s is 41. -/
theorem test_pointer_after_slot : tget 0 ((rdy.movePtr 2 4 0 0x0A80).dealer 2).ptr 12 = 41 := by decide +kernel

/-- 03, "one kitty node in the three modes": dealer 2 holds panels 0 to 32 and dealer 3 panels 33 to 47. -/
theorem test_kitty_shares : shareBounds (((List.range 16).map fun t => cellId 2 t 0) ++ [0, 1, 2, 3, 4, 6, 7].map fun t => cellId 3 t 0) 48 =
    [(2, 0, 33), (3, 33, 48)] := by decide +kernel

/-- 02, "one kitty node": its 32 bytes. -/
theorem test_kitty_descriptor :
    let d : Desc := ⟨.task, 0x90, 2, 256, 1, 53, 0x00300050, 0x0000004012345600, 7⟩
    d.encode =
    [0x01, 0x90, 0x02, 0x00, 0x00, 0x01, 0x00, 0x00, 0x01, 0x00, 0x35, 0x00, 0x50, 0x00, 0x30, 0x00,
     0x00, 0x56, 0x34, 0x12, 0x40, 0x00, 0x00, 0x00, 0x07, 0x00, 0x00, 0x00, 0x00, 0x00, 0x00, 0x00] := by decide +kernel

/-- 04, "every token picks one expert": LIST_OFF, MASK_OFF and the size needed. -/
theorem test_fanout_offsets : fanOffsets { kind := .fanout, t := 0x00000A000000103F } 512 = (0x440, 0xC40, 0xE40) := by decide +kernel

/-- 04, "one row moves": the counts and the masks. -/
theorem test_one_row_moves :
    let rows : List (List (BitVec 32)) := [[1, 2], [1, 0], [1, 2], [2, 1], [1, 3], [2, 2]]
    let p := (List.range 6).foldl (fun p t => Pass.row 4 3 t 0 [] 0 (rows.getD t []) p) {}
    ([0, 1, 2, 3].map (tget 0 p.req), [0, 1, 2, 3].map (tget 0 p.kept), p.masks.reverse, [0, 1, 2, 3].map (fanFirst p.kept)) =
      ([1, 5, 4, 1], [1, 3, 3, 1], [3, 3, 3, 1, 2, 0], [0, 1, 4, 7]) := by decide +kernel

/-- 17, "one trick": BATCH_BYTES must hold 266,304 bytes for 4,096 sequences and 512 tokens. -/
theorem test_batch_bytes : batchBytes 512 4096 = 266304 := by decide +kernel

/-- Tally P of "a two-buffer pipeline" (07) at `v` and its partner C at `c`, one of them behind VID 3. -/
def pipeline (role : BitVec 2) (mine partner : BitVec 48) : State :=
  (synced 1 { alloc := true, kind := 2, value := mine, role := role, partner := 6, depth := 2 }).setObj (objKey 2 6)
    { alloc := true, kind := 2, value := partner }

/-- 07: ADVANCE P at 2, 0 is refused past the depth, and applied at 1, 0 (2 ≤ 0 + 2). -/
theorem test_advance_producer :
    ((after (exec (.syncAdvance 0 3 .chip 1) (pipeline 1 1 0))).obj (objKey 2 5)).value = 2 ∧
    ((after (exec (.syncAdvance 0 3 .chip 1) (pipeline 1 2 0))).obj (objKey 2 5)).value = 2 := by decide +kernel

/-- 07: the second ADVANCE of C at 4, 4 is refused with UNDERRUN, SY_MISUSE and one SYNC_MISUSE packet. -/
theorem test_advance_underrun :
    let t := after (exec (.syncAdvance 0 3 .chip 1) (pipeline 2 4 4))
    (t.obj (objKey 2 5)).value = 4 ∧ t.reg (ctxCnt 0 13) = 1 ∧ t.fe.fifo.map Packet.typ = [0x30] := by decide +kernel

/-- 15, "bringing up a trump slot": step 3 enables slot 40 and step 5 changes PRIO alone. -/
def trump : State :=
  rg (rg (rg (rg (rg (rg rdy .podSlots 1 0x20028) .ctxCfg 17 1) .slotRing 40 0x4000000000) .slotStatusAddr 40 0x4000040000)
    .slotShadow 40 0x4000040010) .slotCpl 40 0x4000010008

theorem test_trump_slot :
    let t := after (exec (.slotEnable .host 40 0x081160E5) trump)
    (t.slot 40).st = .idle ∧ t.slotPrio 40 = 3 ∧ t.slotCtx 40 = 17 ∧ t.slotPod 40 = 1 := by decide +kernel

theorem test_trump_slot_live :
    let t := after (exec (.slotEnable .host 40 0x08116085) (after (exec (.slotEnable .host 40 0x081160E5) trump)))
    (t.slot 40).st = .idle ∧ t.slotPrio 40 = 0 ∧ t.reg ⟨.slotErr, 40, 0⟩ = 0 := by decide +kernel

/-- 16, "setting up and reading back context 17": the offsets, and step 3 makes the context RESIDENT. -/
theorem test_context_17_offsets : [Reg.off ⟨.ctxDyn, 17, 0⟩, Reg.off ⟨.ctxEdges, 17, 0⟩, Reg.off ⟨.ctxNodes, 17, 0⟩] =
    [0x38448, 0x38444, 0x38440] := by decide +kernel

theorem test_context_17 :
    let t := after (exec (.windowWrite .host false 17 0x80400020) (rg (rg rdy .ctxDyn 17 0x80010) .ctxEdges 17 0x80200010))
    (t.ctx 17).st = .resident ∧ t.nodePool 17 = 49152 ∧ t.edgePool 17 = 98304 := by decide +kernel

/-- 00, after R12: the low half read first gives the two halves of one value. -/
theorem test_read_latch :
    let t := after (exec (.lowHalfRead .host (Reg.off ⟨.gcnt, 3, 0⟩)) (rg rdy .gcnt 3 0x00000001FFFFFFFF))
    let u := after (exec (.highHalfRead .host (Reg.off ⟨.gcnt, 3, 0⟩ + 4)) (rg t .gcnt 3 0x0000000200000000))
    t.out.head? = some (.readData .host (Reg.off ⟨.gcnt, 3, 0⟩) 0xFFFFFFFF) ∧
      u.out.head? = some (.readData .host (Reg.off ⟨.gcnt, 3, 0⟩ + 4) 1) := by decide +kernel

/-- 17, "a frame that falls back and still misses": WARN on die 3. -/
theorem test_warn_die_3 :
    let t := after (exec (.supplyWarn 3) rdy)
    t.reg ⟨.supplyDips, 0, 0⟩ = 1 ∧ t.fe.fifo.map (fun p => (p.typ, p.body)) = [(0x28, [3])] ∧ t.meStopped 3 = true := by decide +kernel

/-- The check value that the CRC-32C polynomial is published with. -/
theorem test_crc32c : crc32c [0x31, 0x32, 0x33, 0x34, 0x35, 0x36, 0x37, 0x38, 0x39] = 0xE3069283 := by decide +kernel

/-- A step takes the front command and leaves the rest. -/
theorem test_step_takes_the_front :
    (after (step { rdy with pending := [.supplyWarn 3, .beatTick] })).pending = [.beatTick] := by decide +kernel

end Sys2Proof.Tests
end

section
/-! Scope of the block (00_scope.md): what no command touches, where every register is reached, and what an access of a
register or of a doorbell page does. -/
namespace Sys2Proof.Machine

/-! ### What no command touches -/

section
variable {P : List Host.Cell → Prop} {q : List Instr} {u : List MmuRange} {o : List Out}

/-- Each command is one operation of the machine, and the `kept_` lemma of that operation says that it keeps `Kept`. -/
theorem kept_exec [PokeClosed P] (c : Instr) {s t : State} (h : Kept P q u o s) (e : exec c s = .next t) : Kept P q u o t := by
  cases c
  all_goals
    injection e with e
    subst e
    simp +contextual (maxDischargeDepth := 60) [h]

end

theorem pokeClosed_true : PokeClosed fun _ => True := ⟨fun _ _ _ _ => trivial⟩

theorem kept_self (s : State) : Kept (fun _ => True) s.pending s.mmu s.out s := ⟨rfl, rfl, List.suffix_rfl, trivial⟩

/-- Settles O39: every operation keeps the queue, the map and what was driven, with no demand on memory. -/
theorem commandsKeepQueueMapAndWhatWasDriven : Obligations.CommandsKeepQueueMapAndWhatWasDriven := by
  unfold Obligations.CommandsKeepQueueMapAndWhatWasDriven
  intro c s t e
  have := pokeClosed_true
  obtain ⟨hq, hu, ⟨new, hnew⟩, -⟩ := kept_exec c (kept_self s) e
  exact ⟨hq, hu, new, hnew.symm⟩

/-! ### The queue, and the state after reset -/

/-- Settles O35: it is how `step` takes a command. -/
theorem stepRunsTheFrontCommand : Obligations.StepRunsTheFrontCommand := by
  unfold Obligations.StepRunsTheFrontCommand
  intro s c cs h
  unfold step
  rw [h]

/-- Settles O38: after reset no table lists anything, so that every read gives its default. -/
theorem resetLeavesNothingStanding : Obligations.ResetLeavesNothingStanding := by
  unfold Obligations.ResetLeavesNothingStanding
  have hreg : ∀ r : Reg, State.reset.reg r = r.row.reset := fun r => tget_nil r.off
  have hnode : ∀ k, (State.reset.node k).st = .free := fun k => congrArg Node.st (tget_nil k)
  have hobj : ∀ k, (State.reset.obj k).alloc = false := fun k => congrArg SyncObj.alloc (tget_nil k)
  have hseq : ∀ k, (State.reset.seqEnt k).st = .free := fun k => congrArg SeqEnt.st (tget_nil k)
  have hslot : ∀ n, (State.reset.slot n).st = .disabled := fun n => congrArg Slot.st (tget_nil n)
  have hdet : State.reset.det = 0 := by
    unfold State.det State.fld
    rw [hreg]
    decide
  exact ⟨reset_wf, rfl, rfl, rfl, rfl, hdet, hreg, hnode, hobj, hseq, hslot, rfl, rfl⟩

/-! ### Registers at their offsets -/

/-- A 32-bit access at a register's offset reaches it, whole or its low half. -/
theorem target_off_narrow {r : Reg} (h : r.valid = true) :
    target r.off false = some (r, if r.row.wide then .low else .whole) := by
  simp [target, r.off_aligned.1, regAt_off h]

/-- No register lies at the high half of a 64-bit one. -/
theorem regAt_high {r : Reg} (h : r.valid = true) (hw : r.row.wide = true) : regAt (r.off + 4) = none := by
  cases e : regAt (r.off + 4) with
  | none => rfl
  | some r' =>
    obtain ⟨h', ho⟩ := regAt_some e
    cases hw' : r'.row.wide with
    | false => exact absurd ho.symm (off_high_ne h h' hw hw')
    | true =>
      have := r.off_aligned.2 hw
      have := r'.off_aligned.2 hw'
      omega

/-- A 32-bit access 4 above a 64-bit register reaches its high half. -/
theorem target_high {r : Reg} (h : r.valid = true) (hw : r.row.wide = true) : target (r.off + 4) false = some (r, .high) := by
  have h4 : (r.off + 4) % 4 = 0 := by have := r.off_aligned.1; omega
  simp [target, h4, regAt_high h hw, regAt_off h, hw]

/-- A 64-bit access of a 32-bit register reaches nothing. -/
theorem target_wide_narrow {r : Reg} (h : r.valid = true) (hw : r.row.wide = false) : target r.off true = none := by
  simp [target, regAt_off h, hw]

/-- Settles O42: registers lie apart at multiples of their width, so an offset finds one register, or the high half of one. -/
theorem everyRegisterIsReachedAtItsOffset : Obligations.EveryRegisterIsReachedAtItsOffset := by
  unfold Obligations.EveryRegisterIsReachedAtItsOffset
  intro r h
  refine ⟨target_off_narrow h, fun hw => ⟨?_, target_high h hw⟩, target_wide_narrow h⟩
  have := target_off h
  rwa [hw] at this

/-! ### Accesses that nothing holds -/

section
variable {s t w : State} {who : Requester} {r : Reg} {off : Nat} {wide : Bool} {p : Part32}

/-- What a write of each part of a register does. -/
def State.writePart (s : State) (who : Requester) (r : Reg) (v : BitVec 64) : Part32 → State
  | .whole => s.writeReg who r v
  | .low => s.writeLow who r (loHalf v)
  | .high => s.writeHigh who r (loHalf v)

theorem loHalf_w64 (v : BitVec 32) : loHalf (w64 v) = v := by simp [loHalf, w64]

/-- No write held from SNAPPED is due. -/
theorem flushSnap_settled (h : s.ob.snapHeld = [] ∨ s.ob.stop = .snapped) : s.flushSnap = s := by
  unfold State.flushSnap
  rw [if_pos h.symm]

/-- A read that no tick holds is made as it arrives. -/
theorem admitRead_now (h : s.inputsWait = false) : s.admitRead who off wide = (s.accessRead who off wide).flushSnap := by
  simp [State.admitRead, State.arrive, h, State.process, State.applyHeld]

/-- A read that reaches a part of a register, in a sub-unit that is not stopped. -/
theorem accessRead_target (hr : s.ready = true) (hg : s.unitGated r = false) (ht : target off wide = some (r, p)) :
    s.accessRead who off wide =
      ((s.wakeFor r).readPart who r p).2.emit (.readData who off ((s.wakeFor r).readPart who r p).1) := by
  simp [State.accessRead, State.readData, Nat.not_le.2 (target_lt ht), ht, hr, hg]

theorem accessWrite_target (hr : s.ready = true) (hg : s.unitGated r = false) (ha : r.name ≠ .aperture)
    (ht : target off wide = some (r, p)) (v : BitVec 64) : s.accessWrite who off wide v = (s.wakeFor r).writePart who r v p := by
  cases p <;> simp [State.accessWrite, State.writePart, ht, hr, hg, ha]

/-- An admitted read is carried out on the state that `admitsStop` names. -/
theorem admitRead_admitsStop (h : s.admitsStop r w) (ht : target off wide = some (r, p)) :
    s.admitRead who off wide = ((w.readPart who r p).2.emit (.readData who off (w.readPart who r p).1)).flushSnap := by
  obtain ⟨hr, hi, -, hg, rfl⟩ := h
  rw [admitRead_now hi, accessRead_target hr hg ht]

/-- An admitted write is carried out on the state that `admits` names. -/
theorem admitWrite_admits (h : s.admits r w) (ht : target off wide = some (r, p)) (ha : r.name ≠ .aperture) (v : BitVec 64) :
    s.admitWrite who off wide v = (w.writePart who r v p).flushSnap := by
  obtain ⟨hr, hl, hs, -, hg, rfl⟩ := h
  simp [State.admitWrite, State.snapHolds, State.arrive, State.inputsWait, hl, hs, State.process, State.applyHeld,
    accessWrite_target hr hg ha ht]

/-! ### Reads and writes by halves (R12) -/

theorem readHigh_latched {hi : BitVec 32} (h : (s.halves who).rd = some (r.off, hi)) :
    s.readHigh who r = (hi.setWidth 64, s.setHalves who { s.halves who with rd := none }) := by
  simp [State.readHigh, h]

theorem readHigh_current (h : (s.halves who).rd = none) : s.readHigh who r = ((hiHalf (s.regValue r)).setWidth 64, s) := by
  simp [State.readHigh, h]

theorem writeHigh_joined {lo : BitVec 32} (h : (s.halves who).wr = some (r.off, lo)) (v : BitVec 32) :
    s.writeHigh who r v = (s.setHalves who { s.halves who with wr := none }).writeReg who r (joinHalves v lo) := by
  simp [State.writeHigh, h]

theorem writeHigh_alone (h : (s.halves who).wr = none) (v : BitVec 32) :
    s.writeHigh who r v = s.writeReg who r (joinHalves v (loHalf (s.regValue r &&& r.row.rw))) := by
  simp [State.writeHigh, State.writeHighAlone, h]

/-! ### Registers without a rule of their own -/

/-- A write of these registers acts by the type of their fields alone (R8). -/
theorem writeReg_plain {n : RegName} {i j : Nat} (v : BitVec 64)
    (h : n ∈ [RegName.slowdownAddr, .podRegMem, .podRegLink, .syCfg, .dumpAddr, .dumpSize, .xlatBase, .tbBeatPorts, .trcSrc, .snapDumpAddr,
      .snapDumpSize, .liSystem, .tearDumpAddr, .tearDumpSize, .fwAddr, .tsuErr, .slotErr, .podErr, .gsErr, .syErr, .resErr, .roErr, .obErr,
      .liErr, .fcErr, .svErr, .tbErr, .tsuDisturb]) : s.writeReg who ⟨n, i, j⟩ v = s.plainWrite ⟨n, i, j⟩ v := by
  simp only [List.mem_cons, List.not_mem_nil, or_false] at h
  rcases h with rfl | rfl | rfl | rfl | rfl | rfl | rfl | rfl | rfl | rfl | rfl | rfl | rfl | rfl | rfl | rfl | rfl | rfl | rfl
    | rfl | rfl | rfl | rfl | rfl | rfl | rfl | rfl | rfl <;> rfl

/-- A write of these read-only registers is ignored (R8). -/
theorem writeReg_readOnly {n : RegName} {i j : Nat} (v : BitVec 64)
    (h : n ∈ [RegName.tsuIdent, .tsuLsTick, .tsuStart, .rqWr, .slotState, .slotDoneSeq, .slotOpen, .dlStatus, .roEpoch, .tbBeat, .tbTick,
      .tbStatus, .gcnt, .gcntShadow, .liCnt, .portStatus, .fcStatus, .mapSeq, .benchCells, .ctxFault, .fwStatus, .fwVersion, .ctxCnt]) :
    s.writeReg who ⟨n, i, j⟩ v = s := by
  simp only [List.mem_cons, List.not_mem_nil, or_false] at h
  rcases h with rfl | rfl | rfl | rfl | rfl | rfl | rfl | rfl | rfl | rfl | rfl | rfl | rfl | rfl | rfl | rfl | rfl | rfl | rfl
    | rfl | rfl | rfl | rfl <;> rfl

/-! ### The commands that access any register -/

theorem exec_registerWrite (hv : r.valid = true) (v : BitVec 64) :
    exec (.registerWrite who r.off v) s = .next (s.regIn who r v) := by
  change execRegisterWrite who r.off v s = _
  simp [execRegisterWrite, State.regIn, regAt_off hv]

theorem exec_lowHalfRead : exec (.lowHalfRead who off) s = .next (s.admitRead who off false) := rfl
theorem exec_highHalfRead : exec (.highHalfRead who off) s = .next (s.admitRead who off false) := rfl
theorem exec_inspectRead : exec (.inspectRead who off wide) s = .next (s.admitRead who off wide) := rfl
theorem exec_sliceRejectsRead {k : Nat} :
    exec (.sliceRejectsRead who k) s = .next (s.admitRead who (Reg.off ⟨.sliceRejects, k, 0⟩) true) := rfl
theorem exec_lowHalfWrite {v : BitVec 32} : exec (.lowHalfWrite who off v) s = .next (s.admitWrite who off false (w64 v)) := rfl
theorem exec_highHalfWrite {v : BitVec 32} : exec (.highHalfWrite who off v) s = .next (s.admitWrite who off false (w64 v)) := rfl

theorem registerWrite_admits (h : s.admits r w) (hv : r.valid = true) (ha : r.name ≠ .aperture) (v : BitVec 64) :
    exec (.registerWrite who r.off v) s = .next (w.writeReg who r v).flushSnap := by
  rw [exec_registerWrite hv, regIn_admits h hv ha]

/-- A read of LI_SLICE_REJECTS arms the report of the next refusal (R314). -/
theorem readReg_sliceRejects (k : Nat) : s.readReg who ⟨.sliceRejects, k, 0⟩ =
    (s.regValue ⟨.sliceRejects, k, 0⟩,
      if (s.port k).rejectArmed then s else s.updPort k fun x => { x with rejectArmed := true }) := rfl

theorem target_sliceRejects {k : Nat} (hk : k < 64) :
    target (Reg.off ⟨.sliceRejects, k, 0⟩) true = some (⟨.sliceRejects, k, 0⟩, .whole) :=
  target_off (r := ⟨.sliceRejects, k, 0⟩) (Reg.valid_iff.2 ⟨hk, Nat.one_pos⟩)

end

/-- Settles O9: an admitted access is its effect on the state it meets, and each clause says which effect that is. -/
theorem anyRegisterAccess : Obligations.AnyRegisterAccess := by
  unfold Obligations.AnyRegisterAccess
  refine ⟨fun s w who r v h hv ha => registerWrite_admits h hv ha v, ?plain, ?readOnly,
    fun s w who r off h ht => congrArg Host.Outcome.next (admitRead_admitsStop h ht), ?highLatched, ?highCurrent,
    ?lowWrite, ?highJoined, ?highAlone, ?sliceRejects, ?abort⟩
  case plain =>
    rintro s w who ⟨n, i, j⟩ v h hv hn
    have ha : n ≠ .aperture := by rintro rfl; simp at hn
    rw [registerWrite_admits h hv ha, writeReg_plain v hn, flushSnap_nil (by simpa using h.held)]
    rfl
  case readOnly =>
    rintro s w who ⟨n, i, j⟩ v h hv hn
    have ha : n ≠ .aperture := by rintro rfl; simp at hn
    rw [registerWrite_admits h hv ha, writeReg_readOnly v hn, flushSnap_nil h.held]
  case highLatched =>
    intro s w who r off hi h ht hl
    rw [exec_highHalfRead, admitRead_admitsStop h ht, State.readPart, readHigh_latched hl, flushSnap_nil (by simpa using h.held)]
  case highCurrent =>
    intro s w who r off h ht hl
    rw [exec_highHalfRead, admitRead_admitsStop h ht, State.readPart, readHigh_current hl, flushSnap_nil (by simpa using h.held)]
  case lowWrite =>
    intro s w who r off v h ht ha
    rw [exec_lowHalfWrite, admitWrite_admits h ht ha, State.writePart, loHalf_w64, State.writeLow,
      flushSnap_nil (by simpa using h.held)]
  case highJoined =>
    intro s w who r off v lo h ht ha hl
    rw [exec_highHalfWrite, admitWrite_admits h ht ha, State.writePart, loHalf_w64, writeHigh_joined hl]
  case highAlone =>
    intro s w who r off v h ht ha hl
    rw [exec_highHalfWrite, admitWrite_admits h ht ha, State.writePart, loHalf_w64, writeHigh_alone hl]
  case sliceRejects =>
    intro s w who k h hk
    rw [exec_sliceRejectsRead, admitRead_admitsStop h (target_sliceRejects hk), State.readPart, readReg_sliceRejects, flushSnap_nil]
    split <;> simpa using h.held
  case abort =>
    intro s who bar off size write h
    change Host.Outcome.next (s.accessAbort who bar off size write) = _
    rw [State.accessAbort, if_neg (by simp [h])]

/-! ### Doorbell pages (R167) -/

section
variable {s t : State} {who : Requester} {wide : Bool}

theorem page_div {n o : Nat} (h : o < 0x1000) : (n * 0x1000 + o) / 0x1000 = n := by omega

theorem page_mod {n o : Nat} (h : o < 0x1000) : (n * 0x1000 + o) % 0x1000 = o := by omega

@[simp] theorem State.wake_fe (s : State) (u : Nat) : (s.wake u).fe = s.fe := by
  unfold State.wake; split <;> simp [State.setGated]

@[simp] theorem State.wake_slot (s : State) (u n : Nat) : (s.wake u).slot n = s.slot n := by simp [State.slot]

theorem readData_page (o : Nat) : s.readData who (bar2 + o) wide = s.readPage who o wide := by
  rw [State.readData, if_pos (Nat.le_add_right ..), Nat.add_sub_cancel_left]

/-- A page's read that is answered, where no tick holds it and no held write is due. -/
theorem admitRead_page {v : BitVec 64} {o : Nat} (hi : s.inputsWait = false) (hs : s.ob.snapHeld = [] ∨ s.ob.stop = .snapped)
    (e : s.readPage who o wide = some (v, t)) (ht : t.ob = s.ob) :
    s.admitRead who (bar2 + o) wide = t.emit (.readData who (bar2 + o) v) := by
  simp only [admitRead_now hi, State.accessRead, readData_page, e]
  exact flushSnap_settled (by simpa [ht] using hs)

theorem admitRead_page_abort {o : Nat} (hi : s.inputsWait = false) (hs : s.ob.snapHeld = [] ∨ s.ob.stop = .snapped)
    (e : s.readPage who o wide = none) : s.admitRead who (bar2 + o) wide = s.emit (.abort who) := by
  simp only [admitRead_now hi, State.accessRead, readData_page, e]
  exact flushSnap_settled (by simpa using hs)

theorem readPage_core (k o : Nat) : s.readPage (.core k) o wide = none := by simp [State.readPage]

theorem readPage_notReady (h : s.ready = false) (o : Nat) : s.readPage who o wide = none := by simp [State.readPage, h]

section
variable {n : Nat} (hr : s.ready = true) (hg : s.gated 0 = false) (hn : n < 256)
include hr hg hn

theorem readPage_whost : s.readPage .host (n * 0x1000) false = some (((s.wake 0).slot n).whost.setWidth 64, s.wake 0) := by
  simp [State.readPage, hr, hg, hn]

theorem readPage_wdev : s.readPage .host (n * 0x1000 + 4) false = some (((s.wake 0).slot n).wdev.setWidth 64, s.wake 0) := by
  simp [State.readPage, page_div, hr, hg, hn]

theorem readPage_doneSeq : s.readPage .host (n * 0x1000 + 8) true = some (((s.wake 0).slot n).doneSeq, s.wake 0) := by
  simp [State.readPage, page_div, hr, hg, hn]

theorem readPage_doneSeq_low : s.readPage .host (n * 0x1000 + 8) false =
    some ((loHalf ((s.wake 0).slot n).doneSeq).setWidth 64, (s.wake 0).setHalves .host
      { (s.wake 0).halves .host with rd := some (bar2 + (n * 0x1000 + 8), hiHalf ((s.wake 0).slot n).doneSeq) }) := by
  simp [State.readPage, page_div, hr, hg, hn]

theorem readPage_doneSeq_latched {hi : BitVec 32} (h : ((s.wake 0).halves .host).rd = some (bar2 + (n * 0x1000 + 8), hi)) :
    s.readPage .host (n * 0x1000 + 12) false =
      some (hi.setWidth 64, (s.wake 0).setHalves .host { (s.wake 0).halves .host with rd := none }) := by
  simp [State.readPage, page_div, hr, hg, hn, h, Nat.add_assoc]

theorem readPage_doneSeq_current (h : ((s.wake 0).halves .host).rd = none) :
    s.readPage .host (n * 0x1000 + 12) false = some ((hiHalf ((s.wake 0).slot n).doneSeq).setWidth 64, s.wake 0) := by
  simp [State.readPage, page_div, hr, hg, hn, h]

omit hr hg hn in
theorem readPage_beyond {o : Nat} (h : 16 ≤ o) (ho : o < 0x1000) : s.readPage .host (n * 0x1000 + o) false = none := by
  have h0 : o ≠ 0 ∧ o ≠ 4 ∧ o ≠ 8 ∧ o ≠ 12 := by omega
  simp [State.readPage, page_mod ho, h0]

end

/-! ### Reads while SNAPPED (R416) -/

/-- These registers, whose value the register file stores, answer what it held at the edge. -/
theorem readReg_atEdge {n : RegName} {i j : Nat} (hs : s.ob.stop = .snapped) (ho : Reg.goesOn ⟨n, i, j⟩ = false)
    (hn : n ∈ [RegName.tsuDisturb, .rqStalls, .slotDbIgnored, .liCnt, .portCfg, .tbBeat, .tbTick, .tbErr, .ctxSlice, .portStatus]) :
    s.readReg who ⟨n, i, j⟩ = (tget 0 s.ob.edgeRegs (Reg.off ⟨n, i, j⟩), s) := by
  have he : s.ob.stop = .snapped ∧ ¬ Reg.goesOn ⟨n, i, j⟩ = true := ⟨hs, by rw [ho]; exact Bool.false_ne_true⟩
  simp only [List.mem_cons, List.not_mem_nil, or_false] at hn
  have e : s.readReg who ⟨n, i, j⟩ = (s.regValue ⟨n, i, j⟩, s) := by
    rcases hn with rfl | rfl | rfl | rfl | rfl | rfl | rfl | rfl | rfl | rfl <;> rfl
  rw [e, State.regValue, if_pos he]
  rcases hn with rfl | rfl | rfl | rfl | rfl | rfl | rfl | rfl | rfl | rfl <;> rfl

end

/-- Settles O12: a page's read is answered by its offset in the page, and a register's by the register file kept at the edge. -/
theorem pageReadsAndReadsWhileSnapped : Obligations.PageReadsAndReadsWhileSnapped := by
  unfold Obligations.PageReadsAndReadsWhileSnapped
  simp only [exec_lowHalfRead, exec_highHalfRead, exec_inspectRead, Host.Outcome.next.injEq, Nat.add_assoc]
  refine ⟨?page, fun s who o hr hi hs => admitRead_page_abort hi hs (readPage_notReady hr o), ?snapped⟩
  case page =>
    rintro s w n hr hi hg hs rfl hn
    exact ⟨admitRead_page hi hs (readPage_whost hr hg hn) (by simp),
      admitRead_page hi hs (readPage_wdev hr hg hn) (by simp),
      admitRead_page hi hs (readPage_doneSeq hr hg hn) (by simp),
      admitRead_page hi hs (readPage_doneSeq_low hr hg hn) (by simp),
      fun x h => admitRead_page hi hs (readPage_doneSeq_latched hr hg hn h) (by simp),
      fun h => admitRead_page hi hs (readPage_doneSeq_current hr hg hn h) (by simp),
      fun o h ho => admitRead_page_abort hi hs (readPage_beyond h ho),
      fun k o => admitRead_page_abort hi hs (readPage_core k o)⟩
  case snapped =>
    rintro s w who ⟨n, i, j⟩ hr hs hg rfl hv h8 h11 hn
    have hi : s.inputsWait = false := by simp [State.inputsWait, hs]
    have hs' : (s.wakeFor ⟨n, i, j⟩).ob.stop = .snapped := by simpa using hs
    have ho : Reg.goesOn ⟨n, i, j⟩ = false := by simp [Reg.goesOn, h8, h11]
    rw [admitRead_now hi, accessRead_target hr hg (target_off hv), State.readPart, readReg_atEdge hs' ho hn,
      flushSnap_settled (.inr (by simpa using hs)), State.wakeFor_ob]

end Sys2Proof.Machine
end

section
/-! Tsuica in the chip (01_tsuica_in_the_klotha_chip.md): node descriptors as bytes, faults of units and paths, the links' ports,
dispatch and offer rounds, and issue and the ends of tasks. -/
namespace Sys2Proof.Machine

/-! ### Node descriptors as bytes (R35, R40 to R42) -/

theorem NodeKind.code_lt (k : NodeKind) : k.code < 256 := by cases k <;> decide

/-- R35 gives each KIND a code of its own. -/
theorem NodeKind.ofCode_code (k : NodeKind) : NodeKind.ofCode k.code = some k := by cases k <;> rfl

theorem NodeKind.code_of_ofCode {n : Nat} {k : NodeKind} (h : NodeKind.ofCode n = some k) : k.code = n := by
  unfold NodeKind.ofCode at h
  split at h <;> cases h <;> rfl

/-- A field that `n` bytes have room for reads back whole from the place it was written at. -/
theorem field_leAt_here {w n : Nat} (h : w ≤ 8 * n) (v : BitVec w) (r : List Byte) :
    BitVec.ofNat w (leAt (leBytes n v.toNat ++ r) 0 n) = v := by
  have lt : v.toNat < 256 ^ n := calc
    v.toNat < 2 ^ w := v.isLt
    _ ≤ 2 ^ (8 * n) := Nat.pow_le_pow_right (by decide) h
    _ = 256 ^ n := by rw [Nat.pow_mul]
  rw [leAt_here, Nat.mod_eq_of_lt lt, BitVec.ofNat_toNat, BitVec.setWidth_eq]

theorem field_leAt_last {w n : Nat} (h : w ≤ 8 * n) (v : BitVec w) : BitVec.ofNat w (leAt (leBytes n v.toNat) 0 n) = v := by
  simpa using field_leAt_here h v []

@[simp] theorem Desc.encode_length (d : Desc) : d.encode.length = 32 := by simp [Desc.encode]

theorem Desc.encode_kind (d : Desc) : leAt d.encode 0 1 = d.kind.code := by
  simp [Desc.encode, leAt_here, Nat.mod_eq_of_lt d.kind.code_lt]

/-- Each field is skipped to and read back whole. -/
theorem Desc.decode_encode (d : Desc) : Desc.decode d.encode = some d := by
  simp only [Desc.decode, d.encode_kind, NodeKind.ofCode_code]
  simp [Desc.encode, leAt_skip, field_leAt_here, field_leAt_last]

/-- A field as wide as the word that stands at a place writes that word. -/
theorem leBytes_field {bs : List Byte} {o n : Nat} (h : o + n ≤ bs.length) :
    leBytes n (BitVec.ofNat (8 * n) (leAt bs o n)).toNat = (bs.drop o).take n := by
  have lt : leAt bs o n < 2 ^ (8 * n) := by simpa [Nat.pow_mul] using leAt_lt h
  rw [BitVec.toNat_ofNat, Nat.mod_eq_of_lt lt, leBytes_leAt h]

/-- The same for a narrower field, where the bits above it are zero. -/
theorem leBytes_field_narrow {bs : List Byte} {o n w : Nat} (h : o + n ≤ bs.length) (lt : leAt bs o n < 2 ^ w) :
    leBytes n (BitVec.ofNat w (leAt bs o n)).toNat = (bs.drop o).take n := by
  rw [BitVec.toNat_ofNat, Nat.mod_eq_of_lt lt, leBytes_leAt h]

/-- The words of a descriptor, one after another, are its bytes. -/
theorem descriptor_words {bs : List Byte} (h : bs.length = 32) :
    (bs.drop 0).take 1 ++ (bs.drop 1).take 1 ++ (bs.drop 2).take 2 ++ (bs.drop 4).take 4 ++ (bs.drop 8).take 2 ++
      (bs.drop 10).take 2 ++ (bs.drop 12).take 4 ++ (bs.drop 16).take 8 ++ (bs.drop 24).take 8 = bs := by
  simp only [List.drop_zero, ← List.take_add, Nat.reduceAdd]
  exact List.take_of_length_le (Nat.le_of_eq h)

theorem Desc.encode_decode {bs : List Byte} {d : Desc} (hl : bs.length = 32) (hr : leAt bs 4 4 < 2 ^ 22) (h : Desc.decode bs = some d) :
    d.encode = bs := by
  unfold Desc.decode at h
  split at h
  next => cases h
  next k hk =>
    cases h
    have word {o n : Nat} (ho : o + n ≤ 32) := leBytes_field (bs := bs) (o := o) (n := n) (hl ▸ ho)
    simp only [Desc.encode, NodeKind.code_of_ofCode hk]
    rw [leBytes_leAt (by omega), word (o := 1) (n := 1) (by decide), word (o := 2) (n := 2) (by decide),
      leBytes_field_narrow (by omega) hr, word (o := 8) (n := 2) (by decide), word (o := 10) (n := 2) (by decide),
      word (o := 12) (n := 4) (by decide), word (o := 16) (n := 8) (by decide), word (o := 24) (n := 8) (by decide), descriptor_words hl]

/-- Settles O41: each field takes whole words of its own, but for word 0x04, whose bits [31:22] belong to none. -/
theorem nodeDescriptorsRoundTrip : Obligations.NodeDescriptorsRoundTrip := by
  unfold Obligations.NodeDescriptorsRoundTrip
  exact ⟨fun d => ⟨d.encode_length, d.decode_encode⟩, fun _ _ => Desc.encode_decode⟩

/-! ### Reports, and units that work -/

@[simp] theorem State.report_now (s : State) (p : Packet) : (s.report p).now = s.now := by
  unfold State.report; dsimp only; split <;> rfl

@[simp] theorem State.report_regs (s : State) (p : Packet) : (s.report p).regs = s.regs := by
  unfold State.report; dsimp only; split <;> rfl

@[simp] theorem State.report_trcMode (s : State) (p : Packet) : (s.report p).trcMode = s.trcMode := by
  simp [State.trcMode, State.fld, State.reg]

theorem State.live_iff {s : State} {u : Nat} : s.live u = true ↔ s.runs u = true ∧ s.open = true := Bool.and_eq_true_iff

/-! ### Faults of units and paths (R343, R350 to R358) -/

section
variable {s : State} {r : Nat}

theorem teardownContinue_drained {c : Nat} (hf : (s.ctx c).st = .faulted) (ht : (s.ctx c).torn = false)
    (hs : (s.ctx c).faultedInSave = false) (hd : s.tearDrained c = true) (ho : s.hubOn = true) :
    s.teardownContinue c = s.tearOn c := by
  simp [State.teardownContinue, hf, ht, hs, hd, ho]

theorem benchFault_inService {e : Nat} (hc : isCell e = true) (hb : s.benched e = false) (ho : s.hubOn = true) (reason : Nat)
    (lines : List Nat) : s.benchFault e reason lines = (s.poisonLines lines).benchCell e reason := by
  simp [State.benchFault, hc, hb, ho]

theorem cellHang_canHang {e : Nat} (h : s.canHang e = true) (lines : List Nat) : s.cellHang e lines = s.benchFault e 0 lines := if_pos h

theorem mirrorParity_inService {i : Nat} (hi : i < 384) (ht : bit (s.reg ⟨.benchCells, i, 0⟩) 15 = false)
    (hr : bit (s.reg ⟨.benchRegions, 0, 0⟩) (i / 48) = false) (ho : s.hubOn = true) (lines : List Nat) :
    s.mirrorParity i lines = (s.poisonLines lines).benchTile i 2 := by
  simp [State.mirrorParity, hi, ht, hr, ho]

/-- The two ports of a benched link engine enter DISABLED (R354). -/
theorem leBench_inService {k reason : Nat} (hk : k < 32) (hr : reason = 0 ∨ reason = 1 ∨ reason = 8) (ho : s.hubOn = true)
    (hb : s.benched (leId k) = false) :
    s.leBench k reason = ((s.bench [{ level := 3, unit := leId k, reason := reason, cells := [leId k] }]).toPortState
      (2 * k) .disabled 3).toPortState (2 * k + 1) .disabled 3 := by
  rw [State.leBench, if_pos ⟨hk, hr, ho⟩]
  simp [State.benchLE, hb]

theorem State.regionIn.lt (h : s.regionIn r = true) : r < 8 := by
  unfold State.regionIn at h
  exact of_decide_eq_true (Bool.and_eq_true_iff.1 h).1

theorem dealerParity_in (hr : s.regionIn r = true) (ho : s.hubOn = true) :
    s.dealerParity r = if (s.dealer r).rebuild then s.loseRegion r 7 else s.startRebuild r := if_pos ⟨hr, ho⟩

theorem dealerRebuilt_rebuilding (hr : (s.dealer r).rebuild = true) (ho : s.hubOn = true) :
    s.dealerRebuilt r = (s.updDealer r fun d => { d with rebuild := false }).report {
      typ := 0x27, source := 0x8002, body := [r % 8 + (s.dealer r).hands.length % 2 ^ 16 * 2 ^ 16] } := if_pos ⟨hr, ho⟩

/-- The path of region `r` is being reset, or has faulted within the last 1 ms. -/
def State.pathFaultsAgain (s : State) (r : Nat) : Prop :=
  (s.dealer r).pathDown = true ∨ ∃ w, (s.dealer r).lastPathFault = some w ∧ s.now ≤ w + 1000

/-- A path's fault is reported, and when it came is kept. -/
def State.notePathFault (s : State) (r seq : Nat) : State :=
  (s.report { typ := 0x25, source := 0x8009, body := [pathArg 0 r seq] }).updDealer r fun d => { d with lastPathFault := some s.now }

theorem pathFault_again (hr : s.regionIn r = true) (ho : s.hubOn = true) (seq : Nat) (h : s.pathFaultsAgain r) :
    s.pathFault r seq = (s.notePathFault r seq).loseRegion r 6 := by
  unfold State.pathFault
  rw [if_pos ⟨hr, ho⟩]
  dsimp only
  rw [if_pos ?again]
  · simp [State.notePathFault, sourceUnit]
  case again =>
    obtain hd | ⟨w, hw, hn⟩ := h
    · simp [hd]
    · simp [hw, hn]

theorem pathFault_first (hr : s.regionIn r = true) (ho : s.hubOn = true) (seq : Nat) (h : ¬ s.pathFaultsAgain r) :
    s.pathFault r seq = ((s.notePathFault r seq).updDealer r fun d =>
      { d with pathDown := true, pathDownAt := s.now, pathSeq := seq }).disturb 2 := by
  unfold State.pathFault
  rw [if_pos ⟨hr, ho⟩]
  dsimp only
  rw [if_neg ?again]
  · simp [State.notePathFault, sourceUnit]
  case again =>
    obtain ⟨hd, hw⟩ := not_or.1 h
    cases e : (s.dealer r).lastPathFault with
    | none => simp [hd]
    | some w =>
      have hn : ¬ s.now ≤ w + 1000 := fun hn => hw ⟨w, e, hn⟩
      simp [hd, hn]

/-- The trace path is down, and nothing drains any more. -/
def State.stopTrace (s : State) : State := { s with ob := { s.ob with traceDown := true, draining := none } }

/-- A fault of the trace path stops a trace unit that makes or drains records, and says so (R339, R421). -/
theorem traceFault_up (seq : Nat) (h : s.ob.traceDown = false) :
    s.traceFault seq = if s.trcMode = 0 ∧ s.ob.draining = none then
        (s.report { typ := 0x25, source := 0x8009, body := [pathArg 2 0 seq] }).stopTrace
      else (s.report { typ := 0x25, source := 0x8009, body := [pathArg 2 0 seq] }).stopTrace.report {
        typ := 0x81, source := 0x8007, body := [1] } := by
  unfold State.traceFault
  rw [if_neg (by simp [h])]
  dsimp only
  by_cases hm : s.trcMode = 0 ∧ s.ob.draining = none
  · rw [if_pos hm, if_neg (by simp [hm])]
    rfl
  · have on : (decide (s.trcMode ≠ 0) || s.ob.draining.isSome) = true := by
      cases hd : s.ob.draining with
      | none => simpa [hd] using hm
      | some => simp
    rw [if_neg hm, if_pos (by simpa only [State.report_trcMode, State.report_ob] using on)]
    rfl

theorem pathResetDone_down (hd : (s.dealer r).pathDown = true) (ho : s.hubOn = true) (ok : Bool) :
    s.pathResetDone r ok = if ok = true ∧ s.now ≤ (s.dealer r).pathDownAt + 20 then
        ((s.updDealer r fun d => { d with pathDown := false }).align [r]).report {
          typ := 0x26, source := 0x8009, body := [pathArg 0 r (s.dealer r).pathSeq, s.now - (s.dealer r).pathDownAt] }
      else s.loseRegion r 6 := if_pos ⟨hd, ho⟩

/-- Below the eighth resend a block is at most disclosed (R327, R336). -/
theorem exec_regionPathFault_resend {seq n : Nat} (h : n < 8) :
    exec (.regionPathFault r ⟨seq, n⟩) s = .next (if 2 ≤ n then s.disturb 2 else s) :=
  congrArg Host.Outcome.next (if_pos h)

theorem pathResend_disclosed {n : Nat} (h : 8 ≤ n) : s.pathResend n = s.disturb 2 := if_pos (by omega)

/-- From the eighth resend on it is a fault of the region's path. -/
theorem exec_regionPathFault_region {seq n : Nat} (h : 8 ≤ n) (hr : r < 8) :
    exec (.regionPathFault r ⟨seq, n⟩) s = .next ((s.disturb 2).pathFault r seq) := by
  change Host.Outcome.next (if n < 8 then _ else if r = 8 then _ else _) = _
  rw [if_neg (by omega), if_neg (by omega), pathResend_disclosed h]

theorem exec_regionPathFault_trace {seq n : Nat} (h : 8 ≤ n) :
    exec (.regionPathFault 8 ⟨seq, n⟩) s = .next ((s.disturb 2).traceFault seq) := by
  change Host.Outcome.next (if n < 8 then _ else _) = _
  rw [if_neg (by omega), if_pos rfl, pathResend_disclosed h]

end

/-- Settles O21: each event finds what it reports in service, so it takes the branch that its rule describes. -/
theorem faultEventsTakeEffect : Obligations.FaultEventsTakeEffect := by
  unfold Obligations.FaultEventsTakeEffect
  refine ⟨fun s c hf ht hs hd ho => congrArg Host.Outcome.next (teardownContinue_drained hf ht hs hd ho), ?cell,
    fun s i lines hi ht hr ho => congrArg Host.Outcome.next (mirrorParity_inService hi ht hr ho lines),
    fun s k reason hk hr ho hb => congrArg Host.Outcome.next (leBench_inService hk hr ho hb), ?dealer,
    fun s r h => congrArg Host.Outcome.next (if_pos h), fun s r seq n h => exec_regionPathFault_resend h,
    fun s r hr ho => congrArg Host.Outcome.next (dealerRebuilt_rebuilding hr ho), ?region, ?trace,
    fun s r ok hd ho => congrArg Host.Outcome.next (pathResetDone_down hd ho ok)⟩
  case cell =>
    intro s e lines hc hb ho
    have bench := fun reason => benchFault_inService hc hb ho reason lines
    exact ⟨fun h => congrArg Host.Outcome.next ((cellHang_canHang h lines).trans (bench 0)), congrArg Host.Outcome.next (bench 1),
      congrArg Host.Outcome.next (bench 2)⟩
  case dealer =>
    intro s r hr ho
    have h8 : ¬ 8 ≤ r := Nat.not_le.2 (State.regionIn.lt hr)
    exact congrArg Host.Outcome.next ((if_neg h8).trans (dealerParity_in hr ho))
  case region =>
    rintro s _ _ r seq n hn rfl hr ho rfl
    rw [exec_regionPathFault_region hn (State.regionIn.lt hr)]
    split
    next again => rw [pathFault_again hr ho seq again]; rfl
    next first => rw [pathFault_first hr ho seq first]; rfl
  case trace =>
    rintro s _ _ seq n hn rfl hd rfl
    exact (exec_regionPathFault_trace hn).trans (congrArg Host.Outcome.next (traceFault_up seq hd))

/-! ### Blocks received (R23, R290 to R292, R306) -/

section
variable {s : State} {k : Nat} {bytes : List Byte} {b : Block}

theorem blockReceive_now (g : s.gated 6 = false) (h : ∀ x ∈ s.st.atGate, x.1 ≠ 6) :
    s.blockReceive k bytes = (s.wake 6).blockIn k bytes := reach_now g h

/-- The good block `b`, whose number is the next, is taken. -/
def State.takeBlock (s : State) (k : Nat) (b : Block) (bytes : List Byte) : State :=
  (s.updPort k fun x => { x.credit b with rxNext := (b.seq + 1) % 65536, ackOwed := true, nakOwed := false }).queueBlock k b bytes

theorem blockIn_inSequence (hs : (s.port k).st = .up) (hb : Block.ofBytes bytes = some b) (hh : b.hello = false) (hp : b.parcels ≠ [])
    (hu : (s.blockBack k b).portUp k = true) (hn : (b.seq + 65536 - ((s.blockBack k b).port k).rxNext) % 65536 = 0) :
    s.blockIn k bytes = (s.blockBack k b).takeBlock k b bytes := by
  simp only [State.blockIn, hs, hb, hh, hp, hu, hn, Bool.false_eq_true, not_true_eq_false, if_false, if_true]
  rfl

theorem blockIn_bad (hs : (s.port k).st = .up) (hb : Block.ofBytes bytes = none) :
    s.blockIn k bytes = s.updPort k fun x => { x with nakOwed := true } := by
  simp only [State.blockIn, hs, hb]

/-- A port that is not judged UP carries HELLO only (R306). -/
def PortState.greets (x : PortState) : Prop := x = .hello ∨ x = .mismatched ∨ x = .fenced

theorem blockIn_hello {p : Parcel} (hs : (s.port k).st.greets) (hb : Block.ofBytes bytes = some b) (hp : b.parcels = [p])
    (ht : p.body.typ = 0x10) :
    s.blockIn k bytes = s.updPort k fun x => { x with
      rx := tput [] x.rx 10 (tget [] x.rx 10 ++ [{ seq := b.seq, parcels := [p], old := true, raw := bytes }]) } := by
  have only : (b.parcels.filter fun p => decide (p.body.typ = 0x10)) = [p] := by simp [hp, ht]
  obtain hs | hs | hs := hs <;> simp only [State.blockIn, hs, hb, only, List.cons_ne_self, if_false]

end

/-! ### Resends (R23, R290, R298) -/

section
variable {s : State} {k : Nat} {b : Sent}

/-- The kept blocks of a port before number `seq`. -/
def State.keptBefore (s : State) (k seq : Nat) : List Sent := (s.port k).replay.takeWhile fun c => decide (c.blk.seq ≠ seq)

/-- The kept blocks from number `seq` on, counted as sent once more. -/
def State.sentAgain (s : State) (k seq : Nat) : List Sent :=
  ((s.port k).replay.drop (s.keptBefore k seq).length).map fun c =>
    { c with tries := c.tries + 1, sentAt := (s.reg (gcnt 0)).toNat }

theorem resendFrom_kept {seq : Nat} (hf : (s.port k).replay.find? (fun c => decide (c.blk.seq = seq)) = some b) (ht : b.tries < 8) :
    s.resendFrom k seq = (s.updPort k fun x => { x with replay := s.keptBefore k seq ++ s.sentAgain k seq }).each (s.sentAgain k seq)
      fun t c => t.emit (.block k c.blk) := by
  simp only [State.resendFrom, hf, Nat.not_le.2 ht, if_false]
  rfl

theorem nakReceive_up {seq : Nat} (hu : s.portUp k = true) (hs : s.ob.stop ≠ .snapped) (hl : seq < 65536) :
    s.nakReceive k seq = s.resendFrom k seq := by
  rw [State.nakReceive, if_pos ⟨hu, hs⟩, Nat.mod_eq_of_lt hl]

theorem hopTimeout_expired {rest : List Sent} (hu : s.portUp k = true) (ho : s.liOn = true) (hs : s.ob.stop ≠ .snapped)
    (hr : (s.port k).replay = b :: rest) (ht : b.tries < 8) (ha : 4096 ≤ (s.reg (gcnt 0)).toNat - b.sentAt) :
    s.hopTimeout k = s.resendFrom k b.blk.seq := by
  simp only [State.hopTimeout, hr, hu, ho, hs, ht, ha, not_true_eq_false, or_self, if_false, if_true]

theorem e2eResend_expired {d n : Nat} {u : Unanswered} (hu : s.unanswered d n = some u)
    (ht : u.sentAt + s.fld ⟨.liE2eCfg, 0, 0⟩ 0 14 ≤ s.now) (hr : s.runs 6 = true)
    (hq : u.queued = true → s.route u.parcel.rset u.dst = none) :
    s.e2eResend d n = if u.resends < s.fld ⟨.liE2eCfg, 0, 0⟩ 16 4 then
        ({ s with li := { s.li with
          unanswered := updFirst (fun v => decide (v = u)) (fun v => { v with resends := v.resends + 1, sentAt := s.now, queued := true })
            s.li.unanswered } } : State).bump (liCnt 5) 1
      else s.giveUp u := by
  have waits : ¬ (u.queued = true ∧ (s.route u.parcel.rset u.dst).isSome = true) := fun h => by simp [hq h.1] at h
  simp only [State.e2eResend, hu, Nat.not_lt.2 ht, hr, waits, not_true_eq_false, or_self, if_false]

end

/-! ### Block slots (R291, R304) -/

section
variable {s : State} {k : Nat}

section
variable (hs : (s.port k).st = .up) (hl : s.liOn = true)
include hs hl

section
variable (ho : s.hubOn = true) (hr : (s.port k).replay.length < 2048)
include ho hr

/-- A queue that can be served sends what fits one block. -/
theorem transmitSlot_serves {q : Nat} {l : List Parcel} (hq : ((s.refuseTx k).port k).serves = some (q, l)) :
    s.transmitSlot k = ((s.refuseTx k).updPort k fun x => if q = 10 then { x with ctl := l.drop (fillBlock 236 l).length }
      else { x with tx := tput [] x.tx q (l.drop (fillBlock 236 l).length) }).sendBlock k q (fillBlock 236 l) := by
  simp only [State.transmitSlot, hs, hl, ho, Nat.not_le.2 hr, hq, ne_eq, not_true_eq_false, or_self, if_false]

/-- Else parcels that start their route here go out. -/
theorem transmitSlot_starting (hq : ((s.refuseTx k).port k).serves = none)
    (hn : ((s.refuseTx k).refuseStart k).sendStarting k ≠ (s.refuseTx k).refuseStart k) :
    s.transmitSlot k = ((s.refuseTx k).refuseStart k).sendStarting k := by
  simp only [State.transmitSlot, hs, hl, ho, Nat.not_le.2 hr, hq, hn, ne_eq, not_true_eq_false, or_self, if_false]

end

/-- A full replay buffer leaves room for a block of LENGTH 0 only. -/
theorem transmitSlot_bare (ho : s.ob.stop = .running) (hr : 2048 ≤ (s.port k).replay.length)
    (hw : (s.port k).ackOwed = true ∨ (s.port k).nakOwed = true ∨ (s.port k).owed ≠ []) :
    s.transmitSlot k = (s.updPort k fun x => x.sent ((s.port k).header false)).emit (.block k ((s.port k).header false)) := by
  simp only [State.transmitSlot, hs, hl, hr, ho, ne_eq, not_true_eq_false, or_self, or_true, if_false, if_true, reduceCtorEq, not_false_eq_true,
    and_true, decide_false, Bool.or_self]
  exact if_pos hw

end
end

/-! ### Ports and HELLO (R306 to R308) -/

section
variable {s : State} {k : Nat}

theorem helloSend_due (hs : (s.port k).st.greets) (ha : (s.port k).helloAt ≤ s.now) (hl : s.liOn = true) (ho : s.ob.stop ≠ .snapped) :
    s.helloSend k = ((((s.updPort k fun x => { x with helloAt := s.now + 10, sentSeen := x.sentSeen || x.gotAny }).emit (.block k {
      queue := 10,
      parcels := [{
        hops := 0, src := s.chipId, incarn := s.fld ⟨.liIncarn, 0, 0⟩ 0 16,
        body := .hello k (s.port k).gotAny (s.fld ⟨.liRev, 0, 0⟩ 0 8) (s.fld ⟨.liRev, 0, 0⟩ 8 8) (s.fld ⟨.liSystem, 0, 0⟩ 0 32)
          [24, 24, 24, 24, 24, 24, 24, 24, 24, 24, 16] }] })).bump (gcnt 6) 1).judgePort k) :=
  if_pos ⟨hs, ha, hl, ho⟩

theorem linkSilent_due (hs : (s.port k).st = .hello) (hg : (s.port k).gotAny = false) (ht : (s.port k).silentTold = false)
    (ha : (s.port k).since + 1000 ≤ s.now) (hl : s.liOn = true) :
    s.linkSilent k = (s.updPort k fun x => { x with silentTold := true }).report { typ := 0x74, source := 0x8006, body := [k] } :=
  if_pos ⟨hs, by simp [hg], by simp [ht], ha, hl⟩

theorem phyReady_training (hs : (s.port k).st = .training) : s.phyReady k = s.toPortState k .hello 0 := if_pos hs

theorem toRetrain_trained (hs : (s.port k).st = .up ∨ (s.port k).st = .mismatched ∨ (s.port k).st = .fenced ∨ (s.port k).st = .hello)
    (cause : Nat) : s.toRetrain k cause = (s.toPortState k .retrain cause).cutBroken k := by
  obtain hs | hs | hs | hs := hs <;> simp only [State.toRetrain, hs]

theorem retrainExpiry_due (hs : (s.port k).st = .retrain) (ha : (s.port k).since + 1000 ≤ s.now) (hl : s.liOn = true) :
    s.retrainExpiry k = s.toPortState k .training 0 := if_pos ⟨hs, ha, hl⟩

end

/-! ### RETURN parcels and memory requests (R123, R283) -/

section
variable {s : State} {e : Nat} {data : List Byte} {l : Launch}

/-- A RETURN is filled in from the call slot `y` of its task, whatever else its sender names. -/
theorem returnSend_serving {x off y : Nat} (hj : (s.eng e).job = some l) (hc : (s.node l.key).call = some y) (he : isLE e = true)
    (hx : y % 256 = x % 256) (ho : off % 64 = 0) (hn : data.length = 64 ∨ data.length = 128 ∨ data.length = 192) (ht : s.takes 6 = true) :
    s.returnSend e x off data = { s with li := { s.li with retWait := s.li.retWait ++ [(e, {
      rset := (s.callSlot y).rset, dst := (s.callSlot y).srcChip, src := s.chipId, slice := (s.callSlot y).slice, ctx := l.ctx,
      incarn := s.fld ⟨.liIncarn, 0, 0⟩ 0 16,
      body := .ret (s.callSlot y).landing (s.callSlot y).gen (s.callSlot y).epoch off data })] } } := by
  simp only [State.returnSend, hj, hc, he, hx, ho, hn, ht, ne_eq, not_true_eq_false, or_self, if_false]

/-- The request that the task `l` of engine `e` makes. -/
def memReqOf (e addr g : Nat) (data : List Byte) (l : Launch) : MemReq :=
  { e := e, ctx := l.ctx, addr := addr, granules := g, data := data }

theorem memRequest_legal {addr g : Nat} (hj : (s.eng e).job = some l) (he : isLE e = false) (h1 : 1 ≤ g) (h64 : g ≤ 64)
    (hn : data.length ≤ 64 * g) (ho : s.ob.stop ≠ .snapped) :
    s.memRequest e addr g data =
      if s.memOpen (s.podOf l.ctx) (engRegion e) = true ∧ tget [] s.dl.memWait (s.podOf l.ctx * 8 + engRegion e) = [] then
        s.passMem (memReqOf e addr g data l)
      else { s with dl := { s.dl with
        memWait := tput [] s.dl.memWait (s.podOf l.ctx * 8 + engRegion e)
          (tget [] s.dl.memWait (s.podOf l.ctx * 8 + engRegion e) ++ [memReqOf e addr g data l]) } } := by
  simp only [State.memRequest, hj, he, Nat.one_le_iff_ne_zero.1 h1, Nat.not_lt.2 h64, Nat.not_lt.2 hn, ho, Bool.false_eq_true, or_self, if_false]
  rfl

end

/-- Settles O26: what a port does follows from its state, and what a slot sends from what waits for it. -/
theorem portsBlocksAndRequests : Obligations.PortsBlocksAndRequests := by
  unfold Obligations.PortsBlocksAndRequests
  refine ⟨?inSequence, ?bad, ?hello,
    fun s k seq bytes g => ⟨congrArg Host.Outcome.next (reach_gated g), congrArg Host.Outcome.next (reach_gated g)⟩,
    ?resend, ?serves, ?starting, ?bare, fun s d n u hu ht hr hq => congrArg Host.Outcome.next (e2eResend_expired hu ht hr hq),
    fun s k hs ha hl ho => congrArg Host.Outcome.next (helloSend_due hs ha hl ho),
    fun s k hs hg ht ha hl => congrArg Host.Outcome.next (linkSilent_due hs hg ht ha hl), ?phy,
    fun s k hs ha hl => congrArg Host.Outcome.next (retrainExpiry_due hs ha hl), ?returns, ?memory⟩
  case inSequence =>
    rintro s _ _ k bytes b g h rfl hs hb hh rfl hp hu hn
    exact congrArg Host.Outcome.next ((blockReceive_now g h).trans (blockIn_inSequence hs hb hh hp hu hn))
  case bad =>
    rintro s _ k bytes g h rfl hs hb
    exact congrArg Host.Outcome.next ((blockReceive_now g h).trans (blockIn_bad hs hb))
  case hello =>
    rintro s _ k bytes b p g h rfl hs hb hp ht
    exact congrArg Host.Outcome.next ((blockReceive_now g h).trans (blockIn_hello hs hb hp ht))
  case resend =>
    rintro s _ k _ _ b hu hl ho ht hf rfl rfl rfl
    have again := resendFrom_kept hf ht
    refine ⟨?nak, ?timeout⟩
    case nak =>
      rintro z hq g h rfl
      exact congrArg Host.Outcome.next ((reach_now g h).trans ((nakReceive_up hu ho hq).trans again))
    case timeout =>
      intro rest hr ha
      exact congrArg Host.Outcome.next ((hopTimeout_expired hu hl ho hr ht ha).trans again)
  case serves =>
    rintro s _ k q l hs hl ho hr rfl hq
    exact congrArg Host.Outcome.next (transmitSlot_serves hs hl ho hr hq)
  case starting =>
    rintro s _ _ k hs hl ho hr rfl hq rfl hn
    exact congrArg Host.Outcome.next (transmitSlot_starting hs hl ho hr hq hn)
  case bare =>
    rintro s k _ hs hl ho hr hw rfl
    exact congrArg Host.Outcome.next (transmitSlot_bare hs hl ho hr hw)
  case phy =>
    rintro s _ k g h rfl
    exact ⟨fun hs => congrArg Host.Outcome.next ((reach_now g h).trans (phyReady_training hs)),
      fun hs => congrArg Host.Outcome.next ((reach_now g h).trans (toRetrain_trained hs 0))⟩
  case returns =>
    rintro s _ e x off y data l g h rfl hj hc he hx ho hn ht
    exact congrArg Host.Outcome.next ((reach_now g h).trans (returnSend_serving hj hc he hx ho hn ht))
  case memory =>
    rintro s e addr g _ data l hj he h1 h64 hn ho rfl
    exact congrArg Host.Outcome.next (memRequest_legal hj he h1 h64 hn ho)

/-! ### The Resolver's cycle, scrubbing and dispatch (R29, R51, R52, R74 to R76) -/

section
variable {s : State} {k : Nat}

theorem resolverUpdate_runs (h : s.runs 1 = true) : s.resolverUpdate = s.resolverCycle := if_pos h

theorem scrub_runs {c i : Nat} (h : s.runs 1 = true) (u : Upset) :
    s.scrub c i u =
      if ((s.upset c i u).node (nk c i)).armed = true ∨ nk c i ∈ (s.upset c i u).gs.nodeBad ∨ nk c i ∈ (s.upset c i u).gs.nodeFix then
        ((s.upset c i u).checkNode (nk c i)).1
      else s.upset c i u := if_neg (not_not_intro h)

theorem nodeDispatch_dispatchable (hd : s.dispatchable k = true) (hl : s.live 1 = true) : s.nodeDispatch k = s.dispatch k :=
  if_pos ⟨hd, State.live_iff.1 hl⟩

/-- Where no engine is eligible the node is held, and TILESET_EMPTY written (R75). -/
theorem dispatch_noEngine (h : s.eligibleOf k = []) :
    s.dispatch k = (s.updNode k fun n => { n with place := .held }).report
      { typ := 0x12, source := 0x8002, ctx := some (nkCtx k), body := [s.nodeArg k, (s.node k).d.tileset] } := if_pos h

/-- The entry that an LE task makes in the link deal stage (R96). -/
def State.leEnt (s : State) (k : Nat) : HandEnt :=
  { key := k, pod := s.nodePod k, cls := 3, slot := (s.node k).slot, arrive := s.gs.order }

theorem dispatch_link (h : s.eligibleOf k ≠ []) (hc : (s.node k).d.cls = 3) :
    s.dispatch k = (({ s with
      dl := { s.dl with leHand := s.dl.leHand ++ [s.leEnt k] }
      gs := { s.gs with order := s.gs.order + 1 } } : State).bump (gcnt 2) 1).updNode k fun n => { n with place := .hand } :=
  (if_neg h).trans (if_pos hc)

section
variable (h : s.eligibleOf k ≠ []) (hc : (s.node k).d.cls ≠ 3)
include h hc

theorem dispatch_kitty (hk : (s.node k).d.isKitty = true) : s.dispatch k = s.dispatchKitty k (s.eligibleOf k) := by
  simp [State.dispatch, h, hc, hk]

/-- In LOCKSTEP a single task goes to the dealer of its assigned engine (R89). -/
theorem dispatch_assigned {e : Nat} (hk : (s.node k).d.isKitty = false) (hl : s.lockstep = true) (he : s.assigned k 0 = some e) :
    s.dispatch k = s.toDealer (engRegion e) k := by
  simp [State.dispatch, h, hc, hk, hl, he]

theorem dispatch_oneRegion {r : Nat} (hk : (s.node k).d.isKitty = false) (hl : s.lockstep = false)
    (hr : regionsOf (s.eligibleOf k) = [r]) : s.dispatch k = s.toDealer r k := by
  simp [State.dispatch, h, hc, hk, hl, hr]

theorem dispatch_regions {r1 r2 : Nat} {rs : List Nat} (hk : (s.node k).d.isKitty = false) (hl : s.lockstep = false)
    (hr : regionsOf (s.eligibleOf k) = r1 :: r2 :: rs) : s.dispatch k = s.openOffer k (r1 :: r2 :: rs) := by
  simp [State.dispatch, h, hc, hk, hl, hr]

end
end

/-! ### Offer rounds and backlogs (R77, R79) -/

section
variable {s : State} {r k : Nat} {o : Offer}

/-- The round is of node `k` and awaits the answer of dealer `r`. -/
def Offer.asks (k r : Nat) (o : Offer) : Bool := decide (o.key = k) && decide (r ∈ o.asked)

/-- The round is of node `k`, and an answer of dealer `r` is on its way to the hub. -/
def Offer.answerComes (k r : Nat) (o : Offer) : Bool := decide (o.key = k) && o.transit.any fun a => decide (a.1 = r)

/-- The round is of node `k`, and its window is open. -/
def Offer.collects (k : Nat) (o : Offer) : Bool := decide (o.key = k) && !o.closed

/-- The round is of node `k`, and a withdrawal is on its way to dealer `r`. -/
def Offer.withdraws (k r : Nat) (o : Offer) : Bool := decide (o.key = k) && o.withdraw.any fun w => decide (w.1 = r)

/-- Dealer `r` answers: `none` is NO, and YES names the held engine and how many are free. -/
def Offer.answer (r : Nat) (a : Option (Nat × Nat)) (o : Offer) : Offer :=
  { o with asked := o.asked.filter (· ≠ r), transit := o.transit ++ [(r, a)] }

/-- An answer arrives: in an open window it is kept, and after its close a YES is withdrawn. -/
def Offer.arrive (r : Nat) (a : Nat × Option (Nat × Nat)) (o : Offer) : Offer :=
  { o with
    transit := dropRegion r o.transit
    got := if o.closed then o.got else o.got ++ [a]
    withdraw := if o.closed then o.withdraw ++ (a.2.map fun h => (r, h.1)).toList else o.withdraw }

/-- The window closes on the best YES `y`, and the others of `got` are withdrawn. -/
def Offer.settleOn (got : List (Nat × Option (Nat × Nat))) (y : Nat × Nat) (o : Offer) : Offer :=
  { o with
    closed := true
    got := []
    confirm := some y
    withdraw := o.withdraw ++ (got.filterMap fun a => a.2.map fun h => (a.1, h.1)).filter fun w => decide (w.1 ≠ y.1) }

section
variable (ha : s.dl.offers.any (Offer.asks k r) = true) (hd : s.dealerOn r = true) (ho : s.open = true)
include ha hd ho

theorem offerAnswer_no (hp : pickFrom (s.pickPtr r (s.nodePod k) (s.node k).d.cls) (s.freeIn r k) = none) :
    s.offerAnswer r k = s.updOffer (Offer.asks k r) (Offer.answer r none) := by
  refine (if_pos ⟨ha, hd, ho⟩).trans ?_
  simp only [hp]
  rfl

/-- A dealer that answers YES holds the engine it names. -/
theorem offerAnswer_yes {e : Nat} (hp : pickFrom (s.pickPtr r (s.nodePod k) (s.node k).d.cls) (s.freeIn r k) = some e) :
    s.offerAnswer r k = ((s.movePtr r (s.nodePod k) (s.node k).d.cls e).updEng e fun x => { x with held := some k }).updOffer
      (Offer.asks k r) (Offer.answer r (some (e, (s.freeIn r k).length))) := by
  refine (if_pos ⟨ha, hd, ho⟩).trans ?_
  simp only [hp]
  rfl

end

theorem answerArrival_found {a : Nat × Option (Nat × Nat)} (hf : s.dl.offers.find? (Offer.answerComes k r) = some o)
    (hr : s.runs 1 = true) (hp : (s.dealer r).pathDown = false) (ha : o.transit.find? (fun a => decide (a.1 = r)) = some a) :
    s.answerArrival r k = (s.updOffer (Offer.answerComes k r) (Offer.arrive r a)).pruneOffers := by
  unfold Offer.answerComes at hf
  simp only [State.answerArrival, hf, hr, hp, ha, not_true_eq_false, Bool.false_eq_true, or_self, if_false]
  rfl

theorem windowClose_noYes (hf : s.dl.offers.find? (Offer.collects k) = some o) (hl : s.live 1 = true) (hy : bestYes o.got = none) :
    s.windowClose k =
      ((s.updOffer (Offer.collects k) fun o => { o with closed := true, got := [] }).toLargest k).pruneOffers := by
  unfold Offer.collects at hf
  simp only [State.windowClose, hf, State.live_iff.1 hl, hy, not_true_eq_false, or_self, if_false]
  rfl

theorem windowClose_yes {y : Nat × Nat} (hf : s.dl.offers.find? (Offer.collects k) = some o) (hl : s.live 1 = true)
    (hy : bestYes o.got = some y) :
    s.windowClose k = ((s.updOffer (Offer.collects k) (Offer.settleOn o.got y)).bump (gcnt 2) 1).pruneOffers := by
  unfold Offer.collects at hf
  simp only [State.windowClose, hf, State.live_iff.1 hl, hy, not_true_eq_false, or_self, if_false]
  rfl

/-- The round without the confirmation that has arrived at dealer `r`. -/
def State.confirmTaken (s : State) (r k : Nat) : State := s.updOffer (fun o => o.confirms k r) fun o => { o with confirm := none }

section
variable {e : Nat} (hf : s.dl.offers.find? (fun o => o.confirms k r) = some o) (hc : o.confirm = some (r, e)) (hr : s.runs 2 = true)
  (hp : (s.dealer r).pathDown = false)
include hf hc hr hp

theorem offerConfirm_held (hh : ((s.confirmTaken r k).eng e).held = some k) (hb : (s.confirmTaken r k).benched e = false) :
    s.offerConfirm r k = ((s.confirmTaken r k).updDealer r fun d => { d with confirmed := d.confirmed ++ [(k, e)] }).pruneOffers := by
  unfold State.confirmTaken at hh hb
  simp only [State.offerConfirm, hf, Option.bind_some, hc, hr, hp, hh, hb, not_true_eq_false, Bool.false_eq_true, not_false_eq_true, or_self,
    and_self, if_false, if_true]
  rfl

/-- A hold that is gone is answered REJECT, and the hub dispatches the node again. -/
theorem offerConfirm_rejected (hh : ((s.confirmTaken r k).eng e).held ≠ some k) :
    s.offerConfirm r k = (((s.confirmTaken r k).updNode k fun n => { n with place := .hub }).dispatch k).pruneOffers := by
  unfold State.confirmTaken at hh
  simp only [State.offerConfirm, hf, Option.bind_some, hc, hr, hp, hh, not_true_eq_false, Bool.false_eq_true, or_self, false_and, if_false]
  rfl

end

/-- The round without the withdrawal that has arrived at dealer `r`. -/
def State.withdrawTaken (s : State) (r k : Nat) : State :=
  s.updOffer (Offer.withdraws k r) fun o => { o with withdraw := dropRegion r o.withdraw }

theorem offerWithdraw_held {e : Nat} (hf : s.dl.offers.find? (Offer.withdraws k r) = some o)
    (hw : o.withdraw.find? (fun w => decide (w.1 = r)) = some (r, e)) (hr : s.runs 2 = true) (hp : (s.dealer r).pathDown = false)
    (hh : ((s.withdrawTaken r k).eng e).held = some k) :
    s.offerWithdraw r k = ((s.withdrawTaken r k).updEng e fun x => { x with held := none }).pruneOffers := by
  unfold State.withdrawTaken Offer.withdraws at hh
  unfold Offer.withdraws at hf
  simp only [State.offerWithdraw, hf, Option.bind_some, hw, hr, hp, hh, not_true_eq_false, Bool.false_eq_true, or_self, if_false, if_true]
  rfl

theorem backlogDispatch_fits {p : Nat} {rest : List Nat} (hl : s.live 1 = true) (hp : (s.dealer r).pathDown = false)
    (hb : tget [] s.dl.backlog (p * 8 + r) = k :: rest) (hq : s.quotaOk r p (s.node k).slot (s.node k).d.isKitty = true) :
    s.backlogDispatch p r = (({ s with dl := { s.dl with backlog := tput [] s.dl.backlog (p * 8 + r) rest } } : State).insertEnt r k none).updNode k
      fun n => { n with place := .hand } := by
  simp [State.backlogDispatch, State.live_iff.1 hl, hp, State.fromBacklog, hb, hq]

end

/-- Settles O27: a dispatch by what is eligible, and each message of a round by what the round holds when it arrives. -/
theorem dispatchAndOfferRounds : Obligations.DispatchAndOfferRounds := by
  unfold Obligations.DispatchAndOfferRounds
  refine ⟨fun s h => congrArg Host.Outcome.next (resolverUpdate_runs h), ?scrub, ?dispatch, ?answer,
    fun s r c i o a hf hr hp ha => congrArg Host.Outcome.next (answerArrival_found hf hr hp ha), ?close, ?confirm, ?withdraw,
    fun s p r k rest hl hp hb hq => congrArg Host.Outcome.next (backlogDispatch_fits hl hp hb hq)⟩
  case scrub =>
    rintro s t c i _ u hr rfl ht
    have met : t = s.upset c i u := by
      rw [ht]
      match u with
      | .nodeWord true | .nodeWord false | .edgeWord _ true | .edgeWord _ false => rfl
      | .none | .primary | .shadow | .object .. => rfl
    rw [met]
    exact congrArg Host.Outcome.next (scrub_runs hr u)
  case dispatch =>
    rintro s c i _ _ rfl hd hl rfl
    have go : exec (.nodeDispatch c i) s = .next (s.dispatch (nk c i)) := congrArg Host.Outcome.next (nodeDispatch_dispatchable hd hl)
    simp only [go, Host.Outcome.next.injEq]
    exact ⟨dispatch_noEngine, dispatch_link, dispatch_kitty, fun e h hc hk hl he => dispatch_assigned h hc hk hl he,
      fun r h hc hk hl hr => dispatch_oneRegion h hc hk hl hr, fun r1 r2 rs h hc hk hl hr => dispatch_regions h hc hk hl hr⟩
  case answer =>
    rintro s r c i _ _ rfl ha hd ho rfl
    exact ⟨fun hp => congrArg Host.Outcome.next (offerAnswer_no ha hd ho hp),
      fun e hp => congrArg Host.Outcome.next (offerAnswer_yes ha hd ho hp)⟩
  case close =>
    intro s c i o hf hl
    exact ⟨fun hy => congrArg Host.Outcome.next (windowClose_noYes hf hl hy),
      fun y hy => congrArg Host.Outcome.next (windowClose_yes hf hl hy)⟩
  case confirm =>
    rintro s _ r c i e o hf hc hr hp rfl
    exact ⟨fun hh hb => congrArg Host.Outcome.next (offerConfirm_held hf hc hr hp hh hb),
      fun hh => congrArg Host.Outcome.next (offerConfirm_rejected hf hc hr hp hh)⟩
  case withdraw =>
    rintro s _ r c i e o hf hw hr hp rfl hh
    exact congrArg Host.Outcome.next (offerWithdraw_held hf hw hr hp hh)

/-! ### Issue slots (R82, R90, R96) -/

section
variable {s : State} {r : Nat}

/-- Each slot of a dealer counts, used or not. -/
def State.nextSlot (s : State) (r : Nat) : State := s.updDealer r fun d => { d with slotNo := d.slotNo + 1 }

section
variable (hr : s.runs 2 = true) (hl : s.ob.lossStop = false) (hb : (s.dealer r).rebuild = false)
  (hm : bit (s.reg ⟨.benchRegions, 0, 0⟩) r = false)
include hr hl hb hm

theorem issueSlot_confirmed {c : Nat × Nat} (hc : s.confirmedHead r = some c) : s.issueSlot r = (s.dealConfirmed r c).nextSlot r := by
  simp only [State.issueSlot, hr, hl, hb, hm, hc, not_true_eq_false, Bool.false_eq_true, or_self, if_false]
  rfl

theorem issueSlot_dealt {h e : Nat} {x : HandEnt} (hc : s.confirmedHead r = none) (hd : s.dealChoice r = some (h, x, e))
    (hk : s.lockstep = false) :
    s.issueSlot r = (((s.movePtr r x.pod x.cls e).dealEnt r x e).updDealer r fun d => { d with last := h }).nextSlot r := by
  simp only [State.issueSlot, hr, hl, hb, hm, hc, hd, hk, not_true_eq_false, Bool.false_eq_true, or_self, if_false]
  rfl

theorem issueSlot_idle (hc : s.confirmedHead r = none) (hd : s.dealChoice r = none) :
    s.issueSlot r = (s.bump ⟨.dlIdle, r, 0⟩ 1).nextSlot r := by
  simp only [State.issueSlot, hr, hl, hb, hm, hc, hd, not_true_eq_false, Bool.false_eq_true, or_self, if_false]
  rfl

end

/-- The entry that the link deal stage deals leaves its hand, and the pod's pointer moves past the engine. -/
def State.leTaken (s : State) (p e : Nat) (h : HandEnt) : State :=
  { s with dl := { s.dl with
    leHand := eraseFirst (fun x => decide (x = h)) s.dl.leHand, leLast := p, lePtr := tput 0 s.dl.lePtr p ((e - 8192 + 1) % 32) } }

/-- The node of a task that the link deal stage has dealt is ACTIVE at once, and its START edges are applied. -/
def State.leStarted (s : State) (k : Nat) : State := ((s.updNode k fun n => { n with st := .active, startedAt := s.now }).applyStart k).settle

/-- Each slot of the link deal stage counts. -/
def State.nextLeSlot (s : State) : State := { s with dl := { s.dl with leSlotNo := s.dl.leSlotNo + 1 } }

theorem leIssueSlot_dealt {p e : Nat} {h : HandEnt} (hl : s.live 6 = true) (hc : s.leChoice = some (p, h, e)) (hk : s.lockstep = false) :
    s.leIssueSlot = (((s.leTaken p e h).launch e h.key 0 12).leStarted h.key).nextLeSlot := by
  simp only [State.leIssueSlot, State.live_iff.1 hl, hc, hk, not_true_eq_false, Bool.false_eq_true, or_self, if_false]
  rfl

end

/-! ### Start reports, shares and the combine turn (R84, R85, R87) -/

section
variable {s : State} {e : Nat} {l : Launch}

/-- The hub has taken a start report. -/
def State.startTaken (s : State) (e : Nat) (l : Launch) : State :=
  { s with dl := { s.dl with starts := eraseFirst (fun x => decide (x = (e, l))) s.dl.starts } }

theorem startReport_first (hf : s.dl.starts.find? (fun x => decide (x.1 = e)) = some (e, l)) (hr : s.runs 1 = true)
    (hp : s.pathUp e = true) (hn : (s.node l.key).st = .ready) (hj : (s.eng e).job = some l) :
    s.startReport e = (((s.startTaken e l).updNode l.key fun n => { n with st := .active, startedAt := (s.eng e).startTick }).applyStart
      l.key).settle := by
  have ready : ((s.startTaken e l).node l.key).st = .ready := hn
  have job : ((s.startTaken e l).eng e).job = some l := hj
  unfold State.startTaken at ready job
  simp only [State.startReport, hf, hr, hp, ready, job, not_true_eq_false, or_self, if_false, if_true]
  rfl

theorem shareDone_reported {r k : Nat} (hs : (s.dealer r).shares.any (fun h => decide (h.key = k) && h.reported) = true)
    (hr : s.runs 1 = true) (hp : (s.dealer r).pathDown = false) (hn : ∀ x, x ∈ s.dl.starts → x.2.key ≠ k) :
    s.shareDone r k = (s.updDealer r fun d =>
      { d with shares := eraseFirst (fun h => decide (h.key = k) && h.reported) d.shares }).kittyEnd k :=
  if_pos ⟨hs, hr, by simp [hp], by simpa using fun a b h => hn (a, b) h⟩

theorem combineRequest_running (hj : (s.eng e).job = some l) (hr : s.runs 2 = true) :
    s.combineRequest e = (s.updEng e fun x => { x with turnAsk := true }).grantTurns l.key := by
  simp only [State.combineRequest, hj, hr, if_true]

theorem combineDone_running (hj : (s.eng e).job = some l) (hr : s.runs 2 = true) :
    s.combineDone e = (s.updEng e fun x => { x with turnAsk := false, turnHeld := false }).passPanels l.key [l.panel] := by
  simp only [State.combineDone, hj, hr, if_true]

end

/-! ### Completions (R32, R85, R93 to R95, R467) -/

section
variable {s : State} {e : Nat} {l : Launch} {st : CellStatus} {w : BitVec 32}

/-- What a report counts as: a posted request that was lost makes it an ERROR (R220). -/
def State.reported (s : State) (e : Nat) (st : CellStatus) : CellStatus := if (s.eng e).postedLost then .error else st

/-- A report goes on to the hub. -/
def State.toHub (s : State) (r : EngReport) : State := { s with dl := { s.dl with reports := s.dl.reports ++ [r] } }

section
variable (hj : (s.eng e).job = some l) (hd : (s.eng e).drain = none) (hr : (s.eng e).reset = none) (hp : s.portHolds e = false)
include hj hd hr hp

section
variable (he : isLE e = false) (ho : s.hubOn = true) (hg : s.gated 2 = false)
include he ho hg

theorem engineDone_panelOk (hk : (s.node l.key).d.isKitty = true) (hz : s.reported e st = .ok) :
    s.engineDone e st w = ((s.portAccept e l).panelEnd (engRegion e) l.key l.panel true).accepted e l .ok := by
  unfold State.reported at hz
  simp only [State.engineDone, hj, he, hd, hr, hp, ho, hg, hk, hz, Option.isSome_none, Bool.false_eq_true, not_true_eq_false, or_self, and_self,
    if_false, if_true]

theorem engineDone_panelError (hk : (s.node l.key).d.isKitty = true) (hz : s.reported e st ≠ .ok) :
    s.engineDone e st w =
      ((s.portAccept e l).panelEnd (engRegion e) l.key l.panel false).toHub (.mk e l (s.reported e st) w) := by
  unfold State.reported at hz
  simp only [State.engineDone, hj, he, hd, hr, hp, ho, hg, hk, hz, Option.isSome_none, Bool.false_eq_true, not_true_eq_false, or_self, and_false,
    if_false, if_true]
  rfl

theorem engineDone_single (hk : (s.node l.key).d.isKitty = false) :
    s.engineDone e st w = (s.portAccept e l).toHub (.mk e l (s.reported e st) w) := by
  simp only [State.engineDone, hj, he, hd, hr, hp, ho, hg, hk, Option.isSome_none, Bool.false_eq_true, not_true_eq_false, or_self, false_and,
    if_false]
  rfl

end
end

/-- The hub has taken a report of engine `e`. -/
def State.reportTaken (s : State) (e : Nat) (r : EngReport) : State :=
  ({ s with dl := { s.dl with reports := eraseFirst (fun x => decide (x = r)) s.dl.reports } } : State).accepted e r.job r.st

theorem completionAccept_first {r : EngReport} (hf : s.dl.reports.find? (fun r => decide (engRegion r.e = engRegion e)) = some r)
    (he : r.e = e) (hr : s.runs 1 = true) (hp : s.pathUp e = true) (hn : ∀ x, x ∈ s.dl.starts → x ≠ (e, r.job)) :
    s.completionAccept e = if r.st = .ok then (s.reportTaken e r).singleOk r.job.key
      else ((s.reportTaken e r).endError r.job.key (errorRec e r.job r.word) e).settle := by
  have started : (s.dl.starts.any fun x => decide (x = (e, r.job))) = false := by simpa using hn
  simp only [State.completionAccept, hf, he, hr, hp, started, ne_eq, not_true_eq_false, Bool.false_eq_true, or_self, if_false]
  rfl

theorem leDone_reports {k : Nat} (hj : (s.eng (leId k)).job = some l) (hd : (s.eng (leId k)).drain = none)
    (hr : (s.eng (leId k)).reset = none) (hp : s.portHolds (leId k) = false) (ht : s.takes 6 = true) :
    s.leDone k st w =
      if s.reported (leId k) st = .ok then ((s.portAccept (leId k) l).accepted (leId k) l (s.reported (leId k) st)).singleOk l.key
      else (((s.portAccept (leId k) l).accepted (leId k) l (s.reported (leId k) st)).endError l.key (errorRec (leId k) l w) (leId k)).settle := by
  simp only [State.leDone, hj, hd, hr, hp, ht, Option.isSome_none, Bool.false_eq_true, not_true_eq_false, or_self, if_false]
  rfl

end

/-! ### Drains and cell resets (R195, R350) -/

section
variable {s : State} {e : Nat} {l : Launch}

/-- A task or panel that ends by a drain: its start report is no longer awaited, and it counts as drained. -/
def State.countDrained (s : State) (e : Nat) (l : Launch) : State :=
  (if (s.node l.key).d.isKitty then s else s.dropStarts e).updCmdOf l.key fun c => { c with drained := c.drained + 1 }

theorem drainDone_draining {st : CellStatus} {b : State} (hj : (s.eng e).job = some l) (hd : (s.eng e).drain ≠ none)
    (hr : (s.eng e).reset = none) (hp : s.portHolds e = false) (ho : s.hubOn = true)
    (hb : b = ((s.countDrained e l).portAccept e l).accepted e l st) :
    s.drainDone e st = if (b.node l.key).d.isKitty then b.panelEnd (engRegion e) l.key l.panel (decide (st = .ok))
      else if st = .ok then b.singleOk l.key
      else if (b.node l.key).st = .active ∨ (b.node l.key).st = .ready then b.setFolded l.key
      else b := by
  subst hb
  simp only [State.drainDone, hj, hr, hp, ho, Option.isNone_iff_eq_none, hd, Option.isSome_none, Bool.false_eq_true, not_true_eq_false, or_self,
    if_false]
  rfl

section
variable {t : Nat} {lines : List Nat} (hj : (s.eng e).job = some l) (hd : (s.eng e).drain = some t) (hr : (s.eng e).reset = none)
  (ht : t + s.fld ⟨.drainLimit, 0, 0⟩ 0 16 ≤ s.now) (ho : s.hubOn = true)
include hj hd hr ht ho

theorem drainExpiry_panel {b : State} (ha : ((s.killCell e l lines).node l.key).d.isKitty = true)
    (hb : b = (s.killCell e l lines).countKilled l.key) (hk : (b.node l.key).d.isKitty = true) :
    s.drainExpiry e lines = b.panelEnd (engRegion e) l.key l.panel false := by
  subst hb
  simp only [State.drainExpiry, hj, hd, hr, Nat.not_lt.2 ht, ho, ha, hk, Option.isSome_none, Bool.false_eq_true, not_true_eq_false, or_self,
    if_false, if_true]

theorem drainExpiry_single {b : State} (ha : ((s.killCell e l lines).node l.key).d.isKitty = false)
    (hb : b = ((s.killCell e l lines).dropStarts e).countKilled l.key) (hk : (b.node l.key).d.isKitty = false)
    (hn : (b.node l.key).st = .active ∨ (b.node l.key).st = .ready) : s.drainExpiry e lines = b.setFolded l.key := by
  subst hb
  simp only [State.drainExpiry, hj, hd, hr, Nat.not_lt.2 ht, ho, ha, hk, hn, Option.isSome_none, Bool.false_eq_true, not_true_eq_false, or_self,
    if_false, if_true]

end

/-- The engine's reset is over. -/
def State.resetOver (s : State) (e : Nat) : State := (s.freeUp e).updEng e fun x => { x with reset := none, drain := none }

theorem resetDone_inReset (hr : (s.eng e).reset ≠ none) (ho : s.hubOn = true) : s.resetDone e = s.resetOver e :=
  if_pos ⟨Option.isSome_iff_ne_none.2 hr, ho⟩

theorem resetTimeout_expired {t : Nat} (hr : (s.eng e).reset = some t) (ht : t + 2 ≤ s.now) (ho : s.hubOn = true) :
    s.resetTimeout e = if isLE e then (s.resetOver e).benchLE (e - 8192) 3 else (s.resetOver e).benchCell e 3 := by
  simp only [State.resetTimeout, hr, Nat.not_lt.2 ht, ho, not_true_eq_false, or_self, if_false]
  rfl

end

/-- Settles O28: an issue slot by what there is to deal, and a report by the state of its engine. -/
theorem issueSlotsStartsCombinesAndEnds : Obligations.IssueSlotsStartsCombinesAndEnds := by
  unfold Obligations.IssueSlotsStartsCombinesAndEnds
  refine ⟨?issue, ?link, ?start, fun s r c i hs hr hp hn => congrArg Host.Outcome.next (shareDone_reported hs hr hp hn), ?combine,
    ?completion, ?accept, ?linkEnd, ?drain, ?limit, fun s e hr ho => congrArg Host.Outcome.next (resetDone_inReset hr ho), ?timeout⟩
  case issue =>
    intro s r hr hl hb hm
    exact ⟨fun c hc => congrArg Host.Outcome.next (issueSlot_confirmed hr hl hb hm hc),
      fun h x e hc hd hk => congrArg Host.Outcome.next (issueSlot_dealt hr hl hb hm hc hd hk),
      fun hc hd => congrArg Host.Outcome.next (issueSlot_idle hr hl hb hm hc hd)⟩
  case link =>
    rintro s _ _ p e h hl hc hk rfl rfl
    exact congrArg Host.Outcome.next (leIssueSlot_dealt hl hc hk)
  case start =>
    rintro s _ e l hf hr hp rfl hn hj
    exact congrArg Host.Outcome.next (startReport_first hf hr hp hn hj)
  case combine =>
    intro s e l hj hr
    exact ⟨congrArg Host.Outcome.next (combineRequest_running hj hr), congrArg Host.Outcome.next (combineDone_running hj hr)⟩
  case completion =>
    rintro s _ e l st _ w hj he hd hr hp rfl ho hg rfl
    refine ⟨fun hk hz => congrArg Host.Outcome.next (engineDone_panelOk hj hd hr hp he ho hg hk hz), ?_,
      fun hk => congrArg Host.Outcome.next (engineDone_single hj hd hr hp he ho hg hk)⟩
    rintro _ hk hz rfl
    exact congrArg Host.Outcome.next (engineDone_panelError hj hd hr hp he ho hg hk hz)
  case accept =>
    rintro s _ e r hf he hr hp hn rfl
    have taken := completionAccept_first hf he hr hp hn
    refine ⟨fun ok => congrArg Host.Outcome.next (taken.trans (if_pos ok)), fun bad => ?_⟩
    exact congrArg Host.Outcome.next (taken.trans (if_neg (by simp [bad])))
  case linkEnd =>
    rintro z _ k l st _ w g h rfl hj hd hr hp rfl ht
    have done : exec (.leCompletion k st w) z = .next ((z.wake 6).leDone k st w) := congrArg Host.Outcome.next (reach_now g h)
    rw [done, leDone_reports hj hd hr hp ht]
    refine ⟨fun ok => congrArg Host.Outcome.next ((if_pos ok).trans ?_), fun bad => congrArg Host.Outcome.next (if_neg bad)⟩
    rw [show (z.wake 6).reported (leId k) st = .ok from ok]
    rfl
  case drain =>
    rintro s _ b e st l hj hd hr hp ho rfl hb
    exact congrArg Host.Outcome.next (drainDone_draining hj hd hr hp ho hb)
  case limit =>
    rintro s _ b e t l lines hj hd hr ht ho rfl
    exact ⟨fun ha hb hk => congrArg Host.Outcome.next (drainExpiry_panel hj hd hr ht ho ha hb hk),
      fun ha hb hk hn => congrArg Host.Outcome.next (drainExpiry_single hj hd hr ht ho ha hb hk hn)⟩
  case timeout =>
    rintro s _ e t hr ht ho rfl
    exact congrArg Host.Outcome.next (resetTimeout_expired hr ht ho)

end Sys2Proof.Machine
end

section
/-! The task graph (02_the_task_graph.md): parcels of other chips, the registers of contexts, descriptors, commands, sync nodes and
loops. -/
namespace Sys2Proof.Machine

/-! ### Taking the parcel at the head of a queue (R297, R299, R313) -/

section
variable {s t u : State} {k q typ : Nat} {p : Parcel}

/-- Only DECREMENT, SIGNAL and EXPERT_CALL are requests. -/
theorem State.arrives.notReq (h : s.arrives k q typ p) (ht : 3 < typ) : p.isReq = false := by
  obtain ⟨-, hb, -⟩ := h
  simpa [Parcel.isReq, hb] using ht

/-- In LOCKSTEP the tick takes parcels, not their own rows. -/
theorem takeType_lockstep (h : s.lockstep = true) (k q typ : Nat) : s.takeType k q typ = s := by
  unfold State.takeType
  split
  next => exact if_neg fun ⟨_, _, off⟩ => off h
  next => rfl

theorem parcelTests_request (h : s.arrives k q typ p) (ha : s.accepts p u) : s.parcelTests k p = u.parcelHere k p := by
  obtain ⟨hr, hj⟩ := ha
  simp [parcelTests_arrives h, hr, hj]

/-- An accepted request that does not wait has its effect, and leaves its queue. -/
theorem takeType_request {v : State} (h : s.arrives k q typ p) (ha : s.accepts p u) (hp : u.parcelHere k p = (v, false)) (hv : v = t) :
    s.takeType k q typ = t.popParcel k q false :=
  takeType_req h ha (hv ▸ hp)

/-- So does a parcel that is no request, which needs no number (R297). -/
theorem takeType_answer {v : State} (h : s.arrives k q typ p) (ht : 3 < typ) (hp : (s.bump (gcnt 7) 1).parcelHere k p = (v, false))
    (hv : v = t) : s.takeType k q typ = t.popParcel k q false :=
  takeType_resp h (h.notReq ht) (hv ▸ hp)

@[simp] theorem popParcel_serving (hold : Bool) (x : Nat) : (s.popParcel k q hold).serving x = s.serving x := rfl

/-- Call `w` waits behind those that wait already. -/
def State.addCallWait (s : State) (w : CallWait) : State := { s with li := { s.li with callWait := s.li.callWait ++ [w] } }

/-- A call that has to wait leaves its queue, and its block's credit stays held. -/
theorem takeType_waits {x rows rb l g ep e blk : Nat} (h : s.arrives k q typ p) (hh : s.headParcel k q = some (p, blk))
    (hb : p.body = .call x rows rb l g ep) (hp : s.parcelTests k p = (t, true)) (he : t.serving x = some e) :
    s.takeType k q typ = (t.popParcel k q true).addCallWait ⟨e, p, k, q, blk⟩ := by
  rw [takeType_arrives h]
  simp only [State.takeHead, hh, hp, hb, popParcel_serving, he]
  rfl

end

/-! ### DECREMENT, SIGNAL and EXPERT_CALL at their destination (R49, R121, R220, R301) -/

section
variable {s t : State} {k : Nat} {p : Parcel}

/-- A decrement of node `k` by `n` goes to the Resolver. -/
def State.queueDec (s : State) (k n : Nat) : State :=
  { s with gs := { s.gs with resIn := s.gs.resIn ++ [{ inc := false, node := k, n := n }] } }

theorem decJudge_resident {f : DecFrom} (hs : (s.ctx f.ctx).st = .resident) (ht : f.slice = s.ctxTag f.ctx)
    (hv : s.nodesValid f.ctx = true) (hd : f.dest < s.nodeWin f.ctx) :
    s.decJudge f = (s.queueDec (nk f.ctx f.dest) f.count).settle.decOk f := by
  simp only [State.decJudge, hs, ht, hv, Nat.not_le.2 hd, ne_eq, not_true_eq_false, or_self, if_false]
  rfl

/-- A decrement for a context that is saved or restored waits until it is there again. -/
theorem decJudge_away {f : DecFrom} (hs : (s.ctx f.ctx).st = .saving ∨ (s.ctx f.ctx).st = .restoring) (hl : s.li.pend.length < 256) :
    s.decJudge f = { s with li := { s.li with
      pend := s.li.pend ++ [{ parcel := f.parcel, localNode := f.node, ctx := f.ctx, node := f.dest, count := f.count }] } } := by
  obtain hs | hs := hs <;> simp only [State.decJudge, hs, if_pos hl]

/-- A DECREMENT parcel of node `n` of context `c`, as it is judged. -/
def Parcel.asDecrement (p : Parcel) (n c cnt : Nat) : DecFrom := { parcel := some p, slice := p.slice, ctx := c, dest := n, count := cnt }

theorem parcelHere_decrement {n c cnt : Nat} (hb : p.body = .decrement n c cnt) :
    s.parcelHere k p = (s.decJudge (p.asDecrement n c cnt), false) := by
  simp only [State.parcelHere, hb]
  rfl

/-- A SIGNAL at its context's tag, of a known OP, is applied as a request of its sender. -/
theorem parcelHere_signal {v op c amt : Nat} {o : SyncOp} (hb : p.body = .signal v op c amt) (ht : p.slice = s.ctxTag c)
    (ho : sigOp op amt = some o) :
    s.parcelHere k p = (s.syncOp { src := .remote p.src p.ctx c, vid := v, scope := 3, op := o, e2e := some p.e2eOf }, false) := by
  simp only [State.parcelHere, hb, State.takeSignal, ht, ho, ne_eq, not_true_eq_false, if_false]

/-- The state in which a call finds call slot `x`: freed where every node of its last call is over. -/
def State.readyCall (s : State) (x : Nat) : State := if (s.callSlot x).busy = true ∧ s.callOver x = true then s.freeCall x else s

@[simp] theorem readyCall_serving (x y : Nat) : (s.readyCall x).serving y = s.serving y := by
  have hs : (s.readyCall x).li.serve = s.li.serve := by
    unfold State.readyCall
    split <;> simp [State.freeCall_serve]
  unfold State.serving
  rw [hs]

theorem readyCall_free {x : Nat} (hb : (s.callSlot x).busy = false) : s.readyCall x = s := if_neg (by simp [hb])

section
variable {x e : Nat} (hr : s.callRefusal p x = none) (he : s.serving x = some e)
include hr he

theorem tryCall_slotBusy (hb : ((s.readyCall (s.nextCall e)).callSlot (s.nextCall e)).busy = true) :
    s.tryCall p x = (s.readyCall (s.nextCall e), true) := by
  simp only [State.tryCall, hr, he]
  exact if_pos (.inl hb)

section
variable (hb : ((s.readyCall (s.nextCall e)).callSlot (s.nextCall e)).busy = false)
  (hw : ∀ y ∈ (s.readyCall (s.nextCall e)).li.callWait, y.entry ≠ e)
include hb hw

theorem tryCall_served (hs : (s.readyCall (s.nextCall e)).serve e p = some t) : s.tryCall p x = (t, false) := by
  unfold State.readyCall at hb hw hs
  simp only [State.tryCall, hr, he, hb, hs]
  exact if_neg (by simpa using hw)

/-- With no block free the call waits. -/
theorem tryCall_noRoom (hs : (s.readyCall (s.nextCall e)).serve e p = none) :
    s.tryCall p x = (s.readyCall (s.nextCall e), true) := by
  unfold State.readyCall at hb hw hs ⊢
  simp only [State.tryCall, hr, he, hb, hs]
  exact if_neg (by simpa using hw)

end
end

theorem parcelHere_call {x rows rb l g ep : Nat} (hb : p.body = .call x rows rb l g ep) : s.parcelHere k p = s.tryCall p x := by
  simp only [State.parcelHere, hb]

end

/-- Settles O33: a new request's number is taken, and what the request then does follows from the state it finds. -/
theorem requestParcelsComplete : Obligations.RequestParcelsComplete := by
  unfold Obligations.RequestParcelsComplete
  refine ⟨?decrement, ?signal, ?call, fun s k q hl => ⟨congrArg Host.Outcome.next (takeType_lockstep hl k q 1),
    congrArg Host.Outcome.next (takeType_lockstep hl k q 2), congrArg Host.Outcome.next (takeType_lockstep hl k q 3)⟩⟩
  case decrement =>
    rintro s _ k q n c cnt p h hf rfl hb
    have judged {t : State} := takeType_request (t := t) h (accepts_of_fresh hf) (parcelHere_decrement hb)
    exact ⟨fun hs ht hv hn => congrArg Host.Outcome.next (judged (decJudge_resident hs ht hv hn)),
      fun hs hl => congrArg Host.Outcome.next (judged (decJudge_away hs hl))⟩
  case signal =>
    rintro s _ k q v op c amt o p h hf rfl hb ht ho
    exact congrArg Host.Outcome.next (takeType_req h (accepts_of_fresh hf) (parcelHere_signal hb ht ho))
  case call =>
    rintro s w _ _ k q x rows rb l g ep e blk p h hh hf hw hb hr he rfl rfl
    have taken : s.accepts p w := hw ▸ accepts_of_fresh hf
    have waits (ht : w.tryCall p x = (w.readyCall (w.nextCall e), true)) :=
      takeType_waits h hh hb ((parcelTests_request h taken).trans ((parcelHere_call hb).trans ht)) ((readyCall_serving _ _).trans he)
    refine ⟨fun free first => ?free, fun busy => congrArg Host.Outcome.next (waits (tryCall_slotBusy hr he busy))⟩
    case free =>
      split
      next t hs =>
        exact congrArg Host.Outcome.next (takeType_req h taken ((parcelHere_call hb).trans (tryCall_served hr he free first hs)))
      next hs => exact congrArg Host.Outcome.next (waits (tryCall_noRoom hr he free first hs))

/-! ### RETURN and control parcels (R124, R308, R315, R318) -/

section
variable {s u : State} {k l g ep off : Nat} {p : Parcel} {data : List Byte}

theorem parcelHere_ret (hb : p.body = .ret l g ep off data) : s.parcelHere k p = (s.takeReturn l g ep off data, false) := by
  simp only [State.parcelHere, hb]

theorem parcelHere_ack {n st why : Nat} (hb : p.body = .ack n st why) : s.parcelHere k p = (s.takeAck p n st why, false) := by
  simp only [State.parcelHere, hb]

theorem parcelHere_hello {far lo hi sys : Nat} {seen : Bool} {cr : List Nat} (hb : p.body = .hello far seen lo hi sys cr) :
    s.parcelHere k p = (s.takeHello k p far seen lo hi sys cr, false) := by
  simp only [State.parcelHere, hb]

theorem parcelHere_beat {v : Nat} (hb : p.body = .beat v) : s.parcelHere k p = (s.takeBeat k v, false) := by
  simp only [State.parcelHere, hb]

theorem parcelHere_cutMarker {id : Nat} (hb : p.body = .cutMarker id) : s.parcelHere k p = (s.takeMarker k id, false) := by
  simp only [State.parcelHere, hb]

/-- The landing entry has the bytes below `upto`, and is filled where they are all it expects. -/
def State.landed (s : State) (l upto expect : Nat) : State :=
  s.updLanding l fun y => { y with
    received := upto, st := if upto = expect then .filled else y.st, leftAt := if upto = expect then s.now else y.leftAt }

/-- The roster of a sequence's entry wakes once the entry is filled. -/
def State.wakeOwner (s : State) (o : LandOwner) (full : Prop) [Decidable full] : State :=
  match o with
  | .sequence r _ _ => if full then s.wakeRoster r else s
  | _ => s

/-- A RETURN of the entry's GEN and epoch that goes on where the last one ended, within EXPECT, is written. -/
theorem takeReturn_inOrder (hs : (s.landing l).st = .isOpen) (hg : (s.landing l).gen.toNat = g) (he : (s.landing l).epoch = ep)
    (hr : (s.landing l).received = off) (h0 : 0 < data.length) (hx : off + data.length ≤ (s.landing l).expect)
    (hw : s.writeBytes (ctxSpace (s.landing l).ctx) ((s.landing l).base + off) data = some u) :
    s.takeReturn l g ep off data = (u.landed l (off + data.length) (s.landing l).expect).wakeOwner (s.landing l).owner
      (off + data.length = (s.landing l).expect) := by
  have new : ¬ off + data.length ≤ off := by omega
  have within : ¬ (s.landing l).expect < off + data.length := by omega
  have full : decide ((s.landing l).expect ≤ off + data.length) = decide (off + data.length = (s.landing l).expect) :=
    decide_eq_decide.2 (by omega)
  simp only [State.takeReturn, hs, hg, he, hr, hw, new, within, full, ne_eq, not_true_eq_false, decide_false, Bool.false_eq_true, and_false,
    Nat.lt_irrefl, Nat.sub_self, List.drop_zero, reduceCtorEq, or_self, if_false, decide_eq_true_eq]
  rfl

theorem takeAck_unknown {n : Nat} (h : s.unanswered p.src n = none) (st why : Nat) : s.takeAck p n st why = s := by
  simp only [State.takeAck, h]

theorem takeAck_answers {n : Nat} {x : Unanswered} (h : s.unanswered p.src n = some x) (st why : Nat) :
    s.takeAck p n st why = (s.dropUnanswered x).answered x st why := by
  simp only [State.takeAck, h]

/-- A BEAT of the port that counts, on a READY chip and within the window, waits for its delay. -/
theorem takeBeat_inWindow (hs : s.beatSource = 2) (hp : s.beatPort = some k) (hr : s.ready = true)
    (early : s.beatPeriod ≤ s.beatTick + s.beatWindow) (late : s.beatTick ≤ s.beatPeriod + s.beatWindow) (v : Nat) :
    s.takeBeat k v = { s with tb := { s.tb with remote := some v, remoteAt := s.now } } := by
  simp only [State.takeBeat, hs, hp, hr, Nat.not_lt.2 early, late, and_self, if_false, if_true]

/-- Only a stop in SNAPPED takes a marker out of its turn. -/
theorem markerReceive_running {q : Nat} (h : s.ob.stop ≠ .snapped) : s.markerReceive k q = s.takeType k q 0x12 := if_neg h

/-- While SNAPPED the marker of the taken Snap closes its port's cut. -/
theorem markerReceive_snapped {q id : Nat} {bs : List RxBlock} (hs : s.ob.stop = .snapped)
    (hd : dropMarkers (tget [] (s.port k).rx q) = some (id, bs)) (hi : id = s.fld ⟨.snapLast, 0, 0⟩ 0 32)
    (hc : ((s.updPort k fun x => { x with rx := tput [] x.rx q bs }).port k).cut = 4) :
    s.markerReceive k q =
      ((s.updPort k fun x => { x with rx := tput [] x.rx q bs }).updPort k fun x => { x with cut := 1, inCut := false }).cutCheck := by
  simp only [State.markerReceive, if_pos hs, hd]
  exact if_pos ⟨hi, hc⟩

end

/-- Settles O25: the parcel passes the port's tests, and its type says what its body does in the state it then finds. -/
theorem parcelsTakeEffect : Obligations.ParcelsTakeEffect := by
  unfold Obligations.ParcelsTakeEffect
  refine ⟨?decrement, ?signal, ?call, ?ret, ?ack, ?hello, ?beat, ?marker, ?cut⟩
  case decrement =>
    intro s u k q n c cnt p h ha hb hs ht hv hn
    exact congrArg Host.Outcome.next (takeType_request h ha (parcelHere_decrement hb) (decJudge_resident hs ht hv hn))
  case signal =>
    intro s u k q v op c amt o p h ha hb ht ho
    have known : sigOp op amt = some o := by obtain ⟨rfl, rfl⟩ | ⟨rfl, rfl⟩ | ⟨rfl, rfl⟩ := ho <;> rfl
    exact congrArg Host.Outcome.next (takeType_req h ha (parcelHere_signal hb ht known))
  case call =>
    intro s u t k q x rows rb l g ep e p h ha hb hr he hbusy hw hs
    have ready := readyCall_free hbusy
    have served : u.tryCall p x = (t, false) := tryCall_served hr he (ready.symm ▸ hbusy) (ready.symm ▸ hw) (ready.symm ▸ hs)
    exact congrArg Host.Outcome.next (takeType_req h ha ((parcelHere_call hb).trans served))
  case ret =>
    rintro s u _ k q l g ep off _ data p _ h hb rfl rfl hs hg he hr h0 hx hw rfl
    exact congrArg Host.Outcome.next (takeType_answer h (by decide) (parcelHere_ret hb)
      (takeReturn_inOrder (s := s.bump (gcnt 7) 1) hs hg he hr h0 hx hw))
  case ack =>
    intro s k q n st why p h hb
    have acked {t : State} := takeType_answer (t := t) h (by decide) (parcelHere_ack hb)
    cases hu : s.unanswered p.src n with
    | none => exact congrArg Host.Outcome.next (acked (takeAck_unknown (s := s.bump (gcnt 7) 1) hu st why))
    | some x => exact congrArg Host.Outcome.next (acked (takeAck_answers (s := s.bump (gcnt 7) 1) hu st why))
  case hello =>
    intro s k q far lo hi sys seen cr p h hb
    exact congrArg Host.Outcome.next (takeType_answer h (by decide) (parcelHere_hello hb) rfl)
  case beat =>
    rintro s _ k q v p h hb rfl hs hp hr early late
    exact congrArg Host.Outcome.next (takeType_answer h (by decide) (parcelHere_beat hb) (takeBeat_inWindow hs hp hr early late v))
  case marker =>
    intro s k q id p h hb hs hn
    exact congrArg Host.Outcome.next ((markerReceive_running hs).trans
      (takeType_answer h (by decide) (parcelHere_cutMarker hb) (if_pos hn)))
  case cut =>
    rintro s _ k q id bs hs hd rfl hi hc
    exact congrArg Host.Outcome.next (markerReceive_snapped hs hd hi hc)

/-! ### Context registers (R36, R259 to R261, R266, R345) -/

section
variable {s w t : State} {who : Requester} {r : Reg} {c : Nat} {v : BitVec 64}

@[simp] theorem State.plainWrite_ctx (r : Reg) (v : BitVec 64) (c : Nat) : (s.plainWrite r v).ctx c = s.ctx c := rfl

/-- There are 512 of each register of a context. -/
theorem winReg_valid (edges : Bool) (hc : c < 512) : Reg.valid ⟨winReg edges, c, 0⟩ = true := by
  cases edges <;> exact Reg.valid_iff.2 ⟨hc, by decide⟩

theorem winReg_ne_aperture (edges : Bool) : winReg edges ≠ .aperture := by cases edges <;> decide

theorem writeReg_winReg (edges : Bool) : s.writeReg who ⟨winReg edges, c, 0⟩ v = s.writeWindow edges c v := by
  cases edges <;> rfl

theorem ctxCtrl_valid (hc : c < 512) : Reg.valid ⟨.ctxCtrl, c, 0⟩ = true := Reg.valid_iff.2 ⟨hc, by decide⟩

/-- An admitted write that leaves the Observation Unit alone is its effect: no write is held from SNAPPED. -/
theorem regIn_settled (h : s.admits r w) (hv : r.valid = true) (ha : r.name ≠ .aperture) (ht : w.writeReg who r v = t) (ho : t.ob = w.ob) :
    s.regIn who r v = t := by
  rw [regIn_admits h hv ha, ht, flushSnap_nil (ho ▸ h.held)]

theorem writeCtxCtrl_save (hx : bit v 8 = true) (h9 : bit v 9 = false) (h10 : bit v 10 = false) (hs : (s.ctx c).st = .resident) :
    s.writeCtxCtrl c v = (s.plainWrite ⟨.ctxCtrl, c, 0⟩ v).startSave c (bit v 16) false := by
  simp only [State.writeCtxCtrl, hx, h9, h10, if_pos hs]

theorem writeCtxCtrl_restore (hx : bit v 9 = true) (h8 : bit v 8 = false) (h10 : bit v 10 = false) (hs : (s.ctx c).st = .saved) :
    s.writeCtxCtrl c v = (s.plainWrite ⟨.ctxCtrl, c, 0⟩ v).startRestore c := by
  simp only [State.writeCtxCtrl, hx, h8, h10, if_pos hs]

theorem writeCtxCtrl_rearm (hx : bit v 10 = true) (h8 : bit v 8 = false) (h9 : bit v 9 = false) (hs : (s.ctx c).st = .faulted)
    (ht : (s.ctx c).torn = true) (hr : s.residents < 64) :
    s.writeCtxCtrl c v = (s.plainWrite ⟨.ctxCtrl, c, 0⟩ v).rearmCtx c := by
  simp only [State.writeCtxCtrl, hx, h8, h9]
  exact if_pos ⟨hs, ht, hr⟩

/-- A context that has lost its last window returns to UNUSED. -/
def State.dropUnused (s : State) (c : Nat) : State :=
  if ¬ s.nodesValid c ∧ ¬ s.edgesValid c ∧ ((s.ctx c).st = .resident ∨ ((s.ctx c).st = .faulted ∧ (s.ctx c).torn)) then s.toUnused c
  else s

theorem State.dropUnused_ob : (s.dropUnused c).ob = s.ob := by
  unfold State.dropUnused
  split <;> rfl

section
variable {edges : Bool}

/-- A good window made VALID is stored; the first node window makes the context RESIDENT. -/
theorem writeWindow_validate (hv : bit v 31 = true) (hc : bit (s.reg ⟨winReg edges, c, 0⟩) 31 = false)
    (ho : s.winOk edges c (bits v 0 10) (bits v 16 11) = true) :
    s.writeWindow edges c v =
      if edges = false ∧ (s.ctx c).st = .unused then
        (s.plainWrite ⟨winReg edges, c, 0⟩ v).updCtx c fun y => { y with st := .resident }
      else (s.plainWrite ⟨winReg edges, c, 0⟩ v).dropUnused c := by
  simp [State.writeWindow, State.dropUnused, hv, hc, ho]

/-- VALID is taken back from a window without nodes by a write of the same BASE and COUNT. -/
theorem writeWindow_invalidate (hv : bit v 31 = false) (hc : bit (s.reg ⟨winReg edges, c, 0⟩) 31 = true)
    (hb : bits (s.reg ⟨winReg edges, c, 0⟩) 0 10 = bits v 0 10) (hn : bits (s.reg ⟨winReg edges, c, 0⟩) 16 11 = bits v 16 11)
    (he : s.ctxNodes c = []) :
    s.writeWindow edges c v = (s.plainWrite ⟨winReg edges, c, 0⟩ v).dropUnused c := by
  simp [State.writeWindow, State.dropUnused, hv, hc, hb, hn, he]

end
end

/-- Settles O4: an admitted write does what its register's write does, and that follows from the bits written and the state. -/
theorem contextRegisterWrites : Obligations.ContextRegisterWrites := by
  unfold Obligations.ContextRegisterWrites
  refine ⟨?save, ?restore, ?rearm, ?validate, ?invalidate, ?binding⟩
  case save =>
    rintro s w who c v _ h hc rfl h9 h10 hs
    have := writeCtxCtrl_save (bit_setBit_self _ _ _ (by decide)) h9 h10 hs
    exact congrArg Host.Outcome.next ((regIn_admits h (ctxCtrl_valid hc) nofun who _).trans (congrArg State.flushSnap this))
  case restore =>
    rintro s w who c v _ h hc rfl h8 h10 hs
    have := writeCtxCtrl_restore (bit_setBit_self _ _ _ (by decide)) h8 h10 hs
    exact congrArg Host.Outcome.next ((regIn_admits h (ctxCtrl_valid hc) nofun who _).trans (congrArg State.flushSnap this))
  case rearm =>
    rintro s w _ who c v _ h hc rfl h8 h9 hs ht hr rfl
    have := writeCtxCtrl_rearm (bit_setBit_self _ _ _ (by decide)) h8 h9 hs ht hr
    exact congrArg Host.Outcome.next (regIn_settled h (ctxCtrl_valid hc) nofun this rfl)
  case validate =>
    rintro s w _ who edges c v h hc hv hcur ho rfl
    have := (writeReg_winReg (who := who) edges).trans (writeWindow_validate hv hcur ho)
    refine congrArg Host.Outcome.next (regIn_settled h (winReg_valid edges hc) (winReg_ne_aperture edges) this ?ob)
    split
    next => rfl
    next => exact State.dropUnused_ob
  case invalidate =>
    rintro s w _ who edges c v h hc hv hcur hb hn he rfl
    have := (writeReg_winReg (who := who) edges).trans (writeWindow_invalidate hv hcur hb hn he)
    exact congrArg Host.Outcome.next (regIn_settled h (winReg_valid edges hc) (winReg_ne_aperture edges) this State.dropUnused_ob)
  case binding =>
    intro s w who c v h hc
    exact congrArg Host.Outcome.next (regIn_admits h (Reg.valid_iff.2 ⟨hc, by decide⟩) nofun who v)

/-! ### Descriptors at the head of the fetch buffer (R54, R56, R138 to R140, R174 to R179) -/

section
variable {s t : State} {n : Nat} {d : RingDesc}

/-- The command `seq` of slot `n` has had its descriptor applied. -/
def State.setApplied (s : State) (n seq : Nat) : State := s.updCmd n seq fun x => { x with applied := true }

theorem nop_heads {e : Entry} {rest : List Entry} {bs : List Byte} (hb : (s.slot n).buf = e :: rest) (he : e.bytes = some bs)
    (h0 : (RingDesc.ofBytes bs).opcode = 0) (ho : s.headOpen n (RingDesc.ofBytes bs) = true) (hl : s.live 0 = true) :
    s.nop n = (s.popHead n).settleHead n := by
  simp only [State.nop, hb, he]
  exact if_pos ⟨h0, ho, State.live_iff.1 hl⟩

/-- A graph whose arrays are read and which the Graph Store accepts is applied to its command. -/
theorem applyFor_accepted {q : Nat × Nat} {g : List (List Byte) × List (BitVec 32)} (hg : (s.noteArrays n d).fetchArrays n d = some g)
    (ht : (s.noteArrays n d).applyGraph ((s.noteArrays n d).graphOf n d q g) = .ok t) :
    s.applyFor n d q = (t.setApplied q.1 q.2).settle := by
  simp only [State.applyFor, hg, ht]
  rfl

theorem launchGraph_heads (h : s.heads n 1 d) :
    s.launchGraph n = ((s.taken n d).applyFor n d (n, (s.slot n).nextSeq.toNat)).settleHead n := takeDesc_heads h _

/-- APPEND_NODES opens no command: its graph is applied to the open one it names. -/
theorem appendNodes_heads {c : Cmd} (h : s.heads n 2 d) (hc : (s.popHead n).cmd d.cmdSlot d.cmdSeq = some c) :
    s.appendNodes n = ((s.popHead n).applyFor n d (d.cmdSlot, d.cmdSeq)).settleHead n := by
  simp only [State.appendNodes, takeDesc_heads h, if_true, hc, Option.isSome_some]

theorem templateRelease_heads (h : s.heads n 3 d) :
    s.templateRelease n = ((s.taken n d).releaseRange n d (s.slot n).nextSeq.toNat).settleHead n := takeDesc_heads h _

theorem releaseRange_templates {seq : Nat} (hv : s.nodesValid d.ctx = true) (hw : d.w10 + d.w14 ≤ s.nodeWin d.ctx)
    (ht : ∀ j, j < d.w14 → (s.node (nk d.ctx (d.w10 + j))).st = .template) :
    s.releaseRange n d seq =
      (s.each ((List.range d.w14).map fun j => nk d.ctx (d.w10 + j)) fun t k => t.setNode k {}).setApplied n seq := by
  have allTemplates : ((List.range d.w14).map fun j => nk d.ctx (d.w10 + j)).find? (fun k => decide ((s.node k).st ≠ .template)) = none := by
    simpa using ht
  simp only [State.releaseRange, allTemplates, hv, Nat.not_lt.2 hw, not_true_eq_false, or_self, if_false]
  rfl

/-- The state in which the records of a roster's descriptor are read (R331). -/
def State.noteRecords (s : State) (n : Nat) (d : RingDesc) : State := s.noteHost (s.arraySpace n d) d.addr

/-- The records of a roster's descriptor are read, and each is applied in order. -/
theorem rosterDesc_read {op size : Nat} {f : State → Nat → Nat → List Byte → State} {bs : List Byte} (h : s.heads n op d) (ho : op ≠ 2)
    (hr : ((s.taken n d).noteRecords n d).readBytes ((s.taken n d).arraySpace n d) d.addr (size * d.w10) = some bs) :
    s.rosterDesc n op size f =
      ((((s.taken n d).noteRecords n d).each (chunks size d.w10 bs) fun t r => f t (d.w14 % 16) d.ctx r).setApplied n
        (s.slot n).nextSeq.toNat).settleHead n := by
  unfold State.noteRecords at hr
  simp only [State.rosterDesc, takeDesc_heads h, if_neg ho, hr]
  rfl

end

/-- Settles O14: the head is taken, and its descriptor is applied to the state that its taking leaves. -/
theorem descriptorsApplied : Obligations.DescriptorsApplied := by
  unfold Obligations.DescriptorsApplied
  refine ⟨fun s n e rest bs hb he h0 ho hl => congrArg Host.Outcome.next (nop_heads hb he h0 ho hl),
    ?launch, ?append, ?release, ?rosterAdmit, ?rosterExtend, ?rosterFold, ?foldCommand, ?report⟩
  case launch =>
    rintro s _ t n d g h hh rfl hg ht
    have := (launchGraph_heads h).trans (congrArg (State.settleHead · n) (applyFor_accepted hg ht))
    exact congrArg Host.Outcome.next ((viaHostAt_now hh _ _).trans this)
  case append =>
    rintro s _ t n d g c h hh hc rfl hg ht
    have := (appendNodes_heads h hc).trans (congrArg (State.settleHead · n) (applyFor_accepted hg ht))
    exact congrArg Host.Outcome.next ((viaHostAt_now hh _ _).trans this)
  case release =>
    rintro s _ n d h rfl hv hw ht
    exact congrArg Host.Outcome.next
      ((templateRelease_heads h).trans (congrArg (State.settleHead · n) (releaseRange_templates hv hw ht)))
  case rosterAdmit =>
    rintro s _ n d bs h hh rfl hr
    exact congrArg Host.Outcome.next ((viaHostAt_now hh _ _).trans (rosterDesc_read h (by decide) hr))
  case rosterExtend =>
    rintro s _ n d bs h hh rfl hr
    exact congrArg Host.Outcome.next ((viaHostAt_now hh _ _).trans (rosterDesc_read h (by decide) hr))
  case rosterFold =>
    rintro s _ n d bs h hh rfl hr
    exact congrArg Host.Outcome.next ((viaHostAt_now hh _ _).trans (rosterDesc_read h (by decide) hr))
  case foldCommand =>
    rintro s _ n d h rfl
    exact congrArg Host.Outcome.next (takeDesc_heads h _)
  case report =>
    rintro s _ n d h rfl
    exact congrArg Host.Outcome.next (takeDesc_heads h _)

/-! ### Retirement, waiting records and the watchdog (R57, R181 to R184, R193) -/

section
variable {s t : State} {n seq : Nat} {x : Cmd}

/-- A command that is applied and settled retires, in a slot and a context that are neither ending nor saved. -/
theorem commandRetire_settled (hc : s.cmd n seq = some x) (ha : x.applied = true) (ho : x.owesPacket = false)
    (hd : (s.slot n).st ≠ .destroying) (ht : s.tearing x.ctx = false) (hw : s.away x.ctx = false) (hs : s.cmdSettled n seq = true)
    (hr : s.runs 0 = true) : s.commandRetire n seq = (s.retire n seq).settleHead n := by
  simp only [State.commandRetire, hc]
  exact if_pos ⟨ha, by simp [ho], hd, by simp [ht], by simp [hw], hs, hr⟩

/-- What the retirement of command `x` leaves before its notice and its record. -/
def State.retired (s : State) (n seq : Nat) (x : Cmd) : State :=
  if ((s.freeCmd n seq).bump (gcnt 13) 1).cmdsOfCtx x.ctx = [] then ((s.freeCmd n seq).bump (gcnt 13) 1).unblockIdle x.ctx
  else (s.freeCmd n seq).bump (gcnt 13) 1

/-- The status and the cause that a command ends with. -/
def Cmd.outcome (x : Cmd) : Nat × Nat := x.ending.getD (stOK, 0)

/-- A notice is kept for IRQ or a bad status. -/
def State.noteEnd (s : State) (n seq : Nat) (x : Cmd) : State :=
  if x.outcome.1 ≠ stOK ∨ x.dflags.testBit 1 = true then
    s.updSlot n fun y => { y with notes := y.notes ++ [(seq, decide (x.outcome.1 ≠ stOK))] }
  else s

/-- The record of command `x` of number `seq`. -/
def Cmd.record (x : Cmd) (seq : Nat) : CplRec := {
  seq := seq, user := x.user, status := x.outcome.1, opcode := x.opcode, cause := x.outcome.2, folded := x.folded,
  drained := min x.drained 65535, killed := min x.killed 65535, ctx := x.ctx }

/-- Its record is filed for RECORD or a bad status. -/
def State.fileEnd (s : State) (n seq : Nat) (x : Cmd) : State :=
  if x.outcome.1 ≠ stOK ∨ x.dflags.testBit 2 = true then s.fileRecord n (x.record seq) else s

/-- Where no START latch record was written, none is written at the END (R397). -/
theorem retire_unlatched (hc : s.cmd n seq = some x) (hl : x.startLatched = false) :
    s.retire n seq = (((s.retired n seq x).noteEnd n seq x).fileEnd n seq x).advanceDone n := by
  simp only [State.retire, hc, hl, Bool.false_eq_true, if_false, decide_eq_true_eq]
  rfl

section
variable {r : CplRec} {rest : List CplRec}

/-- A record that is written at CPL_WR advances it. -/
theorem putRecord_written (h : s.slotWrite n (bits (s.reg ⟨.slotCpl, n, 0⟩) 6 58 * 64 +
      (s.reg ⟨.slotCplWr, n, 0⟩).toNat % s.cplSize n * 32) (r.bytes n) = (t, true)) :
    s.putRecord n r = t.setReg ⟨.slotCplWr, n, 0⟩ (BitVec.ofNat 64 (((s.reg ⟨.slotCplWr, n, 0⟩).toNat + 1) % 2 ^ 32)) := by
  simp only [State.putRecord, h, if_true]

theorem recordWrite_room (hw : (s.slot n).waiting = r :: rest) (hf : s.cplFull n = false) (hr : s.runs 0 = true) :
    s.recordWrite n = (let u := (s.updSlot n fun x => { x with waiting := rest }).putRecord n r
      if r.destroyed then u.destroyEnd n else u.advanceDone n) := by
  simp only [State.recordWrite, hw, hf, hr, Bool.false_eq_true, not_true_eq_false, or_self, if_false]

end

theorem watchdog_expired (hc : s.cmd n seq = some x) (ha : s.fld ⟨.cmdLimit, 0, 0⟩ 0 32 < x.age) (he : x.ending = none)
    (hs : (s.ctx x.ctx).st = .resident) (hr : s.runs 0 = true) (ht : s.timersOn = true) :
    s.watchdog n seq = (s.report {
      typ := 0x14, status := stWATCHDOG, source := 0x8000, ctx := some x.ctx,
      body := [seq, n + x.age % 2 ^ 56 * 2 ^ 8] }).endCmd n seq stWATCHDOG 0 := by
  simp only [State.watchdog, hc]
  exact if_pos ⟨ha, he, hs, hr, ht⟩

end

/-! ### INDIRECT pointers and departing tiles (R186, R250) -/

section
variable {s : State}

/-- A 256-byte-aligned pointer that can be read is kept with its node. -/
theorem pointerRead_aligned {c i p : Nat} (hs : (s.node (nk c i)).st = .ready) (hi : (s.node (nk c i)).indirect = true)
    (hp : (s.node (nk c i)).ptr = none) (hk : (s.node (nk c i)).d.kind = .task ∨ (s.node (nk c i)).d.kind = .sprout)
    (hr : s.runs 1 = true)
    (hw : (s.noteHost (ctxSpace (s.node (nk c i)).ptrCtx) (s.node (nk c i)).d.b.toNat).readWord (ctxSpace (s.node (nk c i)).ptrCtx)
      (s.node (nk c i)).d.b.toNat 8 = some p) (ha : p % 256 = 0) :
    s.pointerRead c i = (s.noteHost (ctxSpace (s.node (nk c i)).ptrCtx) (s.node (nk c i)).d.b.toNat).updNode (nk c i) fun n =>
      { n with ptr := some (BitVec.ofNat 64 p) } := by
  refine (if_pos ⟨hs, hi, hp, hk, hr⟩).trans ?_
  simp only [hw]
  exact if_neg (not_not_intro ha)

theorem tileDeparted_idle {i : Nat} (hb : bit (s.reg ⟨.tileOwner, i, 0⟩) 5 = true) (hi : s.tileIdle i = true) :
    s.tileDeparted i = s.setReg ⟨.tileOwner, i, 0⟩ (setBit (s.reg ⟨.tileOwner, i, 0⟩) 5 false) := if_pos ⟨hb, hi⟩

end

/-- Settles O15: each command of the hub finds its guard met, and retirement is the freeing, the notice, the record and DONE_SEQ. -/
theorem commandsRetireAndPointersResolve : Obligations.CommandsRetireAndPointersResolve := by
  unfold Obligations.CommandsRetireAndPointersResolve
  refine ⟨?retire, ?record, fun s n seq x hc ha he hs hr ht => congrArg Host.Outcome.next (watchdog_expired hc ha he hs hr ht), ?pointer,
    fun s i hb hi => congrArg Host.Outcome.next (tileDeparted_idle hb hi)⟩
  case retire =>
    rintro s _ _ _ n seq x _ hc ha ho hd ht hw hs hr hl rfl rfl rfl rfl
    exact congrArg Host.Outcome.next
      ((commandRetire_settled hc ha ho hd ht hw hs hr).trans (congrArg (State.settleHead · n) (retire_unlatched hc hl)))
  case record =>
    intro s t n r rest hw hf hr ht
    have put : (s.updSlot n fun x => { x with waiting := rest }).putRecord n r = _ := putRecord_written ht
    exact congrArg Host.Outcome.next ((recordWrite_room hw hf hr).trans (by rw [put]; rfl))
  case pointer =>
    rintro s _ c i p hs hi hp hk hr hh rfl hw ha
    exact congrArg Host.Outcome.next ((viaHost_now hh _ _).trans (pointerRead_aligned hs hi hp hk hr hw ha))

/-! ### SIGNAL and WAIT nodes, and waiter records (R43, R212, R216) -/

section
variable {s t : State} {k : Nat}

/-- Node `k` becomes ACTIVE in the unit that carries it out. -/
def State.activate (s : State) (k : Nat) : State := s.updNode k fun n => { n with st := .active, startedAt := s.now, place := .unit }

/-- The operation of a SIGNAL node, by its OP. -/
def Desc.signalOp (d : Desc) : SyncOp :=
  if d.op = 0 then .set else if d.op = 1 then .clear else if d.op = 2 then .advance d.amount else .release

theorem signalNode_ready (hs : (s.node k).st = .ready) (hk : (s.node k).d.kind = .signal) (hr : s.runs 3 = true) :
    s.signalNode k = (s.activate k).syncOp {
      src := .node k, vid := (s.node k).d.syncId, scope := (s.node k).d.scope, op := (s.node k).d.signalOp } := by
  refine (if_pos ⟨hs, hk, hr⟩).trans ?_
  unfold Desc.signalOp
  split
  next h => simp only [h, if_true]; rfl
  next h => simp [h]; rfl
  next h => simp [h]; rfl
  next h0 h1 h2 => rw [if_neg h0, if_neg h1, if_neg h2]; rfl

theorem waitRegister_ready (hs : (s.node k).st = .ready) (hk : (s.node k).d.kind = .wait) (hr : s.runs 3 = true)
    (hh : s.saveHolds k = false) : s.waitRegister k = (s.activate k).syncOp (s.waitReq k) :=
  if_pos ⟨hs, hk, hr, by simp [hh]⟩

/-- The wait of the node that has waited longest for a record is judged with the entry it found when it arrived. -/
def State.judgeWait (s : State) (k : Nat) (w : BitVec 64) : State :=
  match s.entryCause (s.waitReq k) w with
  | some cause => s.syncFail (s.waitReq k) cause
  | none => s.applyOp (entryKey w) (s.waitReq k) w

theorem recordGrant_room {w : BitVec 64} {rest : List (Nat × BitVec 64)} (hw : s.sy.recWait = (k, w) :: rest)
    (hn : s.nodeRecords < 126816) (hr : s.runs 3 = true) :
    s.recordGrant = { s.judgeWait k w with sy := { (s.judgeWait k w).sy with
      recWait := (s.judgeWait k w).sy.recWait.filter fun x => decide (x.1 ≠ k) } } := by
  simp only [State.recordGrant, hw]
  exact if_pos ⟨hn, hr⟩

end

/-! ### Translations (R204, R214) -/

section
variable {s t : State} {c v w : Nat}

/-- The request waits for the translation of VID `v` of context `c`. -/
def SyncReq.awaits (c v : Nat) (q : SyncReq) : Bool := decide (q.src.ctx = c) && decide (q.vid = v)

/-- The requests that wait for a translation, in the order of R214. -/
def State.awaiting (s : State) (c v : Nat) : List SyncReq :=
  sortBy (fun x y => decide (s.reqRank x ≤ s.reqRank y)) (s.sy.xlatWait.filter (SyncReq.awaits c v))

/-- They no longer wait. -/
def State.dropAwaiting (s : State) (c v : Nat) : State :=
  { s with sy := { s.sy with xlatWait := s.sy.xlatWait.filter fun q => !SyncReq.awaits c v q } }

/-- A VALID entry is cached in place of an older copy; the oldest of 8192 is evicted (DESIGN CHOICE, log entry 61). -/
def State.cacheEntry (s : State) (c v : Nat) (w : BitVec 64) : State :=
  if bit w 63 then
    { s with sy := { s.sy with cache := ((c, v, w) :: s.sy.cache.filter fun x => !(decide (x.1 = c) && decide (x.2.1 = v))).take 8192 } }
  else s

section
variable (hq : s.awaiting c v ≠ []) (hr : s.runs 3 = true)
include hq hr

theorem xlatFill_read (hv : v < s.fld ⟨.xlatLimit, c, 0⟩ 0 25)
    (ht : t = (s.dropAwaiting c v).noteHost (ctxSpace c) ((s.reg ⟨.xlatBase, c, 0⟩).toNat + 8 * v))
    (hw : t.readWord (ctxSpace c) ((s.reg ⟨.xlatBase, c, 0⟩).toNat + 8 * v) 8 = some w) :
    s.xlatFill c v = (t.cacheEntry c v (BitVec.ofNat 64 w)).each (s.awaiting c v) fun u q => u.withEntry q (BitVec.ofNat 64 w) := by
  subst ht
  have go : ¬ (s.awaiting c v = [] ∨ ¬ s.runs 3 = true) := by simp [hq, hr]
  refine (if_neg go).trans ((if_neg (Nat.not_le.2 hv)).trans ?_)
  unfold State.dropAwaiting SyncReq.awaits at hw
  simp only [hw]
  rfl

theorem xlatFill_pastLimit (hv : s.fld ⟨.xlatLimit, c, 0⟩ 0 25 ≤ v) :
    s.xlatFill c v = (s.dropAwaiting c v).each (s.awaiting c v) fun u q => u.syncFail q 0x50 := by
  have go : ¬ (s.awaiting c v = [] ∨ ¬ s.runs 3 = true) := by simp [hq, hr]
  exact (if_neg go).trans (if_pos hv)

end

/-- Invalidating names a VID of the context, or all of them. -/
theorem xlatInvEnd_named {i : Option Nat} (hi : s.sy.inv = some (c, i)) (hr : s.runs 3 = true) :
    s.xlatInvEnd = { s with sy := { s.sy with
      inv := none, cache := s.sy.cache.filter fun x => !(decide (x.1 = c) && decide (∀ j, i = some j → x.2.1 = j)) } } := by
  simp only [State.xlatInvEnd, hi]
  refine (if_pos hr).trans ?_
  cases i <;> simp

end

/-! ### The end of a dump, and side caches (R227, R241) -/

section
variable {s t : State} {e : Nat}

theorem syDumpEnd_written (hb : s.sy.dumpBusy = true) (hw : s.writeBytes devSpace s.sy.dumpAt s.sy.dumpHeader = some t) :
    s.syDumpEnd = { t with sy := { t.sy with dumpBusy := false, dumpAt := 0, dumpHeader := [] } } := by
  refine (if_pos hb).trans ?_
  simp only [hw, Option.getD_some]

theorem invalRequest_aligned {addr len : Nat} (hj : (s.eng e).job.isSome = true) (hi : (s.eng e).inval = false) (ha : addr % 64 = 0)
    (h1 : 1 ≤ len) (hl : len ≤ 2 ^ 24) (hr : s.runs 2 = true) :
    s.invalRequest e addr len =
      if isLE e then (s.updEng e fun x => { x with inval := true }).emit (.inval e addr len)
      else ((s.updEng e fun x => { x with inval := true }).emit (.inval e addr len)).bump ⟨.dlInvals, engRegion e, 0⟩ 1 :=
  if_pos ⟨hj, by simp [hi], ha, h1, hl, hr⟩

theorem invalEnd_open (hi : (s.eng e).inval = true) (hr : s.runs 2 = true) :
    s.invalEnd e = (s.updEng e fun x => { x with inval := false }).emit (.invalAnswer e) := if_pos ⟨hi, hr⟩

end

/-- Settles O18: a node or a request meets its unit's guard, and each translation goes to those that wait for it. -/
theorem syncNodesTranslationsAndInvalidations : Obligations.SyncNodesTranslationsAndInvalidations := by
  unfold Obligations.SyncNodesTranslationsAndInvalidations
  refine ⟨?signal, ?wait, ?grant, ?fill, ?past, fun s c v hi hr => congrArg Host.Outcome.next (xlatInvEnd_named hi hr),
    fun s t hb hw => congrArg Host.Outcome.next (syDumpEnd_written hb hw),
    fun s e addr len hj hi ha h1 hl hr => congrArg Host.Outcome.next (invalRequest_aligned hj hi ha h1 hl hr),
    fun s e hi hr => congrArg Host.Outcome.next (invalEnd_open hi hr)⟩
  case signal =>
    rintro s c i _ rfl hs hk hr
    exact congrArg Host.Outcome.next (signalNode_ready hs hk hr)
  case wait =>
    rintro s c i _ rfl hs hk hr hh
    exact congrArg Host.Outcome.next (waitRegister_ready hs hk hr hh)
  case grant =>
    rintro s _ k w rest hw hn hr rfl
    exact congrArg Host.Outcome.next (recordGrant_room hw hn hr)
  case fill =>
    rintro s t c v _ w _ rfl hq hr hv rfl hh ht hw
    exact congrArg Host.Outcome.next ((viaHost_now hh _ _).trans (xlatFill_read hq hr hv ht hw))
  case past =>
    rintro s c v _ rfl hq hr hv hh
    exact congrArg Host.Outcome.next ((viaHost_now hh _ _).trans (xlatFill_pastLimit hq hr hv))

/-! ### Loops (R63, R64, R144) -/

theorem nkCtx_nk {c i : Nat} (h : i < 2 ^ 20) : nkCtx (nk c i) = c := by
  unfold nkCtx nk
  omega

section
variable {s : State} {c k t : Nat}

/-- The READY loop `k` becomes ACTIVE, and its trip word is read in the space of context `c`. -/
def State.beginLoop (s : State) (c k : Nat) : State :=
  (s.updNode k fun n => { n with st := .active, startedAt := s.now, loopEnd := false }).noteHost (ctxSpace c) (s.node k).d.t.toNat

/-- A trip word that can be read decides what the loop does. -/
theorem loopStart_read (hc : nkCtx k = c) (hs : (s.node k).st = .ready) (hk : (s.node k).d.kind = .loop) (hl : s.live 1 = true)
    (hh : s.saveHolds k = false) (hw : (s.beginLoop c k).readWord (ctxSpace c) (s.node k).d.t.toNat 4 = some t) :
    s.loopStart k =
      if t = 0 then ((s.beginLoop c k).completeLoop k).settle
      else if (s.node k).d.tripMax < t then (s.beginLoop c k).failNode k { cause := 0x0D } (sourceUnit 1)
      else (((s.beginLoop c k).updNode k fun n => { n with trip := some t }).armBody k 0).settle := by
  subst hc
  obtain ⟨hr, ho⟩ := State.live_iff.1 hl
  refine (if_pos ⟨hs, hk, hr, ho, by simp [hh]⟩).trans ?_
  unfold State.beginLoop at hw
  simp only [hw]
  rfl

theorem iterationEnd_over (ht : (s.node k).trip = some t) (hs : (s.node k).st = .active) (hk : (s.node k).d.kind = .loop)
    (hr : s.runs 1 = true) (ho : s.iterationOver k = true) :
    s.iterationEnd k = if (s.node k).iterNo + 1 < t ∧ ¬ (s.node k).loopEnd = true then (s.armBody k ((s.node k).iterNo + 1)).settle
      else (s.completeLoop k).settle := by
  simp only [State.iterationEnd, ht]
  exact if_pos ⟨hs, hk, hr, ho⟩

end

/-! ### Sprouts (R68, R69) -/

section
variable {s t : State} {c k nc ec : Nat}

/-- The graph of a sprout's buffer, placed in its reservation. -/
def State.sproutGraph (s : State) (c k : Nat) (ns : List (List Byte)) (es : List (BitVec 32)) : GraphDesc := {
  ctx := c, first := ((s.node k).res.getD (0, 0)).1, nodes := ns.map (moveEdgeBase ((s.node k).res.getD (0, 0)).2),
  efirst := ((s.node k).res.getD (0, 0)).2,
  edges := es.map fun w => setBits w 0 20 (edgeTarget w + ((s.node k).res.getD (0, 0)).1), cmd := (s.node k).cmd, sprout := some k }

/-- Where the buffer of a sprout lies. -/
def State.sproutBuffer (s : State) (k : Nat) : Nat := (s.node k).constAddr + 0x100

/-- The state in which it is read (R331). -/
def State.noteSprout (s : State) (c k : Nat) : State := s.noteHost (ctxSpace c) (s.sproutBuffer k)

section
variable {ns : List (List Byte)} {es : List (BitVec 32)} (good : ns.all sproutNodeOk = true) (edges : ns.all (sproutEdgesOk ec) = true)
  (targets : ∀ w, w ∈ es → edgeTarget w < nc)
include good edges targets

/-- Nodes of the kinds of R69, with edges of the buffer to nodes of the buffer, meet every test of R69. -/
theorem sproutArrays_good :
    ¬ (¬ ns.all sproutNodeOk = true ∨ ¬ ns.all (sproutEdgesOk ec) = true ∨ ¬ es.all (fun w => decide (edgeTarget w < nc)) = true) := by
  rintro (h | h | h)
  · exact h good
  · exact h edges
  · exact h (by simpa using targets)

/-- A completed sprout whose buffer has a good header, good nodes and good edges is applied into its reservation. -/
theorem sproutRead_good {h : List Byte} (hc : nkCtx k = c) (hs : (s.node k).st = .active) (hk : (s.node k).d.kind = .sprout)
    (hp : (s.node k).place = .unit) (hr : s.runs 1 = true)
    (hb : (s.noteSprout c k).readBytes (ctxSpace c) (s.sproutBuffer k) 16 = some h) (hh : sproutHead h = (nc, ec, 0)) (h1 : 1 ≤ nc)
    (hn : nc ≤ (s.node k).d.resNodes) (he : ec ≤ (s.node k).d.resEdges)
    (ha : (s.noteSprout c k).sproutArrays (ctxSpace c) (s.sproutBuffer k) nc ec = some (ns, es))
    (ht : (s.noteSprout c k).applyGraph (s.sproutGraph c k ns es) = .ok t) :
    s.sproutRead k = (t.updNode k fun n => { n with place := .hub }).settle := by
  subst hc
  have fits : ¬ (nc = 0 ∨ (s.node k).d.resNodes < nc ∨ (s.node k).d.resEdges < ec ∨ 0 ≠ 0) := by omega
  refine (if_pos ⟨hs, hk, hp, hr⟩).trans ?_
  unfold State.noteSprout State.sproutBuffer at hb ha ht
  unfold State.sproutGraph at ht
  simp only [hb, hh, if_neg fits, ha, if_neg (sproutArrays_good good edges targets), ht]

end
end

/-! ### REMOTE nodes and waiting instantiations (R61, R70) -/

section
variable {s : State} {c k : Nat}

/-- The REMOTE node `k` becomes ACTIVE and waits for what becomes of its decrement. -/
def State.beginRemote (s : State) (k : Nat) : State :=
  s.updNode k fun n => { n with st := .active, startedAt := s.now, place := .unit, sent := true }

theorem remoteSend_ready (hc : nkCtx k = c) (hs : (s.node k).st = .ready) (hk : (s.node k).d.kind = .remote) (hl : s.live 6 = true)
    (hh : s.saveHolds k = false) :
    s.remoteSend k = if (s.node k).d.destChip = s.chipId then
        (s.beginRemote k).decJudge {
          node := some k, slice := (s.beginRemote k).ctxTag c, ctx := (s.node k).d.destCtx, dest := (s.node k).d.destNode,
          count := (s.node k).d.count }
      else (s.beginRemote k).sendReq c (s.node k).d.destChip
        (.decrement (s.node k).d.destNode (s.node k).d.destCtx (s.node k).d.count) (.node k) := by
  subst hc
  obtain ⟨hr, ho⟩ := State.live_iff.1 hl
  exact if_pos ⟨hs, hk, hr, ho, by simp [hh]⟩

theorem dynRetry_runs (hr : s.runs 1 = true) (ha : s.away c = false) :
    s.dynRetry c = (((s.ctx c).dynWait.foldl State.dynTry s).callsFor c).foldl State.retryCall ((s.ctx c).dynWait.foldl State.dynTry s) :=
  if_neg (by simp [hr, ha])

section
variable (hw : k ∈ (s.ctx (nkCtx k)).dynWait)
include hw

theorem dynTry_anchor {r : Nat} (hk : (s.node k).d.kind = .anchor) (ht : s.trickOf k = some r) : s.dynTry k = s.instantiateTrick r := by
  simp only [State.dynTry, hw, hk, ht, not_true_eq_false, if_false, if_true]

theorem dynTry_fanout {w : FanWork} (hk : (s.node k).d.kind ≠ .anchor)
    (hf : s.gs.fanHeld.find? (fun w => decide (w.node = k)) = some w) : s.dynTry k = s.fanInstances w := by
  simp only [State.dynTry, hw, hk, hf, not_true_eq_false, if_false]

end
end

/-- Settles O29: each row finds its guard met, and what was read, the iteration's number, the destination or the kind decides. -/
theorem loopsSproutsSendsAndRetries : Obligations.LoopsSproutsSendsAndRetries := by
  unfold Obligations.LoopsSproutsSendsAndRetries
  refine ⟨?start, ?iteration, ?sprout, ?remote, ?retry, fun s k hw =>
    ⟨fun r hk ht => dynTry_anchor hw hk ht, fun w hk hf => dynTry_fanout hw hk hf⟩⟩
  case start =>
    rintro s _ c i _ t rfl hs hk hl hh hn rfl hi hw
    have start : s.viaHost _ _ (.loopStart c i) (fun s => s.loopStart (nk c i)) = _ :=
      (viaHost_now hn _ _).trans (loopStart_read (nkCtx_nk hi) hs hk hl hh hw)
    exact ⟨fun h0 => congrArg Host.Outcome.next (start.trans (if_pos h0)),
      fun h0 hm => congrArg Host.Outcome.next (start.trans ((if_neg h0).trans (if_neg (Nat.not_lt.2 hm))))⟩
  case iteration =>
    rintro s c i _ t rfl ht hs hk hr ho
    have ended := iterationEnd_over ht hs hk hr ho
    exact ⟨fun ⟨hlt, he⟩ => congrArg Host.Outcome.next (ended.trans (if_pos ⟨hlt, by simp [he]⟩)),
      fun last => congrArg Host.Outcome.next (ended.trans (if_neg fun ⟨hlt, he⟩ => last.elim (Nat.not_le.2 hlt) he))⟩
  case sprout =>
    rintro s _ t c i _ nc ec _ h ns es rfl hi hs hk hp hr rfl hn rfl hb hh h1 hnc hec ha good edges targets ht
    exact congrArg Host.Outcome.next ((viaHost_now hn _ _).trans (sproutRead_good good edges targets (nkCtx_nk hi) hs hk hp hr
      hb hh h1 hnc hec ha ht))
  case remote =>
    rintro s _ c i _ rfl hi hs hk hl hh rfl
    have send := remoteSend_ready (nkCtx_nk hi) hs hk hl hh
    exact ⟨fun far => congrArg Host.Outcome.next (send.trans (if_neg far)),
      fun here => congrArg Host.Outcome.next (send.trans (if_pos here))⟩
  case retry =>
    rintro s _ c hr ha rfl
    exact congrArg Host.Outcome.next (dynRetry_runs hr ha)

end Sys2Proof.Machine
end

section
/-! Dealing work to engines (03_dealing_work_to_engines.md): picks and shares, what an offer's messages leave alone, the registers of the
Report Queue, of pods and of tiles, and the layouts of records. -/
namespace Sys2Proof.Machine

/-! ### Picks (R81) -/

section
variable {α : Type} {f : α → Nat} {y : α} {l : List α}

theorem minBy_eq_none : minBy f l = none ↔ l = [] := by
  cases l with
  | nil => exact iff_of_true rfl rfl
  | cons x xs =>
    refine iff_of_false ?_ (List.cons_ne_nil x xs)
    simp only [minBy]
    split
    · exact Option.some_ne_none _
    · split <;> exact Option.some_ne_none _

/-- What `minBy` answers is in the list, and nothing in the list lies below it. -/
theorem minBy_some (h : minBy f l = some y) : y ∈ l ∧ ∀ x ∈ l, f y ≤ f x := by
  induction l generalizing y with
  | nil => cases h
  | cons x xs ih =>
    simp only [minBy] at h
    split at h
    next hn =>
      cases h
      simp [minBy_eq_none.1 hn]
    next z hz =>
      obtain ⟨hmem, hle⟩ := ih hz
      split at h
      next hx =>
        cases h
        exact ⟨List.mem_cons_self, List.forall_mem_cons.2 ⟨Nat.le_refl _, fun w hw => Nat.le_trans hx (hle w hw)⟩⟩
      next hx =>
        cases h
        exact ⟨List.mem_cons_of_mem x hmem, List.forall_mem_cons.2 ⟨Nat.le_of_not_le hx, hle⟩⟩

end

theorem engCell_lt (e : Nat) : engCell e < 16 := Nat.mod_lt _ (by decide)

/-- Two tiles at the same distance from the pointer are one tile. -/
theorem tile_eq_of_distance {ptr a b : Nat} (hp : ptr < 48) (ha : a < 48) (hb : b < 48)
    (h : (a + 48 - ptr) % 48 = (b + 48 - ptr) % 48) : a = b := by omega

/-- Settles O46: a pick minimises the distance of the tile from the pointer, and then the cell, which is below 16. -/
theorem picksTakeTheFirstFreeTileFromThePointer : Obligations.PicksTakeTheFirstFreeTileFromThePointer := by
  unfold Obligations.PicksTakeTheFirstFreeTileFromThePointer
  refine ⟨?picked, fun ptr es => minBy_eq_none⟩
  case picked =>
    intro ptr e es hp ht h
    obtain ⟨he, least⟩ := minBy_some h
    refine ⟨he, fun x hx => ?_⟩
    have key := least x hx
    have ce := engCell_lt e
    have cx := engCell_lt x
    rcases Nat.lt_trichotomy ((engTile e + 48 - ptr) % 48) ((engTile x + 48 - ptr) % 48) with nearer | same | farther
    · exact .inl nearer
    · exact .inr ⟨tile_eq_of_distance hp (ht e he) (ht x hx) same, by omega⟩
    · omega

/-! ### Shares (R83) -/

section
variable {es : List Nat} {n r : Nat}

/-- The number of engines of the regions below `r`. -/
def enginesBelow (es : List Nat) (r : Nat) : Nat := (es.filter fun e => decide (engRegion e < r)).length

/-- Where R83 cuts `n` panels between the regions below `r` and the others. -/
def shareCut (es : List Nat) (n r : Nat) : Nat := n * enginesBelow es r / es.length

/-- A region's share lies between its two cuts. -/
theorem mem_shareBounds {b : Nat × Nat × Nat} :
    b ∈ shareBounds es n ↔ ∃ r ∈ regionsOf es, (r, shareCut es n r, shareCut es n (r + 1)) = b := by
  simp only [shareBounds, shareCut, enginesBelow, List.mem_map, Nat.lt_succ_iff]

theorem engRegion_lt (e : Nat) : engRegion e < 8 := Nat.mod_lt _ (by decide)

theorem mem_regionsOf : r ∈ regionsOf es ↔ ∃ e ∈ es, engRegion e = r := by
  simp only [regionsOf, List.mem_filter, List.mem_range, List.any_eq_true, decide_eq_true_eq]
  exact ⟨And.right, fun h => ⟨by obtain ⟨e, -, rfl⟩ := h; exact engRegion_lt e, h⟩⟩

theorem enginesBelow_mono (es : List Nat) {a b : Nat} (h : a ≤ b) : enginesBelow es a ≤ enginesBelow es b := by
  simp only [enginesBelow, ← List.countP_eq_length_filter]
  refine List.countP_mono_left fun e _ he => ?_
  simp only [decide_eq_true_eq] at he ⊢
  omega

theorem shareCut_mono (es : List Nat) (n : Nat) {a b : Nat} (h : a ≤ b) : shareCut es n a ≤ shareCut es n b :=
  Nat.div_le_div_right (Nat.mul_le_mul_left n (enginesBelow_mono es h))

theorem shareCut_zero : shareCut es n 0 = 0 := by
  have none : enginesBelow es 0 = 0 := List.length_eq_zero_iff.2 (List.filter_eq_nil_iff.2 fun e _ => by simp)
  rw [shareCut, none, Nat.mul_zero, Nat.zero_div]

theorem shareCut_le (r : Nat) : shareCut es n r ≤ n :=
  Nat.div_le_of_le_mul (by rw [Nat.mul_comm]; exact Nat.mul_le_mul_right n (List.length_filter_le ..))

theorem shareCut_eight (h : es ≠ []) : shareCut es n 8 = n := by
  have all : enginesBelow es 8 = es.length :=
    congrArg List.length (List.filter_eq_self.2 fun e _ => decide_eq_true (engRegion_lt e))
  rw [shareCut, all, Nat.mul_div_cancel n (List.length_pos_iff.2 h)]

/-- A region without engines leaves the count where it was. -/
theorem enginesBelow_succ_of_none (h : ∀ e ∈ es, engRegion e ≠ r) : enginesBelow es (r + 1) = enginesBelow es r := by
  unfold enginesBelow
  congr 1
  refine List.filter_congr fun e he => ?_
  have := h e he
  simp only [decide_eq_decide]
  omega

/-- Only a region that holds engines moves the cut. -/
theorem mem_regionsOf_of_cut_lt (h : shareCut es n r < shareCut es n (r + 1)) : r ∈ regionsOf es := by
  refine mem_regionsOf.2 (Classical.byContradiction fun none => ?_)
  have same : enginesBelow es (r + 1) = enginesBelow es r := enginesBelow_succ_of_none fun e he hr => none ⟨e, he, hr⟩
  rw [shareCut, shareCut, same] at h
  exact Nat.lt_irrefl _ h

/-- A panel between the first cut and a later one lies between two neighbouring cuts. -/
theorem exists_cuts_around {p m : Nat} (h : p < shareCut es n m) : ∃ r, shareCut es n r ≤ p ∧ p < shareCut es n (r + 1) := by
  induction m with
  | zero => rw [shareCut_zero] at h; omega
  | succ m ih =>
    by_cases hm : p < shareCut es n m
    · exact ih hm
    · exact ⟨m, Nat.le_of_not_lt hm, h⟩

/-- No panel lies in the shares of two regions. -/
theorem cuts_apart {p r' : Nat} (hr : shareCut es n r ≤ p) (hr' : p < shareCut es n (r' + 1)) : r ≤ r' :=
  Nat.le_of_not_lt fun h => Nat.not_le.2 hr' (Nat.le_trans (shareCut_mono es n h) hr)

end

/-- Settles O47: the cuts rise from 0 to the number of panels, and a share lies between two neighbouring cuts. -/
theorem sharesDivideThePanels : Obligations.SharesDivideThePanels := by
  unfold Obligations.SharesDivideThePanels
  refine fun es n hes => ⟨?covered, ?once, ?bounds⟩
  case covered =>
    intro p hp
    obtain ⟨r, lo, hi⟩ := exists_cuts_around (Nat.lt_of_lt_of_eq hp (shareCut_eight hes).symm)
    exact ⟨_, mem_shareBounds.2 ⟨r, mem_regionsOf_of_cut_lt (Nat.lt_of_le_of_lt lo hi), rfl⟩, lo, hi⟩
  case once =>
    intro b c p hb hc lob hib loc hic
    obtain ⟨r, -, rfl⟩ := mem_shareBounds.1 hb
    obtain ⟨r', -, rfl⟩ := mem_shareBounds.1 hc
    rw [Nat.le_antisymm (cuts_apart lob hic) (cuts_apart loc hib)]
  case bounds =>
    intro b hb
    obtain ⟨r, hr, rfl⟩ := mem_shareBounds.1 hb
    exact ⟨shareCut_le (r + 1), mem_regionsOf.1 hr, rfl⟩

/-! ### What an offer's messages leave alone (R77) -/

section
variable {s : State} {r k : Nat}

/-- The state without what the messages of an offer round may move: the rounds, the holds and the dealers' pointers. -/
def State.besideOffers (s : State) : State :=
  { s with dl := { s.dl with offers := [], offerWait := [], engines := [], dealers := [] } }

@[simp] theorem updOffer_besideOffers (p : Offer → Bool) (f : Offer → Offer) : (s.updOffer p f).besideOffers = s.besideOffers := rfl

@[simp] theorem updEng_besideOffers (e : Nat) (f : Engine → Engine) : (s.updEng e f).besideOffers = s.besideOffers := rfl

@[simp] theorem movePtr_besideOffers (p cls e : Nat) : (s.movePtr r p cls e).besideOffers = s.besideOffers := rfl

@[simp] theorem pruneOffers_besideOffers : s.pruneOffers.besideOffers = s.besideOffers :=
  State.each_keeps State.besideOffers _ _ _ fun _ _ => rfl

theorem offerAnswer_besideOffers : (s.offerAnswer r k).besideOffers = s.besideOffers := by
  unfold State.offerAnswer
  dsimp only
  split
  next => split <;> simp
  next => rfl

theorem answerArrival_besideOffers : (s.answerArrival r k).besideOffers = s.besideOffers := by
  unfold State.answerArrival
  dsimp only
  split
  next => rfl
  next =>
    split
    next => rfl
    next => split <;> simp

theorem offerWithdraw_besideOffers : (s.offerWithdraw r k).besideOffers = s.besideOffers := by
  unfold State.offerWithdraw
  dsimp only
  split
  next => rfl
  next =>
    split
    next => rfl
    next =>
      rw [pruneOffers_besideOffers]
      split <;> simp

end

/-- Settles O53: each message moves rounds, holds and pointers alone, and what it leaves holds every field named. -/
theorem offerMessagesTouchOnlyTheDealing : Obligations.OfferMessagesTouchOnlyTheDealing := by
  unfold Obligations.OfferMessagesTouchOnlyTheDealing
  intro s t r c i x hx ht
  have h : t.besideOffers = s.besideOffers := by
    rcases hx with rfl | rfl | rfl <;> cases ht
    · exact offerAnswer_besideOffers
    · exact answerArrival_besideOffers
    · exact offerWithdraw_besideOffers
  exact ⟨(congrArg State.gs h :), (congrArg State.sy h :), (congrArg State.rs h :), (congrArg State.tb h :), (congrArg State.li h :),
    (congrArg State.fe h :), (congrArg State.fc h :), (congrArg State.regs h :), (congrArg State.mem h :), (congrArg State.out h :),
    (congrArg (·.dl.backlog) h :), (congrArg (·.dl.leHand) h :), (congrArg (·.dl.starts) h :)⟩

/-! ### Registers of the Report Queue (R187, R192, R429, R430) -/

section
variable {s : State} {v : BitVec 64}

theorem bits_w64 (v : BitVec 32) : bits (w64 v) 0 32 = v.toNat := by
  simp [bits, nbits, w64, Nat.mod_eq_of_lt v.isLt]

/-- FE_RQ_CFG is stored, and a SHIFT that moves clears the pointers. -/
def State.storeRqCfg (s : State) (v : BitVec 64) : State :=
  if bits v 8 5 = s.fld ⟨.rqCfg, 0, 0⟩ 8 5 then s.plainWrite ⟨.rqCfg, 0, 0⟩ v else (s.plainWrite ⟨.rqCfg, 0, 0⟩ v).clearRq

/-- The queue numbers its packets from 0 again. -/
def State.zeroPktSeq (s : State) : State := { s with fe := { s.fe with pktSeq := 0 } }

theorem State.storeRqCfg_ob : (s.storeRqCfg v).ob = s.ob := by
  unfold State.storeRqCfg
  split <;> rfl

section
variable (hl : 16 ≤ bits v 8 5) (hu : bits v 8 5 ≤ 26) (hw : bits v 24 4 ≠ 0)
include hl hu hw

/-- Good fields are taken, and the write that starts the queue starts its packet numbers. -/
theorem writeRqCfg_good (hm : s.rqOn = false ∨ bits v 8 5 = s.fld ⟨.rqCfg, 0, 0⟩ 8 5) :
    s.writeRqCfg v = (if s.rqOn = false ∧ bit v 0 = true then (s.storeRqCfg v).zeroPktSeq else s.storeRqCfg v).highCheck := by
  have good : ¬ (bits v 8 5 < 16 ∨ 26 < bits v 8 5 ∨ bits v 24 4 = 0 ∨ (bits v 8 5 ≠ s.fld ⟨.rqCfg, 0, 0⟩ 8 5 ∧ s.rqOn = true)) := by
    rintro (h | h | h | ⟨moved, on⟩)
    · omega
    · omega
    · exact hw h
    · exact hm.elim (fun off => by simp [off] at on) moved
  simp only [State.writeRqCfg, decide_eq_true_eq, if_neg good, ite_not, Bool.and_eq_true, Bool.not_eq_true']
  rfl

theorem writeRqCfg_start (hb : bit v 0 = true) (ho : s.rqOn = false) : s.writeRqCfg v = (s.storeRqCfg v).zeroPktSeq.highCheck := by
  rw [writeRqCfg_good hl hu hw (.inl ho), if_pos ⟨ho, hb⟩]

theorem writeRqCfg_stop (hb : bit v 0 = false) (hs : bits v 8 5 = s.fld ⟨.rqCfg, 0, 0⟩ 8 5) :
    s.writeRqCfg v = (s.plainWrite ⟨.rqCfg, 0, 0⟩ v).highCheck := by
  rw [writeRqCfg_good hl hu hw (.inr hs), if_neg (by simp [hb]), State.storeRqCfg, if_pos hs]

end

theorem writeRqRd_inRing (hg : s.rqGood = true) (h : (s.rqWr + 2 ^ 32 - bits v 0 32) % 2 ^ 32 ≤ s.rqSize) :
    s.writeRqRd v = s.setRqRd (bits v 0 32) := by
  simp only [State.writeRqRd, hg, Nat.not_lt.2 h, not_true_eq_false, if_false]

end

/-! ### Registers of pods and tiles (R72, R250, R432, R433) -/

section
variable {s : State} {p i : Nat} {v : BitVec 64}

theorem podTsetSel_valid (hp : p < 16) : Reg.valid ⟨.podTsetSel, p, 0⟩ = true := Reg.valid_iff.2 ⟨hp, by decide⟩

theorem podSwapq_valid (hp : p < 16) : Reg.valid ⟨.podSwapq, p, 0⟩ = true := Reg.valid_iff.2 ⟨hp, by decide⟩

theorem tileOwner_valid (hi : i < 384) : Reg.valid ⟨.tileOwner, i, 0⟩ = true := Reg.valid_iff.2 ⟨hi, by decide⟩

/-- Without COMMIT the entry that INDEX names comes to the staging words. -/
theorem writeTsetSel_select (hb : bit v 16 = false) :
    s.writeTsetSel p v = if s.fld ⟨.podTsetSel, p, 0⟩ 0 8 = bits v 0 8 then s.plainWrite ⟨.podTsetSel, p, 0⟩ v
      else (s.plainWrite ⟨.podTsetSel, p, 0⟩ v).loadStaging .podTsetData p 16 true
        ((s.plainWrite ⟨.podTsetSel, p, 0⟩ v).tset p (bits v 0 8)) := by
  simp [State.writeTsetSel, hb]

theorem writeTsetSel_commit (hb : bit v 16 = true) :
    s.writeTsetSel p v = (s.plainWrite ⟨.podTsetSel, p, 0⟩ v).commitTset p (bits v 0 8) := by
  simp [State.writeTsetSel, hb]

theorem commitTset_good (ho : s.tsetOk p (s.staged .podTsetData p 16 true) = true) (hn : (s.pod p).commit = none) :
    s.commitTset p i = s.updPod p fun y => { y with commit := some (i, s.staged .podTsetData p 16 true) } :=
  if_pos ⟨by simp [hn], ho⟩

theorem endCommit_staged {ws : List (BitVec 32)} (h : (s.pod p).commit = some (i, ws)) :
    s.endCommit p = (s.updPod p fun y => { y with tset := tput [] y.tset i (normWords ws), commit := none }).rehomeAnd true fun k =>
      decide (s.nodePod k = p) && decide ((s.node k).d.tileset = i) := by
  simp only [State.endCommit, h]

/-- An unassigned tile that is not BUSY goes to an enabled pod. -/
theorem writeTileOwner_give (hv : bit v 4 = true) (ha : bit (s.reg ⟨.tileOwner, i, 0⟩) 4 = false)
    (hb : bit (s.reg ⟨.tileOwner, i, 0⟩) 5 = false) (hp : s.podOn (bits v 0 4) = true) :
    s.writeTileOwner i v = s.setReg ⟨.tileOwner, i, 0⟩ (BitVec.ofNat 64 (bits v 0 4 + 16)) := by
  simp [State.writeTileOwner, hv, ha, hb, hp]

/-- An assigned tile keeps its pod and becomes BUSY, and entries that it served go back to the hub. -/
theorem writeTileOwner_take (hv : bit v 4 = false) (ha : bit (s.reg ⟨.tileOwner, i, 0⟩) 4 = true) :
    s.writeTileOwner i v =
      (s.setReg ⟨.tileOwner, i, 0⟩ (BitVec.ofNat 64 (bits (s.reg ⟨.tileOwner, i, 0⟩) 0 4 + 32))).rehomeAnd true fun _ => false := by
  simp [State.writeTileOwner, hv, ha]

theorem writeSwapq_push (hpop : bit v 31 = false) (hpush : bit v 12 = true) (hn : (s.pod p).swapq.length < 8) :
    s.writeSwapq p v = s.updPod p fun y => { y with swapq := y.swapq ++ [bits v 0 9] } := by
  simp only [State.writeSwapq, hpop, hpush, Nat.not_le.2 hn, Bool.false_eq_true, if_false, if_true]

theorem writeSwapq_pop (hpop : bit v 31 = true) (hpush : bit v 12 = false) :
    s.writeSwapq p v = s.updPod p fun y => { y with swapq := y.swapq.drop 1 } := by
  simp [State.writeSwapq, hpop, hpush]

end

/-- Settles O3: an admitted write does what its register's write does, and the command's bit with the stored state picks the branch. -/
theorem reportQueuePodAndTileWrites : Obligations.ReportQueuePodAndTileWrites := by
  unfold Obligations.ReportQueuePodAndTileWrites
  refine ⟨?enable, ?disable, ?rd, ?select, ?commit, fun s p i ws h => endCommit_staged h, ?give, ?take, ?push, ?pop⟩
  case enable =>
    rintro s w _ who v _ h rfl hl hu hw ho rfl
    have := writeRqCfg_start hl hu hw (bit_setBit_self _ _ _ (by decide)) ho
    exact congrArg Host.Outcome.next (regIn_settled h (by decide) nofun this ((State.highCheck_ob _).trans State.storeRqCfg_ob))
  case disable =>
    rintro s w who v _ h rfl hl hu hw hs
    have := writeRqCfg_stop hl hu hw (bit_setBit_self _ _ _ (by decide)) hs
    exact congrArg Host.Outcome.next (regIn_settled h (by decide) nofun this (State.highCheck_ob _))
  case rd =>
    intro s w who v h hg hd
    rw [← bits_w64] at hd ⊢
    exact congrArg Host.Outcome.next (regIn_settled h (by decide) nofun (writeRqRd_inRing hg hd) rfl)
  case select =>
    rintro s w _ who p v _ h hp rfl rfl
    have := writeTsetSel_select (s := w) (p := p) (bit_setBit_self (w64 v) 16 false (by decide))
    exact congrArg Host.Outcome.next ((regIn_admits h (podTsetSel_valid hp) nofun who _).trans (congrArg State.flushSnap this))
  case commit =>
    rintro s w _ who p v _ h hp rfl rfl ho hn
    have := (writeTsetSel_commit (bit_setBit_self _ _ _ (by decide))).trans (commitTset_good ho hn)
    exact congrArg Host.Outcome.next (regIn_settled h (podTsetSel_valid hp) nofun this rfl)
  case give =>
    intro s w who i v h hi hv ha hb hp
    exact congrArg Host.Outcome.next (regIn_settled h (tileOwner_valid hi) nofun (writeTileOwner_give hv ha hb hp) rfl)
  case take =>
    intro s w who i v h hi hv ha
    have := writeTileOwner_take hv ha
    exact congrArg Host.Outcome.next ((regIn_admits h (tileOwner_valid hi) nofun who _).trans (congrArg State.flushSnap this))
  case push =>
    intro s w who p v h hp hpop hn
    have keeps : bit (setBit (w64 v) 12 true) 31 = false := by rw [bit_setBit _ _ _ _ (by decide), if_neg (by decide), hpop]
    have := writeSwapq_push keeps (bit_setBit_self _ _ _ (by decide)) hn
    exact congrArg Host.Outcome.next (regIn_settled h (podSwapq_valid hp) nofun this rfl)
  case pop =>
    intro s w who p v h hp hpush
    have keeps : bit (setBit (w64 v) 31 true) 12 = false := by rw [bit_setBit _ _ _ _ (by decide), if_neg (by decide), hpush]
    have := writeSwapq_pop (s := w) (p := p) (bit_setBit_self _ _ _ (by decide)) keeps
    exact congrArg Host.Outcome.next (regIn_settled h (podSwapq_valid hp) nofun this rfl)

/-! ### The layouts of records (R91, R182, R405) -/

/-- A word at the end of a record reads back. -/
theorem leAt_last (n x : Nat) : leAt (leBytes n x) 0 n = x % 256 ^ n := by simpa using leAt_here n x []

/-- Reserved bytes are the bytes of the word 0. -/
theorem zeros_eq_leBytes (n : Nat) : zeros n = leBytes n 0 := by
  induction n with
  | zero => rfl
  | succ n ih => exact congrArg (0 :: ·) ih

/-- Settles O49: each word of a record is skipped to over those before it, and reads back modulo what its bytes have room for. -/
theorem launchCompletionAndTraceRecordsAreLaidOut : Obligations.LaunchCompletionAndTraceRecordsAreLaidOut := by
  unfold Obligations.LaunchCompletionAndTraceRecordsAreLaidOut
  refine ⟨?launch, ?completion, ?trace⟩
  case launch =>
    rintro l _ rfl
    simp [Launch.bytes, zeros_eq_leBytes, leAt_skip, leAt_here]
  case completion =>
    rintro c n _ rfl
    simp [CplRec.bytes, zeros_eq_leBytes, leAt_skip, leAt_here, leAt_last]
  case trace =>
    rintro t _ rfl
    simp [TraceRec.bytes, leAt_skip, leAt_here, leAt_last]

end Sys2Proof.Machine
end

section
/-! Experts and dynamic shapes (04_experts_and_dynamic_shapes.md): parcels that answer and control, the registers of the links,
FANOUT and landing entries, and the layouts of call records and of a FANOUT's output area. -/
namespace Sys2Proof.Machine

/-! ### RETURN, HELLO, BEAT and CUT_MARKER in every case (R124, R274, R309, R318) -/

section
variable {s : State} {l g ep off : Nat} {data : List Byte}

/-- Where memory cannot be written the entry's context faults. -/
theorem takeReturn_unwritable (hs : (s.landing l).st = .isOpen) (hg : (s.landing l).gen.toNat = g) (he : (s.landing l).epoch = ep)
    (hr : (s.landing l).received = off) (h0 : 0 < data.length) (hx : off + data.length ≤ (s.landing l).expect)
    (hw : s.writeBytes (ctxSpace (s.landing l).ctx) ((s.landing l).base + off) data = none) :
    s.takeReturn l g ep off data = s.ctxFault (s.landing l).ctx
      { cause := 0x95, node := (s.landing l).node.map nkIdx, detail := l } (sourceUnit 6) := by
  have new : ¬ off + data.length ≤ off := by omega
  have within : ¬ (s.landing l).expect < off + data.length := by omega
  simp only [State.takeReturn, hs, hg, he, hr, hw, new, within, ne_eq, not_true_eq_false, decide_false, Bool.false_eq_true, and_false,
    Nat.lt_irrefl, Nat.sub_self, List.drop_zero, reduceCtorEq, or_self, if_false]

theorem landed_eq (upto expect : Nat) : s.landed l upto expect =
    if upto = expect then s.updLanding l fun y => { y with received := upto, st := .filled, leftAt := s.now }
    else s.updLanding l fun y => { y with received := upto } := by
  by_cases full : upto = expect
  · simp only [State.landed, full, if_true]
  · simp only [State.landed, full, if_false]

/-- Only a sequence's entry has a roster to wake. -/
theorem wakeOwner_other {o : LandOwner} {full : Prop} [Decidable full] (h : ∀ r q e, o ≠ .sequence r q e) : s.wakeOwner o full = s := by
  cases o with
  | sequence r q e => exact absurd rfl (h r q e)
  | _ => rfl

end

/-- Settles O34: each parcel passes the port's tests, and its type and the state it finds pick what it does. -/
theorem answersAndControlParcelsComplete : Obligations.AnswersAndControlParcelsComplete := by
  unfold Obligations.AnswersAndControlParcelsComplete
  refine ⟨?ret, ?ack, ?hello, ?beat, ?marker, ?lockstep⟩
  case ret =>
    rintro s _ k q l g ep off _ data p _ h hb rfl rfl rfl hs hg he hr h0 hx
    refine congrArg Host.Outcome.next (takeType_answer h (by decide) (parcelHere_ret hb) ?_)
    split
    next hw => exact takeReturn_unwritable hs hg he hr h0 hx hw
    next t r q e hw ho =>
      rw [takeReturn_inOrder hs hg he hr h0 hx hw, landed_eq, ho, State.wakeOwner]
      by_cases full : off + data.length = ((s.bump (gcnt 7) 1).landing l).expect
      · simp only [if_pos full]
      · simp only [if_neg full]
    next t o hw ho =>
      rw [takeReturn_inOrder hs hg he hr h0 hx hw, landed_eq, wakeOwner_other ho]
  case ack =>
    rintro s _ k q n st why p h hb rfl
    refine congrArg Host.Outcome.next (takeType_answer h (by decide) (parcelHere_ack hb) ?_)
    split
    next u hu => exact takeAck_answers hu st why
    next hu => exact takeAck_unknown hu st why
  case hello =>
    rintro s _ _ _ k q far lo hi sys _ seen cr p h hb rfl rfl rfl rfl
    exact congrArg Host.Outcome.next (takeType_answer h (by decide) (parcelHere_hello hb) rfl)
  case beat =>
    rintro s _ _ k q v p h hb rfl rfl
    exact congrArg Host.Outcome.next (takeType_answer h (by decide) (parcelHere_beat hb) rfl)
  case marker =>
    rintro s _ _ k q id p h hb hs rfl rfl
    exact congrArg Host.Outcome.next ((markerReceive_running hs).trans (takeType_answer h (by decide) (parcelHere_cutMarker hb) rfl))
  case lockstep =>
    intro s k q hl
    exact ⟨congrArg Host.Outcome.next (takeType_lockstep hl k q 4), congrArg Host.Outcome.next (takeType_lockstep hl k q 5),
      congrArg Host.Outcome.next (takeType_lockstep hl k q 0x10), congrArg Host.Outcome.next (takeType_lockstep hl k q 0x11),
      fun hs => congrArg Host.Outcome.next ((markerReceive_running hs).trans (takeType_lockstep hl k q 0x12))⟩

/-! ### The registers of ports, and LI_REV (R305 to R311, R354) -/

section
variable {s : State} {who : Requester} {k : Nat} {v : BitVec 64}

/-- Port `k` begins state `st` with nothing seen of its far end. -/
def State.restartPort (s : State) (k : Nat) (st : PortState) : State :=
  s.updPort k fun y =>
    { y with st := st, since := s.now, sentSeen := false, gotSeen := false, gotAny := false, silentTold := false, helloAt := 0 }

/-- A port that was not UP goes to TRAINING or HELLO without a report. -/
theorem toPortState_restart {st : PortState} (hu : s.portUp k = false) (hst : st = .training ∨ st = .hello) (cause : Nat) :
    s.toPortState k st cause = s.restartPort k st := by
  obtain rfl | rfl := hst <;> simp [State.toPortState, State.leaveUp, State.restartPort, hu]

theorem judgeAgain_eq (s : State) (k : Nat) :
    s.judgeAgain k = if (s.port k).st = .mismatched ∨ (s.port k).st = .fenced then s.restartPort k .hello else s := by
  unfold State.judgeAgain
  split
  next h => rw [if_pos (.inl h), toPortState_restart (by simp [State.portUp, h]) (.inr rfl)]
  next h => rw [if_pos (.inr h), toPortState_restart (by simp [State.portUp, h]) (.inr rfl)]
  next hm hf => rw [if_neg (not_or.2 ⟨hm, hf⟩)]

theorem portCfg_valid (hk : k < 64) : Reg.valid ⟨.portCfg, k, 0⟩ = true := Reg.valid_iff.2 ⟨hk, by decide⟩

theorem portCtrl_valid (hk : k < 64) : Reg.valid ⟨.portCtrl, k, 0⟩ = true := Reg.valid_iff.2 ⟨hk, by decide⟩

theorem portExpect_valid (hk : k < 64) : Reg.valid ⟨.portExpect, k, 0⟩ = true := Reg.valid_iff.2 ⟨hk, by decide⟩

/-- A write leaves the ports as they are. -/
@[simp] theorem State.plainWrite_port (r : Reg) (v : BitVec 64) (k : Nat) : (s.plainWrite r v).port k = s.port k := rfl

theorem writePortCfg_enable (hv : bit v 0 = true) (hs : (s.port k).st = .disabled)
    (hb : bit ((s.plainWrite ⟨.portCfg, k, 0⟩ v).reg ⟨.benchLe, 0, 0⟩) (k / 2) = false) :
    s.writePortCfg k v = (s.plainWrite ⟨.portCfg, k, 0⟩ v).restartPort k .training := by
  have hu : (s.plainWrite ⟨.portCfg, k, 0⟩ v).portUp k = false := by simp [State.portUp, hs]
  simp only [State.writePortCfg, hv, hb, State.enablePort, State.plainWrite_port, hs, not_true_eq_false, Bool.false_eq_true, if_false, if_true]
  exact toPortState_restart hu (.inl rfl) 0

theorem writePortCfg_disable (hv : bit v 0 = false) (hs : (s.port k).st ≠ .disabled) :
    s.writePortCfg k v = ((s.plainWrite ⟨.portCfg, k, 0⟩ v).toPortState k .disabled 2).cutBroken k := by
  simp only [State.writePortCfg, hv, State.disablePort, State.plainWrite_port, hs, Bool.false_eq_true, not_false_eq_true, if_false, if_true]

theorem writeReg_accept (hv : bit v 0 = true) : s.writeReg who ⟨.portCtrl, k, 0⟩ v = s.acceptPort k := if_pos hv

theorem writeLiRev_good (h : liRevOk v.toNat = true) :
    s.writeLiRev v = (s.plainWrite ⟨.liRev, 0, 0⟩ v).each (List.range 64) State.judgeAgain := if_pos h

theorem toNat_w64 (v : BitVec 32) : (w64 v).toNat = v.toNat := by
  rw [w64, BitVec.toNat_setWidth, Nat.mod_eq_of_lt (by omega)]

/-! ### The serving table (R121, R459) -/

/-- The entry names an expert that no other serves, its address is aligned, and no call uses it unless it stays as it is. -/
theorem commitServe_good {i : Nat} {e : List (BitVec 32)} (he : e = serveClean (s.staged .liServeData 0 6 false))
    (ht : (serveValid e && s.li.serve.any fun y => decide (y.1 ≠ i) && serveValid y.2 && decide (serveExpert y.2 = serveExpert e)) = false)
    (hb : normWords e = s.serveEnt i ∨ (s.li.calls.any fun y => decide (y.1 / 256 = i) && y.2.busy) = false)
    (ha : bits (wordAt e 3) 0 6 = 0) :
    s.commitServe i = { s with li := { s.li with serve := tput [] s.li.serve i (normWords e) } } := by
  subst he
  have unused : (decide (normWords (serveClean (s.staged .liServeData 0 6 false)) ≠ s.serveEnt i) &&
      s.li.calls.any fun y => decide (y.1 / 256 = i) && y.2.busy) = false := by
    obtain same | idle := hb
    · rw [decide_eq_false fun differs => differs same, Bool.false_and]
    · rw [idle, Bool.and_false]
  simp only [State.commitServe, ht, unused, ha, ne_eq, not_true_eq_false, decide_false, Bool.or_self, Bool.false_eq_true, if_false]

theorem writeServeSel_commit (h : bit v 16 = true) :
    s.writeServeSel v = (s.plainWrite ⟨.liServeSel, 0, 0⟩ v).commitServe (bits v 0 12) := if_pos h

end

/-- Settles O11: an admitted write does what its register's write does, and the bit that its row sets, with the port's state, says what. -/
theorem linkRegisterWrites : Obligations.LinkRegisterWrites := by
  unfold Obligations.LinkRegisterWrites
  refine ⟨?enable, ?disable, ?accept, ?expect, ?rev, ?serve⟩
  case enable =>
    rintro s w who k v _ h hk rfl hs hb
    have := writePortCfg_enable (bit_setBit_self _ _ _ (by decide)) hs hb
    exact congrArg Host.Outcome.next (regIn_settled h (portCfg_valid hk) nofun this rfl)
  case disable =>
    rintro s w who k v _ h hk rfl hs
    have := writePortCfg_disable (s := w) (v := setBit (w64 v) 0 false) (bit_setBit_self _ _ _ (by decide)) hs
    exact congrArg Host.Outcome.next ((regIn_admits h (portCfg_valid hk) nofun who _).trans (congrArg State.flushSnap this))
  case accept =>
    intro s w who k v h hk hs hr
    have accepts := (writeReg_accept (s := w) (who := who) (k := k) (bit_setBit_self (w64 v) 0 true (by decide))).trans (if_pos ⟨hs, hr⟩)
    exact congrArg Host.Outcome.next ((regIn_admits h (portCtrl_valid hk) nofun who _).trans (congrArg State.flushSnap accepts))
  case expect =>
    rintro s w _ who k v h hk rfl
    refine congrArg Host.Outcome.next (regIn_settled h (portExpect_valid hk) nofun (judgeAgain_eq _ k) ?ob)
    split <;> rfl
  case rev =>
    intro s w who v h hv
    have := writeLiRev_good (s := w) (v := w64 v) (by rwa [toNat_w64])
    exact congrArg Host.Outcome.next ((regIn_admits h (by decide) nofun who _).trans (congrArg State.flushSnap this))
  case serve =>
    rintro s w _ who v _ _ _ h rfl rfl rfl he ht hb ha
    have := (writeServeSel_commit (s := w) (bit_setBit_self (w64 v) 16 true (by decide))).trans (commitServe_good he ht hb ha)
    exact congrArg Host.Outcome.next (regIn_settled h (by decide) nofun this rfl)

/-! ### A FANOUT's expansion (R104, R105, R115, R117, R118) -/

section
variable {s : State} {k : Nat}

/-- FANOUT `k` becomes ACTIVE, and its table is read. -/
def State.startFanout (s : State) (k : Nat) : State :=
  (s.updNode k fun n => { n with st := .active, startedAt := s.now, place := .unit }).noteHost (ctxSpace (nkCtx k)) (s.node k).d.b.toNat

theorem fanoutExpand_goodHeader {bs : List Byte} {h : FanHead} (hn : s.nextFanout = some k) (hf : s.gs.fan = none) (hl : s.live 1 = true)
    (hr : (s.startFanout k).readBytes (ctxSpace (nkCtx k)) (s.node k).d.b.toNat 64 = some bs) (hh : h = FanHead.ofBytes bs)
    (hb : h.bad (s.node k).d = false) (he : h.epoch = (s.startFanout k).fanEpoch k) :
    s.fanoutExpand = (s.startFanout k).fanPassOne k h := by
  subst hh
  obtain ⟨hu, ho⟩ := State.live_iff.1 hl
  unfold State.startFanout at hr he ⊢
  simp only [State.fanoutExpand, hn, hf, hu, ho, hr, hb, he, Option.isSome_none, Bool.false_eq_true, not_true_eq_false, ne_eq, or_self, if_false]

/-- The work of FANOUT `k` that its header and the decisions of pass 1 give. -/
def FanHead.work (h : FanHead) (k : Nat) (p : Pass) : FanWork :=
  { node := k, outAddr := h.out, epoch := h.epoch, tokens := h.tokens, sized := decide (h.mode = 1), retAddr := h.ret,
    rowBytes := h.rowBytes, remoteTpl := h.tpl, req := p.req, kept := p.kept, entries := p.entries, masks := p.masks }

/-- A FANOUT that has to wait for landing entries is counted. -/
def State.countWaiting (s : State) (w : FanWork) : State := if w.waiting then s.bump (liCnt 2) 1 else s

/-- The work that the Fan-out unit is at. -/
def State.setFan (s : State) (w : FanWork) : State := { s with gs := { s.gs with fan := some w } }

theorem fanPassOne_fits {h : FanHead} {p : Pass} {rs : List (Nat × Nat × Nat)} {w : FanWork} {b : State} {t : State × FanWork}
    (hp : p = s.fanPass (nkCtx k) (s.node k).d (decide (h.mode = 1)) h.tokens) (hu : p.unread = false) (hb : p.bad = none)
    (hw : w = h.work k p) (hi : b = s.imbalance k w) (hs : (fanOffsets (s.node k).d h.tokens).2.2 ≤ h.size)
    (hr : (if h.place = 0 ∨ w.sized = true then some [] else b.placements (ctxSpace (nkCtx k)) h.place (tkeys p.kept)) = some rs)
    (hn : fanTooBig (b.node (nk (nkCtx k) (s.node k).d.fanTemplate)).d { w with remote := rs } = false)
    (ht : t = b.openAll { w with remote := rs } rs) : s.fanPassOne k h = (t.1.countWaiting t.2).setFan t.2 := by
  subst hp hi hw ht
  unfold FanHead.work at hr hn ⊢
  simp only [State.fanPassOne, hu, hb, Nat.not_lt.2 hs, if_false]
  rw [hr]
  simp only [hn, State.countWaiting, Bool.false_eq_true, if_false]
  split <;> rfl

/-- Once enough entries are free the rest are opened (R118). -/
theorem landingResume_enough {w : FanWork} (hf : s.gs.fan = some w) (hw : w.waiting = true)
    (hn : (s.li.landings.filter fun x => decide (x.2.st ≠ .free)).length + (w.remote.length - w.opened.length) ≤ 16384)
    (hr : s.runs 1 = true) :
    s.landingResume = (s.openAll { w with waiting := false } w.remote).1.setFan (s.openAll { w with waiting := false } w.remote).2 := by
  simp only [State.landingResume, hf]
  exact if_pos ⟨hw, hn, hr⟩

end

/-! ### The instances of an expansion, and its completion (R61, R105, R111, R114) -/

section
variable {s t : State} {w : FanWork} {k : Nat}

/-- An expansion and the choices that it dropped are counted (R401). -/
def State.countExpansion (s : State) (w : FanWork) : State :=
  ((s.bump (gcnt 12) 1).bump (ctxCnt (nkCtx w.node) 7) 1).bump (ctxCnt (nkCtx w.node) 8) (tabSum w.req - tabSum w.kept)

/-- The FANOUT keeps where its output area, its lists and its returned rows lie. -/
def State.keepArea (s : State) (w : FanWork) (d : Desc) : State :=
  s.updNode w.node fun n =>
    { n with fanOut := [w.outAddr, (fanOffsets d w.tokens).1, (fanOffsets d w.tokens).2.1, w.retAddr, w.rowBytes] }

theorem fanoutInstantiate_written (hf : s.gs.fan = some w) (hw : w.waiting = false) (hr : s.runs 1 = true)
    (hp : s.fanPassTwo w = (t, none)) :
    s.fanoutInstantiate = ((t.countExpansion w).keepArea w (s.node w.node).d).fanInstances w := by
  simp only [State.fanoutInstantiate, hf, hw, hr, hp, Bool.false_eq_true, not_true_eq_false, or_self, if_false]
  rfl

/-- The Fan-out unit and its held work let FANOUT `k` go. -/
def State.dropFan (s : State) (k : Nat) : State :=
  { s with gs := { s.gs with fan := none, fanHeld := s.gs.fanHeld.filter fun h => decide (h.node ≠ k) } }

/-- The expansion stays held until blocks are free (R61). -/
def State.holdFan (s : State) (w : FanWork) : State :=
  { s with gs := { s.gs with fanHeld := s.gs.fanHeld ++ [{ w with written := true }] } }

/-- The experts with kept tokens have their nodes in blocks `bs`. -/
def State.placeInstances (s : State) (w : FanWork) (bs : List Nat) : State :=
  (s.each bs fun s b => s.takeNodes (nkCtx w.node) b 1 (.node (nkIdx w.node))).each (List.range w.kept.length) fun s j =>
    match w.kept[j]? with
    | some (e, n) => s.fanInstance w (s.nodePool (nkCtx w.node) + 64 * bs.getD (j / 64) 0 + j % 64) e n
    | none => s

/-- The trace record of an expansion (R405). -/
def State.traceExpansion (s : State) (w : FanWork) : State :=
  s.traceUnit 1 { typ := 9, source := 9, ctx := some (nkCtx w.node), node := nkIdx w.node, arg := w.kept.length % 2 ^ 16, tag := tabSum w.kept }

section
variable (hr : s.remoteTplBad w = false)
  (ht : (s.node (nk (nkCtx w.node) (s.node w.node).d.fanTemplate)).st = .template ∨ w.kept.length = w.remote.length)
include hr ht

theorem fanInstances_noRoom
    (hl : lowestFree (tkeys (s.ctx (nkCtx w.node)).dynN) (s.nodeBlocks (nkCtx w.node)) (ceilDiv w.kept.length 64) = none) :
    s.fanInstances w = ((s.dropFan w.node).holdFan w).noRoomFor w.node := by
  simp only [State.fanInstances, hr, hl, Bool.false_eq_true, if_false]
  exact if_neg fun ⟨noTemplate, someLocal⟩ => ht.elim noTemplate someLocal

theorem fanInstances_placed {bs : List Nat}
    (hl : lowestFree (tkeys (s.ctx (nkCtx w.node)).dynN) (s.nodeBlocks (nkCtx w.node)) (ceilDiv w.kept.length 64) = some bs) :
    s.fanInstances w = ((((s.dropFan w.node).placeInstances w bs).traceExpansion w).dynServed w.node).settle := by
  simp only [State.fanInstances, hr, hl, Bool.false_eq_true, if_false]
  exact if_neg fun ⟨noTemplate, someLocal⟩ => ht.elim noTemplate someLocal

end

theorem fanoutComplete_settled (hs : (s.node k).st = .active) (hk : (s.node k).d.kind = .fanout) (hf : s.fanSettled k = true)
    (hr : s.runs 1 = true) : s.fanoutComplete k = ((s.updNode k fun n => { n with fanOut := [] }).complete k).settle :=
  if_pos ⟨hs, hk, hf, hr⟩

end

/-! ### Call slots and landing entries (R119, R121, R126) -/

section
variable {s : State} {l x : Nat}

theorem callSlotFree_over (hb : (s.callSlot x).busy = true) (ho : s.callOver x = true) (hr : s.runs 6 = true)
    (ha : s.away (s.callSlot x).ctx = false) : s.callSlotFree x = (s.freeCall x).retryCall (x / 256) :=
  if_pos ⟨hb, ho, hr, ne_true_of_eq_false ha⟩

theorem landingTimeout_expired {t0 : Nat} (hc : (s.landing l).callAt = some t0) (hs : (s.landing l).st = .isOpen)
    (hz : s.fld ⟨.liLandCfg, 0, 0⟩ 0 20 ≠ 0) (ht : t0 + s.fld ⟨.liLandCfg, 0, 0⟩ 0 20 ≤ s.now) (hr : s.runs 6 = true) :
    s.landingTimeout l = s.landFail l 0x27 := by
  simp only [State.landingTimeout, hc]
  exact if_pos ⟨hs, hz, ht, hr⟩

/-- The entry is FREE, and keeps GEN, its last context and whether a drop was told (R124). -/
def State.freeEntry (s : State) (l : Nat) : State := s.updLanding l fun x => { gen := x.gen, ctx := x.ctx, dropTold := x.dropTold }

/-- The longest waiting import takes a landing entry that became free. -/
def State.startWaitingImport (s : State) : State :=
  match s.importsWaiting with
  | q :: _ => s.startImport q
  | [] => s

theorem landingFree_held (hs : (s.landing l).st = .filled ∨ (s.landing l).st = .revoked ∨ (s.landing l).st = .broken)
    (ho : s.openerDone (s.landing l) = true) (ht : (s.landing l).leftAt + s.fld ⟨.liLandCfg, 0, 0⟩ 32 16 ≤ s.now)
    (hr : s.runs 6 = true) : s.landingFree l = (s.freeEntry l).startWaitingImport := if_pos ⟨hs, ho, ht, hr⟩

end

/-- Settles O30: each row finds its guard met, and an expansion goes as far as its table, the free entries and the free blocks let it. -/
theorem fanOutAndLandingEntries : Obligations.FanOutAndLandingEntries := by
  unfold Obligations.FanOutAndLandingEntries
  refine ⟨?expand, ?resume, ?instantiate, ?complete, fun s x hb ho hr ha => congrArg Host.Outcome.next (callSlotFree_over hb ho hr ha),
    fun s l t0 hc hs hz ht hr => congrArg Host.Outcome.next (landingTimeout_expired hc hs hz ht hr), ?free⟩
  case expand =>
    rintro s _ b _ t k bs h p rs w hn hf hl hh rfl hr hd hb he hp hu hbad hw hi hsz hpl hbig ht rfl
    have := (fanoutExpand_goodHeader hn hf hl hr hd hb he).trans (fanPassOne_fits hp hu hbad hw hi hsz hpl hbig ht)
    exact congrArg Host.Outcome.next ((viaHostAt_now hh _ _).trans this)
  case resume =>
    rintro s w _ hf hw hn hr rfl
    exact congrArg Host.Outcome.next (landingResume_enough hf hw hn hr)
  case instantiate =>
    rintro s t _ _ w _ _ hf hw hr hh hp rfl rfl rfl hbad ht rfl
    have := fanoutInstantiate_written hf hw hr hp
    have done := (viaHostAt_now hh .fanoutInstantiate State.fanoutInstantiate).trans this
    exact ⟨fun hl => congrArg Host.Outcome.next (done.trans (fanInstances_noRoom hbad ht hl)),
      fun bs hl => congrArg Host.Outcome.next (done.trans (fanInstances_placed hbad ht hl))⟩
  case complete =>
    rintro s c i _ rfl hs hk hf hr
    exact congrArg Host.Outcome.next (fanoutComplete_settled hs hk hf hr)
  case free =>
    rintro s _ l hs ho ht hr rfl
    exact congrArg Host.Outcome.next (landingFree_held hs ho ht hr)

/-! ### The layouts of call records and of a FANOUT's output area (R103, R107, R122) -/

/-- What stands beyond the first word stands in what follows it. -/
theorem drop_leBytes {m o : Nat} (h : m ≤ o) (x : Nat) (r : List Byte) : (leBytes m x ++ r).drop o = r.drop (o - m) := by
  rw [List.drop_append, leBytes_length, List.drop_of_length_le (by simpa using h), List.nil_append]

/-- Settles O50: each word of a call record is skipped to over those before it, and reads back modulo what its bytes have room for. -/
theorem callRecordsAreLaidOut : Obligations.CallRecordsAreLaidOut := by
  unfold Obligations.CallRecordsAreLaidOut
  rintro p x rows rb l gen ep _ rfl
  simp [callRecord, zeros_eq_leBytes, leAt_skip, leAt_here, drop_leBytes]

theorem fanCap_eq (d : Desc) (tokens : Nat) : fanCap d tokens = if d.capacity ≠ 0 then d.capacity else tokens := by
  rw [fanCap, ite_not]

theorem FanWork.record_length (w : FanWork) (d : Desc) (skipped : Nat) : (w.record d skipped).length = 64 := by
  simp [FanWork.record, zeros_eq_leBytes]

theorem FanWork.summary_length (w : FanWork) (e : Nat) : (w.summary e).length = 16 := by
  simp [FanWork.summary]

/-- Settles O51: the offsets are sums of the parts before them, with CAP the tokens where CAPACITY is zero. -/
theorem theFanOutAreaIsLaidOut : Obligations.TheFanOutAreaIsLaidOut := by
  unfold Obligations.TheFanOutAreaIsLaidOut
  rintro d w tokens _ _ _ _ rfl rfl rfl rfl
  rw [← fanCap_eq]
  exact ⟨rfl, rfl, rfl, rfl, w.record_length d, w.summary_length⟩

end Sys2Proof.Machine
end

section
/-! The roster and KV pages (05_the_roster_and_kv_pages.md): the frame of a store and of the retire record's, the registers of the
roster, of page ranges, of residency and release entries, and tricks, records and imports. -/
namespace Sys2Proof.Machine

/-! ### Stores of bytes (R231, R243, R351) -/

section
variable {s t : State} {sp a : Nat} {bs : List Byte}

theorem writeBytes_some (e : s.writeBytes sp a bs = some t) :
    ∃ ps, s.physAll sp a bs.length = some ps ∧ t.mem = pokes s.mem (ps.zip bs) := by
  unfold State.writeBytes at e
  split at e
  next => cases e
  next ps h => cases e; exact ⟨ps, h, rfl⟩

/-- What a write stores `i`-th is its byte `i`, at the address that the MMU gives for it. -/
theorem zip_physAll {ps : List Nat} (h : s.physAll sp a bs.length = some ps) (i p : Nat) (b : Byte) :
    (ps.zip bs)[i]? = some (p, b) ↔ s.phys sp (a + i) = some p ∧ bs[i]? = some b := by
  rw [List.getElem?_zip_eq_some]
  refine and_congr_left fun hb => ?_
  obtain ⟨q, hq, hp⟩ := (physAll_get h).2 i (List.getElem?_eq_some_iff.1 hb).1
  rw [hq, hp]

/-- A byte at none of a write's physical addresses keeps its value. -/
theorem writeBytes_outside (hw : s.Wf) (e : s.writeBytes sp a bs = some t) {p : Nat}
    (h : ∀ i, i < bs.length → s.phys sp (a + i) ≠ some p) : tget 0 t.mem p = tget 0 s.mem p := by
  obtain ⟨ps, hps, hm⟩ := writeBytes_some e
  rw [hm, pokes_out _ hw]
  rintro ⟨q, b⟩ hx rfl
  obtain ⟨i, hi⟩ := List.getElem?_of_mem hx
  obtain ⟨hq, hb⟩ := (zip_physAll hps i q b).1 hi
  exact h i (List.getElem?_eq_some_iff.1 hb).1 hq

/-- A physical address that one byte alone of a write goes to takes that byte. -/
theorem writeBytes_inside (hw : s.Wf) (e : s.writeBytes sp a bs = some t) {i p : Nat} (hi : i < bs.length)
    (hp : s.phys sp (a + i) = some p) (h : ∀ j, j < bs.length → s.phys sp (a + j) = some p → j = i) :
    tget 0 t.mem p = bs.getD i 0 := by
  obtain ⟨ps, hps, hm⟩ := writeBytes_some e
  have here : bs[i]? = some (bs.getD i 0) := by
    rw [List.getD_eq_getElem?_getD, List.getElem?_eq_getElem hi, Option.getD_some]
  rw [hm]
  refine pokes_in _ hw ⟨i, (zip_physAll hps i p _).2 ⟨hp, here⟩, fun j c hj => ?_⟩
  obtain ⟨hq, hc⟩ := (zip_physAll hps j p c).1 hj
  exact h j (List.getElem?_eq_some_iff.1 hc).1 hq

end

/-! ### The retire ring (R154, R342) -/

section
variable {s u : State} {k : Nat} {r : RetRec} {rest : List RetRec}

/-- Where the next retire record of roster `k` is stored. -/
def State.retireAt (s : State) (k : Nat) : Nat :=
  (s.reg ⟨.roRetireAddr, k, 0⟩).toNat + (s.reg ⟨.roRetireWr, k, 0⟩).toNat % 2 ^ s.fld ⟨.roRetireShift, k, 0⟩ 0 5 * 32

/-- The record `r` leaves its roster, and its slot becomes FREE. -/
def State.unretire (s : State) (k : Nat) (r : RetRec) (rest : List RetRec) : State :=
  (s.updRos k fun x => { x with retire := rest }).updSeq r.slot fun e => { epoch := e.epoch }

/-- Vector 274, where the roster asks for it. -/
def State.retireVector (s : State) (k : Nat) : State := if bit (s.reg ⟨.roCtrl, k, 0⟩) 6 then s.vector 274 else s

theorem retireBytes_length (s : State) (k : Nat) (r : RetRec) : (s.retireBytes k r).length = 32 := by
  simp [State.retireBytes, zeros_eq_leBytes]

/-- With no record, no room or no running unit nothing is written. -/
theorem retireWrite_idle (h : (s.ros k).retire = [] ∨ s.retireFull k = true ∨ s.runs 4 = false) : s.retireWrite k = s := by
  unfold State.retireWrite
  split
  next => rfl
  next r rest hr => exact if_pos (by simpa [hr] using h)

section
variable (hr : (s.ros k).retire = r :: rest) (hf : s.retireFull k = false) (hu : s.runs 4 = true)
include hr hf hu

theorem retireWrite_failed (hw : s.writeBytes (ctxSpace (s.roCtx k)) (s.retireAt k) (s.retireBytes k r) = none) :
    s.retireWrite k = (s.unretire k r rest).ctxFault (s.roCtx k) { cause := 0x95 } (sourceUnit 4) := by
  unfold State.retireAt at hw
  simp only [State.retireWrite, hr, hf, hu, hw, Bool.false_eq_true, not_true_eq_false, or_self, if_false]
  rfl

theorem retireWrite_written (hw : s.writeBytes (ctxSpace (s.roCtx k)) (s.retireAt k) (s.retireBytes k r) = some u) :
    s.retireWrite k = (({ s.unretire k r rest with mem := u.mem, poison := u.poison } : State).setReg ⟨.roRetireWr, k, 0⟩
      (BitVec.ofNat 64 (((s.reg ⟨.roRetireWr, k, 0⟩).toNat + 1) % 2 ^ 32))).retireVector k := by
  unfold State.retireAt at hw
  simp only [State.retireWrite, hr, hf, hu, hw, Bool.false_eq_true, not_true_eq_false, or_self, if_false]
  rfl

end

theorem kept_sameMem (s : State) : Kept (fun m => m = s.mem) s.pending s.mmu s.out s := ⟨rfl, rfl, List.suffix_rfl, rfl⟩

theorem State.ctxFault_mem (s : State) (c : Nat) (f : FaultRec) (src : Nat) : (s.ctxFault c f src).mem = s.mem := by
  obtain ⟨-, -, -, h⟩ := kept_ctxFault (kept_sameMem s) c f src
  exact h

theorem State.retireVector_mem (s : State) (k : Nat) : (s.retireVector k).mem = s.mem := by
  obtain ⟨-, -, -, h⟩ := kept_vector (kept_sameMem s) 274
  unfold State.retireVector
  split
  next => exact h
  next => rfl

/-- RETIRE_RECORD_WRITE leaves memory as it was, or as the store of one record leaves it. -/
theorem retireWrite_mem (s : State) (k : Nat) :
    (s.retireWrite k).mem = s.mem ∨
      ∃ r u, s.writeBytes (ctxSpace (s.roCtx k)) (s.retireAt k) (s.retireBytes k r) = some u ∧ (s.retireWrite k).mem = u.mem := by
  by_cases idle : (s.ros k).retire = [] ∨ s.retireFull k = true ∨ s.runs 4 = false
  · exact .inl (congrArg State.mem (retireWrite_idle idle))
  · simp only [not_or, Bool.not_eq_true, Bool.not_eq_false] at idle
    obtain ⟨waits, room, runs⟩ := idle
    obtain ⟨r, rest, hr⟩ := List.exists_cons_of_ne_nil waits
    cases hw : s.writeBytes (ctxSpace (s.roCtx k)) (s.retireAt k) (s.retireBytes k r) with
    | none => exact .inl ((congrArg State.mem (retireWrite_failed hr room runs hw)).trans (State.ctxFault_mem ..))
    | some u => exact .inr ⟨r, u, hw, (congrArg State.mem (retireWrite_written hr room runs hw)).trans (State.retireVector_mem ..)⟩

end

/-- Settles O45: a store pokes each byte at the address the MMU gives for it, and the retire record's is the row's only store. -/
theorem writesStayInTheirBytes : Obligations.WritesStayInTheirBytes := by
  unfold Obligations.WritesStayInTheirBytes
  refine ⟨fun s t sp a bs hw e => ⟨writeBytes_wf hw e, fun p => writeBytes_outside hw e, fun i p => writeBytes_inside hw e⟩, ?retire⟩
  rintro s _ k p hw ⟨⟩ h
  obtain same | ⟨r, u, hu, stored⟩ := retireWrite_mem s k
  · exact congrArg (tget 0 · p) same
  · refine (congrArg (tget 0 · p) stored).trans (writeBytes_outside hw hu ?_)
    rwa [retireBytes_length]

/-! ### RS_ROSTER[k].CTRL (R132, R143, R153, R456, R466) -/

section
variable {s b : State} {k : Nat} {v : BitVec 64}

theorem roCtrl_valid (hk : k < 16) : Reg.valid ⟨.roCtrl, k, 0⟩ = true := Reg.valid_iff.2 ⟨hk, by decide⟩

theorem State.roRings_ob (s : State) (k : Nat) : (s.roRings k).ob = s.ob := s.each_ob _ _ fun _ _ => rfl

section
variable (hb : (if bit v 2 = true then s.foldTrickNow k else s) = b) (hl : (v ^^^ b.reg ⟨.roCtrl, k, 0⟩) &&& 0x30 = 0)
include hb hl

/-- A roster that becomes enabled starts with empty rings. -/
theorem writeRoCtrl_enable (hv : bit v 0 = true) (hc : bit (b.reg ⟨.roCtrl, k, 0⟩) 0 = false) (ho : b.roEnableOk k = true) :
    s.writeRoCtrl k v = ((b.plainWrite ⟨.roCtrl, k, 0⟩ v).roRings k).wakeRoster k := by
  simp only [State.writeRoCtrl, hb, hl, hv, hc, ho, ne_eq, not_true_eq_false, false_and, Bool.false_eq_true, not_false_eq_true, and_self,
    if_false, if_true]

/-- A write that keeps ENABLE, or takes it from a roster without a sequence, is stored. -/
theorem writeRoCtrl_stored (h : bit v 0 = bit (b.reg ⟨.roCtrl, k, 0⟩) 0 ∨ bit v 0 = false ∧ b.rosterHolds k = false) :
    s.writeRoCtrl k v = (b.plainWrite ⟨.roCtrl, k, 0⟩ v).wakeRoster k := by
  have noStart : ¬ (bit v 0 = true ∧ ¬ bit (b.reg ⟨.roCtrl, k, 0⟩) 0 = true) := by
    rintro ⟨on, off⟩
    obtain same | ⟨stop, -⟩ := h
    · exact off (same ▸ on)
    · simp [stop] at on
  have noRefusal : ¬ (¬ bit v 0 = true ∧ bit (b.reg ⟨.roCtrl, k, 0⟩) 0 = true ∧ b.rosterHolds k = true) := by
    rintro ⟨off, on, holds⟩
    obtain same | ⟨-, empty⟩ := h
    · exact off (same ▸ on)
    · simp [empty] at holds
  simp only [State.writeRoCtrl, hb, hl, ne_eq, not_true_eq_false, false_and, if_false]
  rw [if_neg noStart, if_neg noRefusal]

end

theorem foldTrickNow_running {t : Trick} (ht : (s.ros k).trick = some t) (hf : t.folded = false) (hr : t.resulted = false) :
    s.foldTrickNow k = (s.dropTrick k).each (s.trickNodes t.anchor) fun s y =>
      if (s.node y).st = .active ∧ (s.node y).d.kind = .loop then s else s.foldOne y := by
  simp only [State.foldTrickNow, ht, hf, hr, Bool.false_eq_true, or_self, if_false]

end

/-! ### RS_POD_PAGES (R145, R146, R455) -/

section
variable {s : State} {p : Nat} {v : BitVec 64}

theorem podPages_valid (hp : p < 16) : Reg.valid ⟨.podPages, p, 0⟩ = true := Reg.valid_iff.2 ⟨hp, by decide⟩

/-- A range of which no page is out, apart from those of the other pods and with room for the reserves, begins a new pool. -/
theorem writePodPages_apart (ho : s.pagesOut p = false) (hv : bits v 0 24 + bits v 32 25 ≤ 2 ^ 24)
    (hd : ∀ q, q < 16 → q ≠ p → bits v 0 24 + bits v 32 25 ≤ bits (s.reg ⟨.podPages, q, 0⟩) 0 24 ∨
      bits (s.reg ⟨.podPages, q, 0⟩) 0 24 + bits (s.reg ⟨.podPages, q, 0⟩) 32 25 ≤ bits v 0 24 ∨ bits v 32 25 = 0 ∨
      bits (s.reg ⟨.podPages, q, 0⟩) 32 25 = 0) (hr : s.reserveSum p 16 0 ≤ bits v 32 25) :
    s.writePodPages p v =
      (s.plainWrite ⟨.podPages, p, 0⟩ v).updPod p fun x => { x with stack := [], deep := 0, nextPage := bits v 0 24 } := by
  simp only [State.writePodPages, ho, Bool.false_eq_true, if_false]
  rw [if_neg, if_neg (Nat.not_lt.2 hr)]
  simp only [List.any_eq_true, List.mem_range, Bool.and_eq_true, decide_eq_true_eq, not_or, not_exists, not_and]
  refine ⟨Nat.not_lt.2 hv, ?_⟩
  rintro q hq ⟨⟨⟨other, below⟩, above⟩, nonempty⟩
  have := hd q hq other
  omega

end

/-! ### Residency and release entries (R266, R277, R438, R454) -/

section
variable {s : State} {i : Nat} {v : BitVec 64} {e : ResEnt}

theorem writeResSel_commit (h : bit v 16 = true) :
    s.writeResSel v = (s.plainWrite ⟨.resSel, 0, 0⟩ v).commitRes (bits v 0 12) := if_pos h

/-- A legal entry is committed, where LOADING does not go over a loaded one and an entry in use stays in place. -/
theorem commitRes_good (he : e = resOf (s.staged .resData 0 4 false)) (ht : e.target = 2 ∨ e.target = 3) (hs : e.st ≤ 4)
    (hp : s.inPodRange e.fpod 0 e.flag = true) (hl : e.st = 1 → (tget {} s.rs.resid i : ResEnt).st ≤ 1)
    (hb : e.st < 2 → s.resBusy i = false) :
    s.commitRes i = (({ s with rs := { s.rs with resid := tput {} s.rs.resid i e } } : State).loadDone).unpark := by
  subst he
  simp only [State.commitRes, hp]
  rw [if_neg, if_neg]
  · rintro ⟨out, busy⟩
    simp [hb out] at busy
  · rintro (⟨h2, h3⟩ | h | h | ⟨loading, loaded⟩)
    · exact ht.elim h2 h3
    · omega
    · exact h trivial
    · exact Nat.not_lt.2 (hl loading) loaded

theorem writeRelSel_commit (h : bit v 16 = true)
    (ho : (s.plainWrite ⟨.tbRelSel, 0, 0⟩ v).relOk ((s.plainWrite ⟨.tbRelSel, 0, 0⟩ v).staged .tbRelData 0 6 false) = true) :
    s.writeRelSel v = { s.plainWrite ⟨.tbRelSel, 0, 0⟩ v with tb := { (s.plainWrite ⟨.tbRelSel, 0, 0⟩ v).tb with
      rel := tput [] (s.plainWrite ⟨.tbRelSel, 0, 0⟩ v).tb.rel (bits v 0 8)
        (normWords ((s.plainWrite ⟨.tbRelSel, 0, 0⟩ v).staged .tbRelData 0 6 false)) } } := by
  simp only [State.writeRelSel, h, ho, if_true]

end

/-- Settles O10: an admitted write does what its register's write does, and each clause's hypotheses keep it from every refusal. -/
theorem rosterAndTimebaseRegisterWrites : Obligations.RosterAndTimebaseRegisterWrites := by
  unfold Obligations.RosterAndTimebaseRegisterWrites
  refine ⟨?enable, ?disable, ?close, ?fold, ?pages, ?residency, ?release⟩
  case enable =>
    rintro s w who k v _ h hk rfl h2 hl hc ho
    have := writeRoCtrl_enable (if_neg (ne_true_of_eq_false h2)) hl (bit_setBit_self _ _ _ (by decide)) hc ho
    have done := regIn_settled (who := who) h (roCtrl_valid hk) nofun this ((State.wakeRoster_ob ..).trans (State.roRings_ob ..))
    exact congrArg Host.Outcome.next done
  case disable =>
    rintro s w _ who k v _ h hk rfl h2 hl hr rfl
    have := writeRoCtrl_stored (if_neg (ne_true_of_eq_false h2)) hl (.inr ⟨bit_setBit_self _ _ _ (by decide), hr⟩)
    exact congrArg Host.Outcome.next (regIn_settled h (roCtrl_valid hk) nofun this rfl)
  case close =>
    rintro s w _ who k v _ h hk rfl h2 hl hc rfl
    have := writeRoCtrl_stored (if_neg (ne_true_of_eq_false h2)) hl (.inl hc)
    exact congrArg Host.Outcome.next (regIn_settled h (roCtrl_valid hk) nofun this rfl)
  case fold =>
    rintro s w _ _ who k v _ t h hk rfl ht hf hr rfl hl hc rfl
    have := writeRoCtrl_stored ((if_pos (bit_setBit_self _ _ _ (by decide))).trans (foldTrickNow_running ht hf hr)) hl (.inl hc)
    exact congrArg Host.Outcome.next ((regIn_admits h (roCtrl_valid hk) nofun who _).trans (congrArg State.flushSnap this))
  case pages =>
    intro s w who p v h hp ho hv hd hr
    exact congrArg Host.Outcome.next (regIn_settled h (podPages_valid hp) nofun (writePodPages_apart ho hv hd hr) rfl)
  case residency =>
    rintro s w _ who v _ e h rfl rfl he ht hs hp hl hb
    have := (writeResSel_commit (bit_setBit_self _ _ _ (by decide))).trans (commitRes_good he ht hs hp hl hb)
    exact congrArg Host.Outcome.next ((regIn_admits h (by decide) nofun who _).trans (congrArg State.flushSnap this))
  case release =>
    rintro s w _ who v _ h rfl rfl ho
    exact congrArg Host.Outcome.next (regIn_settled h (by decide) nofun (writeRelSel_commit (bit_setBit_self _ _ _ (by decide)) ho) rfl)

/-! ### Composing a trick (R131, R141, R143, R147, R159) -/

section
variable {s a : State} {k x : Nat} {q : Comp}

/-- ANCHOR `x` becomes ACTIVE. -/
def State.startAnchor (s : State) (x : Nat) : State := s.updNode x fun n => { n with st := .active, startedAt := s.now, place := .unit }

theorem trickCompose_next (hs : (s.node x).st = .ready) (hk : (s.node x).d.kind = .anchor) (hn : s.nextAnchor = some x)
    (hl : s.live 4 = true) (hc : (s.ctx (nkCtx x)).st = .resident) : s.trickCompose x = (s.startAnchor x).takeAnchor x := by
  obtain ⟨hr, ho⟩ := State.live_iff.1 hl
  exact if_pos ⟨hs, hk, hr, ho, hc, hn⟩

theorem composeRetry_woken (hs : (s.node x).st = .active) (ha : x ∈ (s.ros (s.node x).d.roster).anchors)
    (hw : (s.ros (s.node x).d.roster).wake = true) (hl : s.live 4 = true) (hc : (s.ctx (nkCtx x)).st = .resident) :
    s.composeRetry x = s.takeAnchor x := by
  obtain ⟨hr, ho⟩ := State.live_iff.1 hl
  exact if_pos ⟨hs, ha, hw, hr, ho, hc⟩

/-- An enabled roster without a trick that is not at the end of CLOSE composes from its lists. -/
theorem takeAnchor_lists (hk : (s.node x).d.roster = k) (he : s.roEnabled k = true) (hc : s.roCtx k = nkCtx x)
    (ht : (s.ros k).trick = none) (ho : s.roClosed k = false ∨ s.rosterHolds k = true) (hr : s.roReplayEn k = false) :
    s.takeAnchor x = s.composeLists k x := by
  have goesOn : ¬ (s.roClosed k = true ∧ ¬ s.rosterHolds k = true) := by
    rintro ⟨closed, empty⟩
    obtain opened | holds := ho
    · simp [opened] at closed
    · exact empty holds
  subst hk
  simp only [State.takeAnchor, he, hc, ht, hr, not_true_eq_false, ne_eq, or_self, Option.isSome_none, Bool.false_eq_true, if_false]
  exact if_neg goesOn

/-- FAMINE_STALL is reported once, where every sequence of the lists was skipped (log entry 17). -/
def State.tellStall (s : State) (k x skipped listed : Nat) : State :=
  if skipped ≠ 0 ∧ skipped = listed ∧ (s.ros k).stallTold = false then
    (s.updRos k fun y => { y with stallTold := true }).report { typ := 0x52, source := 0x8004, ctx := some (nkCtx x), body := [k] }
  else s

section
variable (hq : q = s.composePass k) (hb : q.bad = false)
include hq hb

theorem composeLists_taken (ht : q.taken ≠ []) : s.composeLists k x = (q.s.noteFamine k q.skipped).formTrick k x q.taken := by
  subst hq
  simp only [State.composeLists, hb, Bool.false_eq_true, if_false]
  exact if_pos ht

theorem composeLists_none (ht : q.taken = []) : s.composeLists k x =
    ((q.s.noteFamine k q.skipped).anchorWaits k x).tellStall k x q.skipped ([0, 1, 2, 3].map fun j => (s.roList k j).length).sum := by
  subst hq
  simp only [State.composeLists, hb, ht, Bool.false_eq_true, ne_eq, not_true_eq_false, if_false]
  refine ite_congr (propext ?_) (fun _ => rfl) (fun _ => rfl)
  rw [Bool.not_eq_true]
  exact and_congr_left fun ⟨all, _⟩ => all ▸ Iff.rfl

end
end

/-! ### Step templates instantiated, and a trick's end (R150 to R153, R156) -/

section
variable {s u : State} {k : Nat} {t : Trick}

/-- What instantiating the step template for trick `t`, changed by its sizes, gives. -/
def State.stepInstance (s : State) (t : Trick) : InstResult :=
  s.instantiate (nkCtx t.anchor) (s.node t.anchor).d.tplBase (s.node t.anchor).d.tplCount
    { cmd := (s.node t.anchor).cmd, parent := some t.anchor, epoch := t.epoch, owner := .node (nkIdx t.anchor) }
    (stepChange t.tokens t.capFactor)

section
variable (ht : (s.ros k).trick = some t) (hi : t.instantiated = false) (hf : t.folded = false)
include ht hi hf

theorem trickInstantiate_wanted (ha : (s.node t.anchor).st = .active) (hd : t.anchor ∉ (s.ctx (nkCtx t.anchor)).dynWait)
    (hr : s.runs 4 = true) : s.trickInstantiate k = s.instantiateTrick k := by
  simp only [State.trickInstantiate, ht]
  exact if_pos ⟨ne_true_of_eq_false hi, ne_true_of_eq_false hf, ha, hd, hr⟩

theorem instantiateTrick_bad (h : s.stepInstance t = .bad) : s.instantiateTrick k =
    (s.dynServed t.anchor).failNode t.anchor { cause := 0x09, detail := (s.node t.anchor).d.tplBase } 0x8001 := by
  unfold State.stepInstance at h
  simp only [State.instantiateTrick, ht, hi, hf, h, Bool.false_eq_true, or_self, if_false]
  rfl

theorem instantiateTrick_noRoom (h : s.stepInstance t = .noRoom) : s.instantiateTrick k = s.noRoomFor t.anchor := by
  unfold State.stepInstance at h
  simp only [State.instantiateTrick, ht, hi, hf, h, Bool.false_eq_true, or_self, if_false]

theorem instantiateTrick_ok (h : s.stepInstance t = .ok u) : s.instantiateTrick k =
    ((u.updRos k fun x => { x with trick := some { t with instantiated := true } }).dynServed t.anchor).settle := by
  unfold State.stepInstance at h
  simp only [State.instantiateTrick, ht, hi, hf, h, Bool.false_eq_true, or_self, if_false]

end

/-- What the sequences of a settled trick become; none where a result cannot be read. -/
def State.trickResults (s : State) (k : Nat) (t : Trick) : Option State :=
  if t.folded then some ((s.restoreSeqs k t).dynServed t.anchor) else s.seqEnds k t 0 t.seqs

section
variable (ht : (s.ros k).trick = some t) (hd : t.resulted = false) (hs : s.trickSettled t = true) (hr : s.runs 4 = true)
include ht hd hs hr

theorem trickEnd_unread (h : s.trickResults k t = none) : s.trickEnd k = s.failNode t.anchor { cause := 0x96 } 0x8004 := by
  unfold State.trickResults at h
  simp only [State.trickEnd, ht, hd, hs, hr, h, Bool.false_eq_true, not_true_eq_false, or_self, if_false]
  rfl

theorem trickEnd_read (h : s.trickResults k t = some u) : s.trickEnd k =
    if u.roLogEn k then u.updRos k fun x => { x with trick := some { t with resulted := true } } else u.trickOver k t := by
  unfold State.trickResults at h
  simp only [State.trickEnd, ht, hd, hs, hr, h, Bool.false_eq_true, not_true_eq_false, or_self, if_false]

end
end

/-! ### Log records and imports (R155, R156) -/

section
variable {s u v : State} {k l q : Nat} {t : Trick}

theorem logWrite_written (ht : (s.ros k).trick = some t) (hd : t.resulted = true) (hf : s.logFull k t = false) (hr : s.runs 4 = true)
    (hp : (if (s.logNeed k t).1 = 0 then some s else s.writeBytes (ctxSpace (s.roCtx k)) ((s.reg ⟨.roLogAddr, k, 0⟩).toNat +
      (s.reg ⟨.roLogWr, k, 0⟩).toNat % 2 ^ s.fld ⟨.roLogShift, k, 0⟩ 0 5 * 64) padBlock) = some u)
    (hw : u.writeBytes (ctxSpace (s.roCtx k)) ((s.reg ⟨.roLogAddr, k, 0⟩).toNat + ((s.reg ⟨.roLogWr, k, 0⟩).toNat + (s.logNeed k t).1) %
      2 ^ s.fld ⟨.roLogShift, k, 0⟩ 0 5 * 64) (t.logBytes k) = some v) :
    s.logWrite k = (v.setReg ⟨.roLogWr, k, 0⟩ (BitVec.ofNat 64
      (((s.reg ⟨.roLogWr, k, 0⟩).toNat + (s.logNeed k t).1 + (s.logNeed k t).2) % 2 ^ 32))).trickOver k t := by
  simp only [State.logWrite, ht, hd, hf, hr, hp, Option.bind_some, hw, Bool.false_eq_true, not_true_eq_false, or_self, if_false]

/-- The pages that a landed import still has to be granted. -/
def State.importNeed (s : State) (q : Nat) : Nat :=
  ceilDiv (s.seqEnt q).impTokens (s.pageTokens (s.seqEnt q).roster) - (s.seqEnt q).pages.length

/-- An imported sequence goes on with its tokens in place. -/
def State.goImported (s : State) (q : Nat) : State :=
  s.updSeq q fun e =>
    { e with kvLen := e.impTokens, imported := true, starved := false, st := if e.prefillLeft = 0 then .ready else .pending }

theorem importLanded_granted (hl : s.importLanding q = some l) (hi : (s.seqEnt q).st = .importing) (hf : (s.landing l).st = .filled)
    (hr : s.runs 4 = true) (hn : s.importNeed q ≤ s.grantable (s.seqEnt q).roster)
    (hg : (s.givePages (s.seqEnt q).roster q (s.importNeed q)).2 = true) : s.importLanded q =
      (((s.givePages (s.seqEnt q).roster q (s.importNeed q)).1.goImported q).joinTail q).wakeRoster (s.seqEnt q).roster := by
  unfold State.importNeed at hn hg ⊢
  simp only [State.importLanded, hl, hi, hf, hr, hg, Nat.not_lt.2 hn, ne_eq, not_true_eq_false, or_self, if_false, if_true]
  rfl

end

/-- Settles O31: each row finds its guard met, and what the pass takes, the room, the results or the rings give decides the rest. -/
theorem tricksRecordsAndImports : Obligations.TricksRecordsAndImports := by
  unfold Obligations.TricksRecordsAndImports
  refine ⟨?compose, ?instantiate, ?ends, ?retire, ?log, ?imported⟩
  case compose =>
    rintro s a u c i _ _ q rfl rfl hctx hl tried hk he hc ht ho hr hq hb
    have rows : ((s.node (nk c i)).st = .ready → exec (.trickCompose c i) s = .next (a.takeAnchor (nk c i))) ∧
        ((s.node (nk c i)).st = .active → exec (.composeRetry c i) s = .next (a.takeAnchor (nk c i))) := by
      obtain ⟨ready, hkind, hn, hh, rfl⟩ | ⟨active, hh, hmem, hw, rfl⟩ := tried
      · exact ⟨fun _ => congrArg Host.Outcome.next ((viaHostAt_now hh _ _).trans (trickCompose_next ready hkind hn hl hctx)),
          fun active => by simp [ready] at active⟩
      · exact ⟨fun ready => by simp [active] at ready,
          fun _ => congrArg Host.Outcome.next ((viaHostAt_now hh _ _).trans (composeRetry_woken active hmem hw hl hctx))⟩
    rw [takeAnchor_lists hk he hc ht ho hr] at rows
    refine ⟨fun taken => ?_, ?_⟩
    · rwa [composeLists_taken hq hb taken] at rows
    · rintro nothing rfl
      rwa [composeLists_none hq hb nothing] at rows
  case instantiate =>
    intro s k t r ht hi hf ha hd hr hres
    refine congrArg Host.Outcome.next ((trickInstantiate_wanted ht hi hf ha hd hr).trans ?_)
    cases r with
    | ok u => exact instantiateTrick_ok ht hi hf hres.symm
    | noRoom => exact instantiateTrick_noRoom ht hi hf hres.symm
    | bad => exact instantiateTrick_bad ht hi hf hres.symm
  case ends =>
    intro s k t r ht hd hs hr hh hres
    refine congrArg Host.Outcome.next ((viaHostAt_now hh _ _).trans ?_)
    cases r with
    | none => exact trickEnd_unread ht hd hs hr hres.symm
    | some u => exact trickEnd_read ht hd hs hr hres.symm
  case retire =>
    rintro s _ u k _ r rest hr hf hu rfl hw rfl
    exact congrArg Host.Outcome.next (retireWrite_written hr hf hu hw)
  case log =>
    rintro s u v k _ _ _ pad n t ht hd hf hr rfl rfl rfl need hp hw
    obtain ⟨rfl, rfl⟩ := Prod.mk.inj need
    exact congrArg Host.Outcome.next (logWrite_written ht hd hf hr hp hw)
  case imported =>
    rintro s _ q l _ _ hl hi hf hr rfl rfl hn hg rfl
    exact congrArg Host.Outcome.next (importLanded_granted hl hi hf hr hn hg)

end Sys2Proof.Machine
end

section
/-! Submission and completion (06_submission_and_completion.md): doorbell values, the registers of queue slots, fetching and the idle
protocol, the Report Queue's writer and vectors, the ticks and what is judged at them. -/
namespace Sys2Proof.Machine

/-! ### Doorbell values (R166, R167) -/

section
variable {s t w : State} {n : Nat} {v : BitVec 32}

theorem State.admitsBell.held (h : s.admitsBell w) : w.ob.snapHeld = [] := by
  obtain ⟨-, -, -, held, -, rfl⟩ := h
  simpa using held

/-- An admitted doorbell write that leaves the Observation Unit alone is its effect: no write is held from SNAPPED. -/
theorem admitDoorbell_settled (h : s.admitsBell w) (hd : w.doorbell n v = t) (ho : t.ob = w.ob) : s.admitDoorbell n v = t := by
  have held : t.flushSnap = t := flushSnap_nil (ho ▸ h.held)
  obtain ⟨hr, hl, hs, -, hg, rfl⟩ := h
  simpa [State.admitDoorbell, State.arrive, State.inputsWait, State.process, State.applyHeld, State.accessDoorbell, hr, hl, hs, hg, hd]
    using held

theorem doorbell_inUse (hd : (s.slot n).st ≠ .disabled) (hg : (s.slot n).st ≠ .destroying) : s.doorbell n v = s.offerValue n v := by
  unfold State.doorbell
  split
  next h => exact absurd h hd
  next h => exact absurd h hg
  next => rfl

theorem offerOk_iff : s.offerOk n v = true ↔
    (v - (s.slot n).whost).toNat ≤ 2 ^ s.ringShift n ∧ (v - (s.slot n).wdev).toNat ≤ 2 ^ s.ringShift n :=
  Bool.and_eq_true_iff.trans (and_congr decide_eq_true_iff decide_eq_true_iff)

theorem offerValue_accepted (h : s.offerOk n v = true) : s.offerValue n v = s.updSlot n fun x =>
    { x with whost := v, st := if x.st = .idle ∧ v ≠ x.wdev then .fetching else x.st } := if_pos h

theorem offerValue_refusedAgain (h : ¬ s.offerOk n v = true) (hb : bit (s.reg ⟨.slotErr, n, 0⟩) 1 = true) :
    s.offerValue n v = s.orReg ⟨.slotErr, n, 0⟩ 2 := by
  simp only [State.offerValue, h, hb]
  rfl

theorem offerValue_refused (h : ¬ s.offerOk n v = true) (hb : bit (s.reg ⟨.slotErr, n, 0⟩) 1 = false) :
    s.offerValue n v = (s.report {
      typ := 0x13, source := 0x8000, pod := some (s.slotPod n),
      body := [v.toNat + n * 2 ^ 32, (s.slot n).whost.toNat + (s.slot n).wdev.toNat * 2 ^ 32] }).orReg ⟨.slotErr, n, 0⟩ 2 := by
  simp only [State.offerValue, h, hb]
  rfl

end

/-- Settles O1: an admitted doorbell write of a slot in use offers its value, and R166's two distances with DOORBELL say what that does. -/
theorem doorbellOffer : Obligations.DoorbellOffer := by
  unfold Obligations.DoorbellOffer
  intro s w n v h hd hg
  have offer := doorbell_inUse (v := v) hd hg
  rw [← offerOk_iff]
  refine ⟨fun hw hr => ?accepted, fun bad hb => ?again, fun bad hb => ?first⟩
  case accepted =>
    exact congrArg Host.Outcome.next (admitDoorbell_settled h (offer.trans (offerValue_accepted (offerOk_iff.2 ⟨hw, hr⟩))) rfl)
  case again =>
    exact congrArg Host.Outcome.next (admitDoorbell_settled h (offer.trans (offerValue_refusedAgain bad hb)) rfl)
  case first =>
    exact congrArg Host.Outcome.next (admitDoorbell_settled h (offer.trans (offerValue_refused bad hb)) (State.report_ob ..))

/-! ### The registers of queue slots (R160, R162, R164, R196, R423, R434 to R436) -/

section
variable {s t a b : State} {n : Nat} {sp adr : Nat} {bs : List Byte}

/-- A write of bytes changes memory and its poison alone. -/
theorem writeBytes_frame (h : s.writeBytes sp adr bs = some t) : ∃ m p, t = { s with mem := m, poison := p } := by
  unfold State.writeBytes at h
  split at h
  next => cases h
  next => exact ⟨_, _, (Option.some.inj h).symm⟩

/-- So does a Front End write that is carried out: it faults no context. -/
theorem slotWrite_frame (h : s.slotWrite n adr bs = (t, true)) : ∃ m p, t = { s with mem := m, poison := p } := by
  unfold State.slotWrite at h
  split at h
  next => simp at h
  next hw => obtain ⟨rfl, -⟩ := Prod.mk.inj h; exact writeBytes_frame hw

/-- A slot as an enable leaves it before its status area is written. -/
def Slot.opened (now : Nat) (y : Slot) : Slot :=
  { y with whost := y.wdev, doneSeq := y.nextSeq - 1, buf := [], idleCheck := false, cplReset := false, notes := [], irqCount := 0,
           irqSince := none, polledAt := now }

/-- An enable whose status area is written leaves the slot IDLE. -/
theorem enable_written (hc : (s.slot n).cplReset = false) (ht : t = s.updSlot n (Slot.opened s.now))
    (ha : t.slotWrite n (t.statusAddr n) (leBytes 8 (t.slot n).doneSeq.toNat) = (a, true))
    (hb : a.slotWrite n (t.statusAddr n + 8) (leBytes 4 (t.slot n).wdev.toNat ++ leBytes 1 (t.slot n).st.code ++ zeros 3) = (b, true)) :
    s.enable n = b.updSlot n fun y => { y with st := .idle } := by
  have done : (t.writeDone n).writeIdleAt n = b := by
    rw [show t.writeDone n = a from congrArg Prod.fst ha]
    obtain ⟨_, _, rfl⟩ := slotWrite_frame ha
    exact congrArg Prod.fst hb
  have sameCtx : b.ctx (b.slotCtx n) = t.ctx (t.slotCtx n) := by
    obtain ⟨_, _, rfl⟩ := slotWrite_frame hb
    obtain ⟨_, _, rfl⟩ := slotWrite_frame ha
    rfl
  subst ht done
  simp only [State.enable, hc, Bool.false_eq_true, if_false]
  exact if_neg fun ⟨sound, faulted⟩ => sound ((congrArg Ctx.st sameCtx).symm.trans faulted)

end

section
variable {s : State} {n : Nat} {v x : BitVec 64}

/-- FE_SLOT_CFG stores ENABLE as written. -/
theorem bit_slotCfg_enable (v : BitVec 32) (b : Bool) : bit (setBit (w64 v) 0 b &&& (regRow .slotCfg).rw) 0 = b := by
  have stored : bit (regRow .slotCfg).rw 0 = true := by decide
  have := bit_setBit_self (w64 v) 0 b (by decide)
  simp only [bit] at stored this ⊢
  rw [BitVec.getLsbD_and, this, stored, Bool.and_true]

section
variable (hl : 6 ≤ bits x 11 5) (hu : bits x 11 5 ≤ 16) (pl : 1 ≤ bits x 25 7) (pu : bits x 25 7 ≤ 64)
include hl hu pl pu

theorem slotCfg_good : ¬ (bits x 11 5 < 6 ∨ 16 < bits x 11 5 ∨ bits x 25 7 = 0 ∨ 64 < bits x 25 7) := by omega

variable (hx : x = v &&& (regRow .slotCfg).rw)
include hx

/-- A DISABLED slot whose other fields, once stored, meet R162 is enabled. -/
theorem writeSlotCfg_enable (hb : bit x 0 = true) (hd : (s.slot n).st = .disabled)
    (ho : (s.setReg ⟨.slotCfg, n, 0⟩ (setBit x 0 false)).enableOk n = true) :
    s.writeSlotCfg n v = ((s.setReg ⟨.slotCfg, n, 0⟩ (setBit x 0 false)).setReg ⟨.slotCfg, n, 0⟩ x).enable n := by
  subst hx
  exact (if_neg (slotCfg_good hl hu pl pu)).trans ((if_pos hd).trans ((if_neg (not_not_intro hb)).trans (if_pos ho)))

/-- A slot without open commands is disabled by a write that keeps its other fields. -/
theorem writeSlotCfg_disable (hb : bit x 0 = false) (hi : (s.slot n).st = .idle) (ho : s.openCmds n = [])
    (hk : x &&& slotCfgFixed = s.reg ⟨.slotCfg, n, 0⟩ &&& slotCfgFixed) :
    s.writeSlotCfg n v = (s.setReg ⟨.slotCfg, n, 0⟩ x).updSlot n fun y => { y.discard with st := .disabled } := by
  subst hx
  have inUse : ¬ (s.slot n).st = .disabled := by simp [hi]
  have off : ¬ bit (v &&& (Reg.row ⟨.slotCfg, n, 0⟩).rw) 0 = true := by simp [Reg.row, hb]
  exact (if_neg (slotCfg_good hl hu pl pu)).trans
    ((if_neg inUse).trans ((if_neg (not_not_intro hk)).trans ((if_neg off).trans (if_pos ⟨hi, ho⟩))))

end

/-- DESTROY alone is written. -/
theorem writeSlotCtrl_destroy : s.writeSlotCtrl n 1 = s.destroySlot n := rfl

/-- RESTART is written, with or without SKIP. -/
theorem writeSlotCtrl_restart (skip : Bool) : s.writeSlotCtrl n (setBit 2 2 skip) = s.restartSlot n skip := by
  cases skip <;> rfl

theorem destroySlot_inUse (hd : (s.slot n).st ≠ .disabled) (hg : (s.slot n).st ≠ .destroying) :
    s.destroySlot n = (s.updSlot n fun y => { y.discard with st := .destroying, idleCheck := false }).each (s.openCmds n) fun t q =>
      t.endCmd n q stDESTROYED 0 := by
  unfold State.destroySlot
  split
  next h => exact absurd h hd
  next h => exact absurd h hg
  next => rfl

theorem restartSlot_faulted {skip : Bool} (hf : (s.slot n).st = .faulted) (ht : s.tearing (s.slotCtx n) = false) :
    s.restartSlot n skip = s.updSlot n fun y =>
      { y with wdev := if skip then y.whost else y.wdev, st := if skip = true ∨ y.whost = y.wdev then .idle else .fetching,
               polledAt := s.now, idleCheck := false } := by
  have sound : ¬ ((s.ctx (s.slotCtx n)).st = .faulted ∧ ¬ (s.ctx (s.slotCtx n)).torn) := by simpa [State.tearing] using ht
  refine (if_pos ⟨hf, sound⟩).trans ?_
  cases skip <;> simp

theorem writeCplRd_inRing (h : ((s.reg ⟨.slotCplWr, n, 0⟩).toNat + 2 ^ 32 - bits v 0 32) % 2 ^ 32 ≤ s.cplSize n) :
    s.writeCplRd n v = (if (s.slot n).st = .disabled then s else s.updSlot n fun y => { y with cplReset := true }).plainWrite
      ⟨.slotCplRd, n, 0⟩ v := if_neg (Nat.not_lt.2 h)

end

/-- Settles O2: an admitted write does what its register's write does, and the slot's state with the word's fields picks the branch. -/
theorem slotRegisterWrites : Obligations.SlotRegisterWrites := by
  unfold Obligations.SlotRegisterWrites
  refine ⟨?enable, ?disable, ?destroy, ?restart, ?cplRd⟩
  case enable =>
    rintro s w _ t a b who n v _ h hn rfl hl hu pl pu hd hc rfl ho ht ha hb
    have opened := (writeSlotCfg_enable hl hu pl pu rfl (bit_slotCfg_enable v true) hd ho).trans (enable_written hc ht ha hb)
    refine congrArg Host.Outcome.next (regIn_settled h (Reg.valid_iff.2 ⟨hn, by decide⟩) nofun opened ?_)
    obtain ⟨_, _, rfl⟩ := slotWrite_frame ha
    obtain ⟨_, _, rfl⟩ := slotWrite_frame hb
    rw [ht]
    rfl
  case disable =>
    rintro s w who n v _ h hn rfl hl hu pl pu hi ho hk
    have := writeSlotCfg_disable hl hu pl pu rfl (bit_slotCfg_enable v false) hi ho hk
    exact congrArg Host.Outcome.next (regIn_settled h (Reg.valid_iff.2 ⟨hn, by decide⟩) nofun this rfl)
  case destroy =>
    intro s w who n h hn hd hg
    have := writeSlotCtrl_destroy.trans (destroySlot_inUse hd hg)
    exact congrArg Host.Outcome.next ((regIn_admits h (Reg.valid_iff.2 ⟨hn, by decide⟩) nofun who _).trans (congrArg State.flushSnap this))
  case restart =>
    intro s w who n skip h hn hf ht
    have := (writeSlotCtrl_restart skip).trans (restartSlot_faulted hf ht)
    exact congrArg Host.Outcome.next (regIn_settled h (Reg.valid_iff.2 ⟨hn, by decide⟩) nofun this rfl)
  case cplRd =>
    intro s w who n v h hn hd
    rw [← bits_w64] at hd
    refine congrArg Host.Outcome.next (regIn_settled h (Reg.valid_iff.2 ⟨hn, by decide⟩) nofun (writeCplRd_inRing hd) ?_)
    split <;> rfl

/-! ### Fetching and the idle protocol (R165, R168, R170, R172) -/

section
variable {s : State} {n : Nat}

theorem readShadow_read {v : Nat}
    (h : (s.noteHost (ctxSpace (s.slotCtx n)) (s.reg ⟨.slotShadow, n, 0⟩).toNat).readWord (ctxSpace (s.slotCtx n))
      (s.reg ⟨.slotShadow, n, 0⟩).toNat 4 = some v) :
    s.readShadow n = (s.noteHost (ctxSpace (s.slotCtx n)) (s.reg ⟨.slotShadow, n, 0⟩).toNat).offerValue n (BitVec.ofNat 32 v) := by
  simp only [State.readShadow, h]

theorem shadowPoll_due (hs : (s.slot n).st = .idle) (hm : s.slotShadow n = true) (hl : s.live 0 = true)
    (hd : (s.slot n).polledAt + s.fld ⟨.slotCfg, n, 0⟩ 25 7 ≤ s.now) :
    s.shadowPoll n = (s.updSlot n fun x => { x with polledAt := s.now }).readShadow n := by
  obtain ⟨hr, ho⟩ := State.live_iff.1 hl
  exact if_pos ⟨hs, hm, hr, ho, hd⟩

/-- A FETCHING slot with entries, and no failed one behind it, fetches while nothing stops the Front End. -/
theorem canFetch_ready (hs : (s.slot n).st = .fetching) (hi : (s.slot n).idleCheck = false) (hl : s.live 0 = true)
    (hc : s.fetchCount n ≠ 0) (hb : ∀ e, (s.slot n).buf.getLast? = some e → e.bytes ≠ none) : s.canFetch n = true := by
  obtain ⟨hr, ho⟩ := State.live_iff.1 hl
  cases hg : (s.slot n).buf.getLast? with
  | none => simp [State.canFetch, hs, hi, hr, ho, hc, hg]
  | some e =>
    obtain ⟨bs, he⟩ := Option.ne_none_iff_exists'.1 (hb e hg)
    simp [State.canFetch, hs, hi, hr, ho, hc, hg, he]

theorem fetchArrive_canFetch (h : s.canFetch n = true) :
    s.fetchArrive n = (((s.noteHost (ctxSpace (s.slotCtx n)) ((s.reg ⟨.slotRing, n, 0⟩).toNat +
      (s.slot n).wdev.toNat % s.ringSize n * 64)).updSlot n fun x =>
        { x with
          buf := x.buf ++ s.readEntries n (s.slot n).wdev (s.fetchCount n),
          wdev := x.wdev + BitVec.ofNat 32 (s.readEntries n (s.slot n).wdev (s.fetchCount n)).length }).idleStep n).settleHead n := if_pos h

/-- The slot is the last one fetched in its class. -/
def State.fetchedLast (s : State) (n : Nat) : State :=
  { s with fe := { s.fe with lastFetch := tput 255 s.fe.lastFetch (s.slotPrio n) n } }

/-- The slot whose turn it is fetches at once where its entries are not in host memory under LOCKSTEP. -/
theorem ringFetch_turn (hn : s.nextFetch = some n) (ho : s.fetchesOut.length < 8)
    (hh : s.atOnce (some (ctxSpace (s.slotCtx n), (s.reg ⟨.slotRing, n, 0⟩).toNat + (s.slot n).wdev.toNat % s.ringSize n * 64)) = true) :
    s.ringFetch n = (s.fetchedLast n).fetchArrive n :=
  (if_pos ⟨hn, ho⟩).trans (viaHost_now (s := s.fetchedLast n) hh _ _)

theorem slotIdleCheck_due (hs : (s.slot n).st = .fetching) (hi : (s.slot n).idleCheck = true) (hl : s.live 0 = true) :
    s.slotIdleCheck n = (if s.slotShadow n then s.readShadow n else s).updSlot n fun x =>
      { x with
        idleCheck := false, st := if x.whost = x.wdev then .idle else x.st,
        polledAt := (if s.slotShadow n then s.readShadow n else s).now } := by
  obtain ⟨hr, ho⟩ := State.live_iff.1 hl
  exact if_pos ⟨hs, hi, hr, ho⟩

/-- The check is made at once where it reads no shadow word, or one that no lockstep tick holds. -/
theorem exec_slotIdleCheck
    (h : s.slotShadow n = true → s.atOnce (some (ctxSpace (s.slotCtx n), (s.reg ⟨.slotShadow, n, 0⟩).toNat)) = true) :
    exec (.slotIdleCheck n) s = .next (s.slotIdleCheck n) := by
  refine congrArg Host.Outcome.next ?_
  split
  next hm => exact viaHost_now (h hm) _ _
  next => rfl

end

/-! ### The end of a destroy, and coalesced notices (R184, R196) -/

section
variable {s : State} {n : Nat}

/-- The sum of a count over commands of slot `n`. -/
def State.total (s : State) (n : Nat) (qs : List Nat) (f : Cmd → Nat) : Nat := (qs.map fun q => ((s.cmd n q).map f).getD 0).sum

/-- The record that a destroyed slot's commands leave together. -/
def State.destroyedRecord (s : State) (n : Nat) : CplRec := {
  seq := (s.slot n).nextSeq.toNat - 1, status := 2, folded := s.total n (s.openCmds n) Cmd.folded,
  drained := min (s.total n (s.openCmds n) Cmd.drained) 65535, killed := min (s.total n (s.openCmds n) Cmd.killed) 65535,
  ctx := s.slotCtx n, destroyed := true }

/-- The slot's commands are freed and counted as retired. -/
def State.freeOpen (s : State) (n : Nat) : State :=
  (s.each (s.openCmds n) fun t q => t.freeCmd n q).bump (gcnt 13) (s.openCmds n).length

/-- With no latch record to write, the settled commands are freed, one record is filed, and with none waiting the destroy ends. -/
theorem destroyFinish_settled (hs : (s.slot n).st = .destroying) (hr : s.runs 0 = true) (hq : (s.openCmds n).all (s.cmdSettled n) = true)
    (hw : (s.slot n).waiting.any CplRec.destroyed = false) (hl : (s.freeOpen n).latchOn n = false) :
    s.destroyFinish n =
      if (((s.freeOpen n).fileRecord n (s.destroyedRecord n)).slot n).waiting = [] then
        ((s.freeOpen n).fileRecord n (s.destroyedRecord n)).destroyEnd n
      else (s.freeOpen n).fileRecord n (s.destroyedRecord n) := by
  have unlatched : (if (s.freeOpen n).latchOn n then (s.freeOpen n).latch n ((s.slot n).nextSeq.toNat - 1) 0 1 stDESTROYED
      else s.freeOpen n) = s.freeOpen n := if_neg (by simp [hl])
  refine (if_pos ⟨hs, hr, hq, by simp [hw]⟩).trans ?_
  rw [← unlatched]
  rfl

theorem irqTimeout_due {t : Nat} (hi : (s.slot n).irqSince = some t) (hd : t + s.fld ⟨.slotIrq, n, 0⟩ 16 10 ≤ s.now) (hr : s.runs 0 = true) :
    s.irqTimeout n = s.slotSignal n := by
  simp only [State.irqTimeout, hi]
  exact if_pos ⟨hd, hr⟩

end

/-- Settles O13: each row finds its guard met, and the reads it makes, the room of the ring or the coalescing time give what follows. -/
theorem slotFetchEvents : Obligations.SlotFetchEvents := by
  unfold Obligations.SlotFetchEvents
  refine ⟨?poll, ?fetch, ?idle, ?destroyed, fun s n t hi hd hr => congrArg Host.Outcome.next (irqTimeout_due hi hd hr)⟩
  case poll =>
    rintro s _ n v hs hm hl hd hh rfl hv
    exact congrArg Host.Outcome.next ((viaHost_now hh _ _).trans ((shadowPoll_due hs hm hl hd).trans (readShadow_read hv)))
  case fetch =>
    rintro s _ n _ hn ho hs hi hl hc hb hh rfl rfl
    have can : (s.fetchedLast n).canFetch n = true := canFetch_ready (s := s.fetchedLast n) hs hi hl hc hb
    exact congrArg Host.Outcome.next ((ringFetch_turn hn ho hh).trans (fetchArrive_canFetch can))
  case idle =>
    intro s n hs hi hl hh
    exact (exec_slotIdleCheck hh).trans (congrArg Host.Outcome.next (slotIdleCheck_due hs hi hl))
  case destroyed =>
    rintro s _ _ n _ hs hr rfl hq hw - rfl hl rfl
    exact congrArg Host.Outcome.next (destroyFinish_settled hs hr hq hw hl)

/-! ### The Report Queue's writer, and vectors (R184, R187 to R190) -/

section
variable {s a u : State} {p : Packet} {rest : List Packet} {v : Nat}

/-- With room for it and its PAD, and both written, the packet leaves the FIFO. -/
theorem writePacket_room (hr : s.rqFill + s.padFor p.length + p.length ≤ s.rqSize)
    (hp : (if s.padFor p.length = 0 then some s else s.rqPut (s.padBytes (s.padFor p.length))) = some a)
    (hu : a.rqPut (p.bytes a.fe.pktSeq.toNat) = some u) :
    s.writePacket p rest =
      (({ u with fe := { u.fe with fifo := rest } } : State).refillFifo.packetDone p a.fe.pktSeq.toNat).highCheck := by
  refine (if_neg (Nat.not_lt.2 hr)).trans ?_
  simp only [hp, hu]

theorem packetWrite_oldest (hg : s.rqGood = true) (hf : s.fe.fifo = p :: rest) (hw : s.writerOn = true) :
    s.packetWrite = s.writePacket p rest := by
  refine (if_neg (not_not_intro hg)).trans ?_
  simp only [hf, hw, if_true]

theorem vectorSignal_due (hv : v ∈ s.fe.vecHeld) (hd : tget 0 s.fe.vecLast v ≤ s.now) :
    s.vectorSignal v = ({ s with fe := { s.fe with
      vecHeld := s.fe.vecHeld.filter (· ≠ v), vecLast := tput 0 s.fe.vecLast v (s.now + 1) } } : State).msixNow v := if_pos ⟨hv, hd⟩

/-- The vector's mask bit is cleared. -/
def State.unmasked (s : State) (v : Nat) : State := { s with fe := { s.fe with msixMask := s.fe.msixMask.filter (· ≠ v) } }

theorem msixUnmask_masked (hv : v ∈ s.fe.msixMask) :
    s.msixUnmask v = if v ∈ s.fe.msixPend then
      ({ s.unmasked v with fe := { (s.unmasked v).fe with msixPend := s.fe.msixPend.filter (· ≠ v) } } : State).emit (.msix v)
    else s.unmasked v := if_pos hv

end

/-! ### Deadline and lockstep ticks (R253, R326, R363, R373) -/

section
variable {s t : State}

@[simp] theorem State.supplyTick_lockstep : s.supplyTick.lockstep = s.lockstep := rfl

@[simp] theorem State.supplyTick_gated (u : Nat) : s.supplyTick.gated u = s.gated u := rfl

theorem deadlineTick_resetDue (h : s.st.resetDue = true) : s.deadlineTick = s.chipReset.emit .linkLost := if_pos h

/-- Outside LOCKSTEP, with the Timebase's clock running, a deadline tick counts dips' µs and does what a tick does. -/
theorem deadlineTick_running (hd : s.st.resetDue = false) (hl : s.lockstep = false) (hg : s.gated 5 = false) :
    s.deadlineTick = s.supplyTick.tickCore :=
  (if_neg (by simp [hd])).trans (if_neg (by simp [hl, hg]))

/-- In LOCKSTEP, with no dip, a lockstep tick does what a tick does, counts, and admits the inputs; those that HOLD still held follow
at tick 0 of a restart that ends the hold, and when LOCKSTEP is left. -/
theorem lockstepTick_falls (hi : s.inputsWait = true) (hg : s.gated 5 = false) (hd : ∀ d, d < 9 → s.dipped d = false)
    (ht : t = (s.tickCore.bump ⟨.tsuLsTick, 0, 0⟩ 1).admitAll s.holding) :
    s.lockstepTick = if t.lockstep = false ∨ (t.reg ⟨.tsuLsTick, 0, 0⟩ = 0 ∧ t.holding = false) then t.admitAll false else t := by
  have undipped : (List.range 9).any s.dipped = false := by simpa [List.any_eq_false] using hd
  subst ht
  refine (if_neg (by simp [hi, hg, undipped])).trans ?_
  simp only [Bool.not_eq_true]

end

/-! ### Gates judged, and the slow-down report (R280, R281, R286) -/

section
variable {s t : State} {k : Nat}

/-- What a gate's age and the path that remains must not pass: its deadline less its margin. -/
def State.gateLimit (s : State) (k : Nat) : Int := ((s.node k).d.deadline : Int) - (s.node k).d.margin

/-- The gate is predicted to meet its deadline, or its miss has been told. -/
def State.gateSettled (s : State) (k : Nat) : Prop :=
  ((s.gateAge k * 1350 + s.remaining k : Nat) : Int) ≤ s.gateLimit k * 1350 ∨ (s.node k).predicted = true

/-- The gate is evaluated in this tick. -/
def State.judged (s : State) (k : Nat) : State := s.updNode k fun n => { n with evaluatedAt := s.now }

/-- The packet that tells of a gate predicted late. -/
def State.latePacket (s : State) (k typ : Nat) : Packet :=
  { typ := typ, source := 0x8005, ctx := some (nkCtx k),
    body := [(s.judged k).nodeArg k, s.gateAge k, s.remaining k, (s.gateLimit k % 2 ^ 64).toNat] }

theorem monitor_armed (ha : (s.node k).gst = .armed) (hl : (s.node k).left ≠ []) (hu : (s.node k).unmon = false)
    (he : (s.node k).evaluatedAt < s.now) (hc : (s.ctx (nkCtx k)).st = .resident) (hr : s.runs 5 = true) :
    s.monitor k = s.evaluate k := if_pos ⟨ha, hl, by simp [hu], he, hc, hr⟩

/-- The test by which `evaluate` stops at the mark. -/
theorem evaluate_guard : (¬ decide (((s.gateAge k * 1350 + s.remaining k : Nat) : Int) > s.gateLimit k * 1350) = true ∨
    (s.node k).predicted = true) ↔ s.gateSettled k := or_congr_left (by rw [decide_eq_true_eq, Int.not_lt])

theorem evaluate_settled (h : s.gateSettled k) : s.evaluate k = s.judged k := if_pos (evaluate_guard.2 h)

/-- In FREE a gate predicted late takes its fallback. -/
theorem evaluate_free (h : ¬ s.gateSettled k) (hd : (s.judged k).det = 0) :
    s.evaluate k = ((((s.judged k).report (s.latePacket k 0x64)).bump ⟨.tbFallbacks, 0, 0⟩ 1).fallbackTaken k).settle :=
  (if_neg (mt evaluate_guard.1 h)).trans (if_pos hd)

/-- Outside FREE its miss is told once. -/
theorem evaluate_told (h : ¬ s.gateSettled k) (hd : ¬ (s.judged k).det = 0) :
    s.evaluate k = ((s.judged k).report (s.latePacket k 0x65)).updNode k fun n => { n with predicted := true } :=
  (if_neg (mt evaluate_guard.1 h)).trans (if_neg hd)

/-- After 1,000 ticks the block is written under the next number, and the counts restart. -/
theorem slowReport_written (hd : s.dl.slowAt + 1000 ≤ s.now) (ho : s.hubOn = true) (ha : s.reg ⟨.slowdownAddr, 0, 0⟩ ≠ 0)
    (hw : s.writeBytes devSpace (s.reg ⟨.slowdownAddr, 0, 0⟩).toNat (s.slowBlock (s.dl.slowSeq + 1)) = some t) :
    s.slowReport = { t with dl := { t.dl with slow := [], slowSeq := s.dl.slowSeq + 1, slowAt := s.dl.slowAt + 1000 } } := by
  have placed : (s.reg ⟨.slowdownAddr, 0, 0⟩).toNat ≠ 0 := fun e => ha (BitVec.eq_of_toNat_eq e)
  refine (if_pos ⟨hd, ho⟩).trans ?_
  simp only [if_neg placed, hw]

end

/-- Settles O23: each row finds its guard met, and the room, the masks, the mode or the prediction gives what follows. -/
theorem queueWriterVectorsAndTicks : Obligations.QueueWriterVectorsAndTicks := by
  unfold Obligations.QueueWriterVectorsAndTicks
  refine ⟨?packet, fun s v hv hd => congrArg Host.Outcome.next (vectorSignal_due hv hd), ?unmask,
    fun s h => congrArg Host.Outcome.next (deadlineTick_resetDue h),
    fun s hd hl hg => congrArg Host.Outcome.next (deadlineTick_running hd hl hg),
    fun s t hi hg hd ht => congrArg Host.Outcome.next (lockstepTick_falls hi hg hd ht), ?gate,
    fun s t hd ho ha hw => congrArg Host.Outcome.next (slowReport_written hd ho ha hw)⟩
  case packet =>
    rintro s a u p rest _ hg hf hw rfl hr ha hu
    exact congrArg Host.Outcome.next ((packetWrite_oldest hg hf hw).trans (writePacket_room hr ha hu))
  case unmask =>
    rintro s _ v hv rfl
    exact congrArg Host.Outcome.next (msixUnmask_masked hv)
  case gate =>
    rintro s _ _ c i _ _ _ _ rfl ha hl hu he hc hr rfl rfl rfl rfl rfl
    refine congrArg Host.Outcome.next ((monitor_armed ha hl hu he hc hr).trans ?_)
    split
    next h => exact evaluate_settled h
    next h =>
      split
      next hd => exact evaluate_free h hd
      next hd => exact evaluate_told h hd

end Sys2Proof.Machine
end

section
/-! Synchronisation objects (07_synchronisation_objects.md): the registers of the Sync Unit, engines' operations on objects, and saves,
suspensions and donations. -/
namespace Sys2Proof.Machine

/-! ### The registers of the Sync Unit (R201, R204, R226, R227, R451 to R453) -/

section
variable {s t : State} {v : BitVec 64}

theorem selectObj_legal (hk : bits v 24 2 ≠ 3) (hi : bits v 24 2 = 2 → bits v 0 18 < 65536) :
    s.selectObj v = (s.plainWrite ⟨.objSel, 0, 0⟩ v).captureView :=
  if_neg fun h => h.elim hk fun ⟨tally, beyond⟩ => Nat.not_le.2 (hi tally) beyond

/-- The object as SY_OBJ_INIT leaves it: a tally alone has a partner, a role and a depth, and an owner is no part of a claim. -/
def State.initialised (s : State) : SyncObj :=
  let kind := s.fld ⟨.objSel, 0, 0⟩ 24 2
  let init := s.reg ⟨.objInitValue, 0, 0⟩
  let ctrl (lo w : Nat) : Nat := s.fld ⟨.objInitCtrl, 0, 0⟩ lo w
  { s.obj s.selKey with
    alloc := true, kind := kind, overset := 0, status := 0, orphaned := false, lastSrc := 0,
    value := if kind = 2 then init.setWidth 48 else if kind = 0 then BitVec.ofNat 48 (init.toNat % 2) else 0,
    owner := if kind = 1 then 0 else BitVec.ofNat 9 (ctrl 0 9),
    partner := if kind = 2 then BitVec.ofNat 16 (ctrl 32 16) else 0,
    role := if kind = 2 then BitVec.ofNat 2 (ctrl 12 2) else 0,
    depth := if kind = 2 then BitVec.ofNat 16 (ctrl 16 16) else 0 }

/-- An unpinned object of the context's pod is initialised, in a legal role and, as a paired tally, with a legal partner and depth. -/
theorem initObj_legal (hp : (s.obj s.selKey).pinned = false)
    (hr : s.inPodRange (s.podOf (s.fld ⟨.objInitCtrl, 0, 0⟩ 0 9)) (s.fld ⟨.objSel, 0, 0⟩ 24 2) (objIdx s.selKey) = true)
    (h3 : s.fld ⟨.objInitCtrl, 0, 0⟩ 12 2 ≠ 3)
    (hq : s.fld ⟨.objSel, 0, 0⟩ 24 2 = 2 → s.fld ⟨.objInitCtrl, 0, 0⟩ 12 2 ≠ 0 →
      s.inPodRange (s.podOf (s.fld ⟨.objInitCtrl, 0, 0⟩ 0 9)) 2 (s.fld ⟨.objInitCtrl, 0, 0⟩ 32 16) = true ∧
        s.fld ⟨.objInitCtrl, 0, 0⟩ 32 16 ≠ objIdx s.selKey)
    (hd : s.fld ⟨.objSel, 0, 0⟩ 24 2 = 2 → s.fld ⟨.objInitCtrl, 0, 0⟩ 12 2 = 1 → s.fld ⟨.objInitCtrl, 0, 0⟩ 16 16 ≠ 0) :
    s.initObj = (s.setObj s.selKey s.initialised).captureView.loadDone := by
  refine (if_neg ?_).trans ?_
  · rintro (pinned | outside | noRole | ⟨tally, paired, badPartner⟩ | ⟨tally, producer, noDepth⟩)
    · simp [hp] at pinned
    · exact outside hr
    · exact h3 noRole
    · obtain ⟨inside, other⟩ := hq tally (by omega)
      exact badPartner.elim (· inside) other
    · exact hd tally producer noDepth
  · simp only [State.initialised, decide_eq_true_eq]

theorem writeInitCtrl_commit (h : bit v 63 = true) : s.writeInitCtrl v = (s.plainWrite ⟨.objInitCtrl, 0, 0⟩ v).initObj := if_pos h

theorem writeReg_objFree {who : Requester} (h : bit v 0 = true) : s.writeReg who ⟨.objFree, 0, 0⟩ v = s.freeObj := if_pos h

theorem freeObj_unpinned (h : (s.obj s.selKey).pinned = false) :
    s.freeObj = (s.updObj s.selKey fun o => { o with alloc := false }).captureView := if_neg (by simp [h])

theorem startXlatInv_idle (h : s.sy.inv = none) :
    s.startXlatInv v = { s with sy := { s.sy with inv := some (bits v 32 9, if bit v 48 then none else some (bits v 0 24)) } } :=
  if_neg (by simp [h])

theorem writeSyDump_start (hv : bit v 0 = true) (hm : bits v 4 2 ≠ 3) (hb : s.sy.dumpBusy = false) :
    s.writeSyDump v = (s.plainWrite ⟨.dumpCtrl, 0, 0⟩ v).startSyDump := by
  refine (if_neg ?_).trans (if_pos hv)
  rintro (badMode | ⟨-, busy⟩)
  · exact hm badMode
  · simp [hb] at busy

/-- The objects that SY_DUMP's mode selects: all, those of a pod's ranges, or those that a context owns. -/
def State.dumpKeys (s : State) : List Nat :=
  s.objKeys fun k o => match s.fld ⟨.dumpCtrl, 0, 0⟩ 4 2 with
    | 1 => s.inPodRange (s.fld ⟨.dumpCtrl, 0, 0⟩ 16 4) o.kind (objIdx k)
    | 2 => decide (o.owner.toNat = s.fld ⟨.dumpCtrl, 0, 0⟩ 16 9) && (decide (o.kind ≠ 1) || decide (o.value = 1))
    | _ => true

/-- With room for the header, the records are written behind its place. -/
theorem startSyDump_roomy {d : List Byte × List Byte} (hb : s.sy.dumpBusy = false) (hs : 64 ≤ s.fld ⟨.dumpSize, 0, 0⟩ 0 32)
    (hd : d = s.dumpBytes s.dumpKeys (s.fld ⟨.dumpSize, 0, 0⟩ 0 32))
    (ht : ({ s with sy := { s.sy with dumpBusy := true, dumpAt := (s.reg ⟨.dumpAddr, 0, 0⟩).toNat, dumpHeader := d.1 } } : State).writeBytes
      devSpace ((s.reg ⟨.dumpAddr, 0, 0⟩).toNat + 64) d.2 = some t) : s.startSyDump = t := by
  subst hd
  have room : ¬ s.fld ⟨.dumpSize, 0, 0⟩ 0 32 < 64 := Nat.not_lt.2 hs
  refine (if_neg (ne_true_of_eq_false hb)).trans ((if_neg room).trans ?_)
  simp only [if_neg room]
  exact congrArg (Option.getD · _) ht

end

/-- Settles O5: an admitted write does what its register's write does, and each clause's hypotheses keep it from every refusal. -/
theorem syncObjectRegisterWrites : Obligations.SyncObjectRegisterWrites := by
  unfold Obligations.SyncObjectRegisterWrites
  refine ⟨?select, ?single, ?tally, ?free, ?invalidate, ?dump⟩
  case select =>
    intro s w who v h hk hi
    exact congrArg Host.Outcome.next (regIn_settled h (by decide) nofun (selectObj_legal hk hi) rfl)
  case single =>
    rintro s w _ who v _ _ _ h rfl rfl rfl hk rfl hp hr h3
    have inits := (writeInitCtrl_commit (s := w) (bit_setBit_self v 63 true (by decide))).trans
      (initObj_legal hp hr h3 (absurd · hk) (absurd · hk))
    simp only [State.initialised, if_neg hk] at inits
    exact congrArg Host.Outcome.next ((regIn_admits h (by decide) nofun who _).trans (congrArg State.flushSnap inits))
  case tally =>
    rintro s w _ who v _ _ _ _ h rfl rfl hk rfl rfl rfl hp hr h3 hq hd
    have inits := (writeInitCtrl_commit (s := w) (bit_setBit_self v 63 true (by decide))).trans
      (initObj_legal hp (by rwa [hk]) h3 (fun _ => hq) fun _ => hd)
    simp only [State.initialised, hk, if_true, if_neg (show ¬ (2 : Nat) = 1 by decide)] at inits
    exact congrArg Host.Outcome.next ((regIn_admits h (by decide) nofun who _).trans (congrArg State.flushSnap inits))
  case free =>
    intro s w who v h hp
    have := (writeReg_objFree (s := w) (who := who) (bit_setBit_self (w64 v) 0 true (by decide))).trans (freeObj_unpinned hp)
    exact congrArg Host.Outcome.next (regIn_settled h (by decide) nofun this rfl)
  case invalidate =>
    intro s w who v h hi
    exact congrArg Host.Outcome.next (regIn_settled h (by decide) nofun (startXlatInv_idle hi) rfl)
  case dump =>
    rintro s w _ t who v _ d h rfl hm hb rfl hs hd ht
    have dumps := (writeSyDump_start (bit_setBit_self (w64 v) 0 true (by decide)) hm hb).trans (startSyDump_roomy hb hs hd ht)
    refine congrArg Host.Outcome.next (regIn_settled h (by decide) nofun dumps ?_)
    obtain ⟨_, _, rfl⟩ := writeBytes_frame ht
    rfl

/-! ### Operations of engines (R206 to R213, R217, R225, R246) -/

section
variable {s t : State} {e vid c key : Nat} {sc : Sys2Proof.Scope} {q : SyncReq} {w : BitVec 64}

/-- A RELEASE by the claim's holder. -/
theorem release_holder (hv : (s.obj key).value ≠ 0) (ho : (s.obj key).owner.toNat = c) : s.release key c =
    match (s.obj key).waiters.find? fun w => w.claimer with
    | some w => (((((s.endDonation key).forgetClaim key).grant key w.ctx (if w.engine then some w.who else none)).mirrorAll key).releaseOk
        key w).checkDonation key
    | none => (((s.endDonation key).forgetClaim key).updObj key fun o => { o with value := 0, owner := 0 }).objChanged key :=
  if_neg fun h => h.elim hv fun other => other ho

theorem release_other (h : (s.obj key).value = 0 ∨ (s.obj key).owner.toNat ≠ c) : s.release key c = s.misuse key 4 c := if_pos h

theorem exec_syncWait {cond : Sys2Proof.Cond} {thr : BitVec 48} (h : cond ≠ .claim) :
    exec (.syncWait e vid sc cond thr) s = .next (s.engineReq e vid sc (.wait (condCode cond) thr.toNat)) := by
  cases cond with
  | claim => exact absurd rfl h
  | _ => rfl

section
variable (hq : q.src = .engine e c)
include hq

theorem answerWait_engine_ok (x : Nat) :
    s.answerWait key q .ok x = (s.acquire key q.scope q.src.ctx (.engine e)).emit (.answer e .ok (BitVec.ofNat 64 x)) := by
  simp only [State.answerWait, hq, SyncSrc.ctx, if_true]

theorem answerWait_engine_busy : s.answerWait key q .busy 0 = s.emit (.answer e .busy 0) := by
  simp only [State.answerWait, hq, reduceCtorEq, if_false, BitVec.ofNat_eq_ofNat]

theorem waitOn_engine (cond thr : Nat) : s.waitOn key q w cond thr =
    if (s.obj key).holds cond thr then s.answerWait key q .ok 0 else s.enlist key q w false cond thr := by
  simp only [State.waitOn, hq]

theorem claimOn_engine : s.claimOn key q w =
    if (s.obj key).value = 0 then ((s.grant key q.src.ctx (some e)).objChanged key).answerWait key q .ok 0
    else (s.enlist key q w true 3 0).checkDonation key := by
  simp only [State.claimOn, hq, SyncSrc.ctx]

theorem tryClaimOn_engine : s.tryClaimOn key q =
    if (s.obj key).value = 0 then ((s.grant key q.src.ctx (some e)).objChanged key).answerWait key q .ok 0
    else s.answerWait key q .busy 0 := by
  simp only [State.tryClaimOn, hq, SyncSrc.ctx]

end

/-- The source of an engine's request is that engine. -/
theorem State.asks.src {op : SyncOp} (h : s.asks t e vid sc op q w key) : q.src = .engine e q.src.ctx := by
  obtain ⟨c, hc⟩ := asks_src h
  rw [hc, SyncSrc.ctx]

end

/-- Settles O17: a request that reaches its object is counted and applied, and the object's value and holder say with what effect. -/
theorem engineSyncOperations : Obligations.EngineSyncOperations := by
  unfold Obligations.EngineSyncOperations
  refine ⟨?set, ?clear, ?advance, ?held, ?refused, ?wait, fun _ _ _ _ _ => rfl, ?claim, ?tryClaim, ?read⟩
  case set =>
    rintro s a _ e vid sc q w key h rfl
    exact congrArg Host.Outcome.next (engineReq_op h)
  case clear =>
    rintro s a _ e vid sc q w key h rfl
    exact congrArg Host.Outcome.next (engineReq_op h)
  case advance =>
    rintro s a _ e vid sc q w key _ _ amt h rfl rfl rfl
    exact congrArg Host.Outcome.next (engineReq_op h)
  case held =>
    rintro s a _ _ e vid sc q w key h rfl hv ho rfl
    exact congrArg Host.Outcome.next ((engineReq_op h).trans (release_holder hv ho))
  case refused =>
    rintro s a _ e vid sc q w key h rfl hr
    exact congrArg Host.Outcome.next ((engineReq_op h).trans (release_other hr))
  case wait =>
    intro s a e vid sc q w key cond thr hc h
    rw [exec_syncWait hc, engineReq_op h]
    simp only [waitOn_engine h.src, answerWait_engine_ok h.src, State.counted_obj, BitVec.ofNat_eq_ofNat]
  case claim =>
    intro s a e vid sc q w key h
    refine congrArg Host.Outcome.next ((engineReq_op h).trans ?_)
    simp only [claimOn_engine h.src, answerWait_engine_ok h.src, State.counted_obj, BitVec.ofNat_eq_ofNat]
  case tryClaim =>
    intro s a e vid sc q w key h
    refine congrArg Host.Outcome.next ((engineReq_op h).trans ?_)
    simp only [tryClaimOn_engine h.src, answerWait_engine_ok h.src, answerWait_engine_busy h.src, State.counted_obj, BitVec.ofNat_eq_ofNat]
  case read =>
    intro s a e vid sc q w key h
    exact congrArg Host.Outcome.next ((engineReq_op h).trans (answerWait_engine_ok h.src _))

/-! ### Saves and restores (R221, R260, R261) -/

section
variable {s a t : State} {c : Nat} {img : List Byte}

/-- With room for its image, and that written, the context leaves for SAVED. -/
theorem finishSave_written (ha : a = (s.withdrawAll c).flushXlat c) (hl : (a.saveImage c).length ≤ (a.reg ⟨.ctxSaveSize, c, 0⟩).toNat)
    (ht : a.writeBytes devSpace (a.reg ⟨.ctxSaveAddr, c, 0⟩).toNat (a.saveImage c) = some t) :
    s.finishSave c = ((t.leaveSaved c (a.saveImage c).length (leAt (a.saveImage c) 0x5C 4)).settlePend c).tellDonations c := by
  simp only [State.finishSave, ← ha, if_neg (Nat.not_lt.2 hl), ht]

theorem saveImageWrite_settled (hs : s.saveSettled c = true) (hr : s.runs 1 = true) (hf : (s.ctx c).faultedInSave = false)
    (hc : (s.ctx c).st = .saving) : s.saveImageWrite c = (s.finishSave c).swapNext (s.podOf c) := by
  have ready : ¬ (¬ s.saveSettled c = true ∨ ¬ s.runs 1 = true) := by simp [hs, hr]
  simp only [State.saveImageWrite, if_neg ready, if_neg (ne_true_of_eq_false hf), if_pos hc]

/-- An image that is read and passes every check is what the context is rebuilt from; no auto-swap brings it in. -/
theorem restoreComplete_good (hc : (s.ctx c).st = .restoring) (hr : s.runs 1 = true)
    (ha : a = s.noteHost devSpace (s.reg ⟨.ctxSaveAddr, c, 0⟩).toNat) (hi : a.readImage c = .ok img) (hg : a.restoreCause c img = none)
    (ht : t = (a.restoreFrom c img).settlePend c) (hw : (t.pod (s.podOf c)).swapIn = none) : s.restoreComplete c = t := by
  have due : ¬ ((s.ctx c).st ≠ .restoring ∨ ¬ s.runs 1 = true) := by simp [hc, hr]
  simp only [State.restoreComplete, if_neg due, ← ha, hi, hg, ← ht, hw]

end

/-! ### Suspended tasks, and donations past their limit (R257, R258, R269) -/

section
variable {s : State} {e u addr : Nat} {q : Option Nat} {l : Launch}

section
variable (hj : (s.eng e).job = some l) (hu : (s.eng e).susp = some (u, addr, q))
include hj hu

theorem suspendReport_taken {a b d : State} (hp : s.portHolds e = false) (hz : (s.eng e).reset = none) (hr : s.runs 2 = true)
    (ha : a = ((s.closeWatch e).updEng e fun x => { x with susp := none }).freeUp e)
    (hb : b = a.addEnt (engRegion e) l.key (some { launch := l, engine := e, addr := addr, since := a.now, claims := (s.eng e).claims }))
    (hd : d = (b.bump (ctxCnt l.ctx 3) 1).traceNode 5 (engRegion e) l.key (some e) l.panel) :
    s.suspendReport e = ((match q with | some t => d.holdFor e t | none => d).rehomeAnd false fun _ => false).checkDonations := by
  subst ha hb hd
  have taken : ¬ (s.portHolds e = true ∨ (s.eng e).reset.isSome = true ∨ ¬ s.runs 2 = true) := by simp [hp, hz, hr]
  cases q <;> simp only [State.suspendReport, hj, hu, if_neg taken]

theorem suspendTimeout_late (ht : u + s.fld ⟨.podPreempt, s.podOf l.ctx, 0⟩ 16 10 ≤ s.now) (hr : s.runs 2 = true) :
    s.suspendTimeout e = ((s.updCtx l.ctx fun c => { c with suspUsed := c.suspUsed.filter (· ≠ addr) }).updEng e
      fun y => { y with susp := none }).bump ⟨.podSuspLate, s.podOf l.ctx, 0⟩ 1 := by
  simp only [State.suspendTimeout, State.dropSusp, hj, hu]
  exact if_pos ⟨ht, hr⟩

end

theorem donateTimeout_late {f : Nat} {d : Donation} (hd : s.sy.donations.find? (fun d => decide (d.flag = f)) = some d)
    (ht : d.since + s.fld ⟨.donateLimit, 0, 0⟩ 0 20 ≤ s.now) (hm : s.timersOn = true) (hr : s.runs 3 = true) :
    s.donateTimeout f = (s.endDonation f).ctxFault d.holder { status := stCLAIM_TIMEOUT, detail := f } 0x8003 := by
  simp only [State.donateTimeout, hd]
  exact if_pos ⟨ht, hm, hr⟩

end

/-! ### All contexts blocked, and auto-swap (R271, R272) -/

section
variable {s a : State} {p : Nat}

theorem raiseAllBlocked_due {t : Nat} (hs : (s.pod p).allSince = some t) (hb : s.allBlockedNow p = true) (hn : (s.pod p).allRaised = false)
    (ht : t + s.fld ⟨.stallWindow, 0, 0⟩ 0 16 ≤ s.now) (hm : s.timersOn = true) (hr : s.runs 1 = true)
    (ha : a = s.updPod p fun x => { x with allRaised := true }) :
    s.raiseAllBlocked p =
      if bit (s.reg ⟨.podSwap, p, 0⟩) 0 then
        (a.report { typ := 0x44, source := 0x8001, pod := some p, body := [(a.podBusy p).length] }).autoSwap p
      else a.report { typ := 0x44, source := 0x8001, pod := some p, body := [(a.podBusy p).length] } := by
  subst ha
  simp only [State.raiseAllBlocked, hs]
  refine (if_pos ⟨hb, by simp [hn], ht, hm, hr⟩).trans ?_
  simp only [State.reg, State.report_regs, State.updPod_regs]
  rfl

/-- The head of the queue, SAVED in this pod, is restored for the context that the ended save put away. -/
theorem swapRestore_head {o h : Nat} {q : List Nat} (ho : (s.pod p).swapOut = some o) (hs : (s.ctx o).st = .saved)
    (hf : (s.ctx o).faultedInSave = false) (hr : s.runs 1 = true) (hq : (s.pod p).swapq = h :: q) (hh : (s.ctx h).st = .saved)
    (hp : s.podOf h = p) :
    s.swapRestore p = ((((s.updPod p fun x => { x with swapOut := none }).updPod p fun x => { x with swapq := q }).startRestore h).updPod p
      fun x => { x with swapIn := some (o, h) }).swapNext p := by
  have ended : ¬ ((s.ctx o).st = .saving ∨ (s.ctx o).faultedInSave = true ∨ ¬ s.runs 1 = true) := by simp [hs, hf, hr]
  simp only [State.swapRestore, ho, if_neg ended, hq]
  exact (if_neg (not_not_intro hs)).trans ((if_neg (not_not_intro hh)).trans (if_neg (not_not_intro hp)))

end

/-- Settles O16: each row finds its guard met, and the image, the limits or the queue give what follows. -/
theorem contextsSaveAndRestore : Obligations.ContextsSaveAndRestore := by
  unfold Obligations.ContextsSaveAndRestore
  refine ⟨?save, ?restore,
    fun s a b d e addr u q l hj hu hp hz hr ha hb hd => congrArg Host.Outcome.next (suspendReport_taken hj hu hp hz hr ha hb hd),
    fun s e t addr q l hj hu ht hr => congrArg Host.Outcome.next (suspendTimeout_late hj hu ht hr),
    fun s f d hd ht hm hr => congrArg Host.Outcome.next (donateTimeout_late hd ht hm hr),
    fun s a p t hs hb hn ht hm hr ha => congrArg Host.Outcome.next (raiseAllBlocked_due hs hb hn ht hm hr ha),
    fun s p o h q ho hs hf hr hq hh hp => congrArg Host.Outcome.next (swapRestore_head ho hs hf hr hq hh hp)⟩
  case save =>
    intro s a t c hs hr hf hc ha hl ht
    have := (saveImageWrite_settled hs hr hf hc).trans (congrArg (State.swapNext · (s.podOf c)) (finishSave_written ha hl ht))
    exact congrArg Host.Outcome.next this
  case restore =>
    intro s a t c img hc hr hh ha hi hg ht hw
    exact congrArg Host.Outcome.next ((viaHost_now hh _ _).trans (restoreComplete_good hc hr ha hi hg ht hw))

end Sys2Proof.Machine
end

section
/-! Memory ordering (08_memory_ordering.md): the form in which memory is held, and the commands that store nothing to it. -/
namespace Sys2Proof.Machine

section
variable {P : List Host.Cell → Prop} {q : List Instr} {u : List MmuRange} {o : List Out}

theorem kept_of_mem {s : State} (h : P s.mem) : Kept P s.pending s.mmu s.out s := ⟨rfl, rfl, List.suffix_rfl, h⟩

/-! ### Every step, by what storing one byte keeps -/

/-- A command runs with the queue's rest, and on an empty queue a hub cycle passes; memory changes by stores alone in both. -/
theorem step_keeps_mem [PokeClosed P] {s t : State} (h : P s.mem) (e : step s = .next t) : P t.mem := by
  unfold step at e
  split at e
  case h_1 =>
    injection e with e
    subst e
    exact (kept_hubCycle (kept_of_mem h)).2.2.2
  case h_2 c cs _ =>
    have start : Kept P cs s.mmu s.out { s with pending := cs } := kept_of_mem h
    exact (kept_exec c start e).2.2.2

/-! ### The commands that store nothing -/

/-- The operation of a command outside `mayStore` has a `kept_` lemma that asks nothing of `P`: none of its branches stores. -/
theorem kept_exec_of_not_mayStore (c : Instr) {s t : State} (hc : mayStore c = false) (h : Kept P q u o s) (e : exec c s = .next t) :
    Kept P q u o t := by
  cases c
  all_goals cases hc
  all_goals
    injection e with e
    subst e
    simp +contextual (maxDischargeDepth := 60) [h]

end

/-- Settles O40: such a command keeps every property of memory, so also that of being the memory it found. -/
theorem storelessCommandsLeaveMemory : Obligations.StorelessCommandsLeaveMemory := by
  unfold Obligations.StorelessCommandsLeaveMemory
  intro c s t hc e
  have start : Kept (· = s.mem) s.pending s.mmu s.out s := kept_of_mem rfl
  obtain ⟨-, -, -, hm⟩ := kept_exec_of_not_mayStore c hc start e
  exact hm

theorem pokeClosed_wf : PokeClosed fun m => Memory.wf m = true := ⟨fun _ a b h => twf_tput h a b⟩

/-- Settles O37: storing a byte keeps the canonical form, so every step does. -/
theorem everyStepKeepsMemoryCanonical : Obligations.EveryStepKeepsMemoryCanonical := by
  unfold Obligations.EveryStepKeepsMemoryCanonical
  intro s t hs e
  have := pokeClosed_wf
  exact step_keeps_mem (P := fun m => Memory.wf m = true) hs e

end Sys2Proof.Machine
end

section
/-! Pods, time and preemption (09_pods_time_and_preemption.md): the Beat's ticks, by their sources, and the conditions of its pins. -/
namespace Sys2Proof.Machine

/-! ### What makes a Beat tick fall (R273 to R275, R328, R382) -/

section
variable {s : State}

/-- The INTERNAL tick of a READY chip falls once TB_TICK has reached PERIOD. -/
theorem internalTick_due (hs : s.beatSource = 0) (hp : s.beatPeriod ≤ s.beatTick) (hg : s.gated 5 = false) (hr : s.ready = true) :
    s.internalTick = s.beatNow (s.beat + 1) true :=
  if_pos ⟨hs, hp, ne_true_of_eq_false hg, hr⟩

/-- The flywheel ticks at PERIOD + W, where no accepted value waits for its delay. -/
theorem beatFlywheel_due (hs : s.beatSource ≠ 0) (hp : s.beatPeriod + s.beatWindow ≤ s.beatTick) (hn : s.tb.remote = none)
    (hg : s.gated 5 = false) (hr : s.ready = true) : s.beatFlywheel = s.beatNow (s.beat + 1) false :=
  if_pos ⟨hs, hp, Option.isNone_iff_eq_none.2 hn, ne_true_of_eq_false hg, hr⟩

/-- REMOTE_DELAY is in reference cycles, of which a µs has 100. -/
theorem remoteApply_due {v : Nat} (hv : s.tb.remote = some v) (hg : s.gated 5 = false)
    (ht : s.tb.remoteAt + s.fld ⟨.tbBeatCfg, 0, 0⟩ 32 16 / 100 ≤ s.now) :
    s.remoteApply = ({ s with tb := { s.tb with remote := none } } : State).beatNow v true := by
  have due : ¬ (s.gated 5 = true ∨ s.now < s.tb.remoteAt + s.fld ⟨.tbBeatCfg, 0, 0⟩ 32 16 / 100) :=
    not_or.2 ⟨ne_true_of_eq_false hg, Nat.not_lt.2 ht⟩
  simp only [State.remoteApply, hv, if_neg due]

theorem beatPinEdge_lockstep (h : s.lockstep = true) : s.beatPinEdge = s.holdInput .beatPin := if_pos h

theorem beatPinEdge_free (h : s.lockstep = false) : s.beatPinEdge = s.pinEdge := if_neg (ne_true_of_eq_false h)

section
variable (hs : s.beatSource = 1) (hg : s.gated 5 = false) (hr : s.ready = true)
include hs hg hr

/-- On a READY chip whose source is PIN, with the Timebase's clock running, the place in the period alone judges an edge. -/
theorem pinEdge_counts : s.pinEdge =
    if s.beatTick + s.beatWindow < s.beatPeriod then s.noisy
    else if s.beatTick ≤ s.beatPeriod + s.beatWindow then s.beatNow (s.beat + 1) true
    else s :=
  if_neg (by simp [hs, hg, hr])

theorem pinEdge_early (h : s.beatTick + s.beatWindow < s.beatPeriod) : s.pinEdge = s.noisy :=
  (pinEdge_counts hs hg hr).trans (if_pos h)

theorem pinEdge_inWindow (early : s.beatPeriod ≤ s.beatTick + s.beatWindow) (late : s.beatTick ≤ s.beatPeriod + s.beatWindow) :
    s.pinEdge = s.beatNow (s.beat + 1) true :=
  (pinEdge_counts hs hg hr).trans ((if_neg (Nat.not_lt.2 early)).trans (if_pos late))

end

/-- An edge reaches the Timebase where its clock runs and none waits before its gate. -/
theorem exec_beatPinEdge_now (hg : s.gated 5 = false) (hw : ∀ x ∈ s.st.atGate, x.1 ≠ 5) :
    exec .beatPinEdge s = .next (s.wake 5).beatPinEdge := congrArg Host.Outcome.next (reach_now hg hw)

end

/-! ### What a Beat tick does (R273, R275) -/

section
variable {s : State}

/-- The new TB_BEAT, TB_TICK at 0, the pin's pulse and the trace's record of the tick that ended. -/
def State.beatShown (s : State) (v : Nat) : State :=
  (((s.setReg ⟨.tbBeat, 0, 0⟩ (BitVec.ofNat 64 (v % 2 ^ 48))).setReg ⟨.tbTick, 0, 0⟩ 0).emit .beatPulse).traceUnit 3 {
    typ := 0x0B, source := 13, arg := s.beatTick, tag := v % 2 ^ 48 }

/-- The tick counts towards lock or against it, and its value goes to the beat ports. -/
def State.beatTold (s : State) (v : Nat) (accepted : Bool) : State :=
  (if accepted then (s.beatShown v).tickAccepted else (s.beatShown v).tickMissed).sendBeats

/-- The settings written last are in force, and the pin's receiver follows them. -/
def State.settingsTaken (s : State) : State := ({ s with tb := { s.tb with inForce := none } } : State).lockAfresh.adjustPin

/-- Settings come into force where older ones were kept in force until this tick. -/
theorem beatNow_eq (v : Nat) (accepted : Bool) : s.beatNow v accepted =
    (if s.tb.inForce = none then s.beatTold v accepted else (s.beatTold v accepted).settingsTaken).releases :=
  congrArg State.releases ((if_congr decide_eq_true_iff rfl rfl).trans (ite_not ..))

end

/-! ### The pins' conditions (R367, R368) -/

section
variable {s : State}

/-- The receiver is to be inverted: INVERTED is set, and AUTO_INVERT. -/
def State.wantsInverted (s : State) : Bool := bit (s.reg ⟨.tbStatus, 0, 0⟩) 2 && bit (s.reg ⟨.tbBeatCfg, 0, 0⟩) 4

/-- The receiver turned over; once it is inverted, lock starts afresh and BEAT_PIN_INVERTED is written. -/
def State.turnReceiver (s : State) (inverted : Bool) : State :=
  if inverted then
    ({ s with tb := { s.tb with rxInverted := true } } : State).lockAfresh.report { typ := 0x67, source := 0x8005, body := [] }
  else { s with tb := { s.tb with rxInverted := false } }

theorem turnReceiver_eq (inverted : Bool) : s.turnReceiver inverted =
    if inverted then
      ({ s with tb := { s.tb with rxInverted := inverted } } : State).lockAfresh.report { typ := 0x67, source := sourceUnit 5, body := [] }
    else { s with tb := { s.tb with rxInverted := inverted } } := by
  cases inverted <;> rfl

/-- The receiver of a PIN source follows. -/
theorem adjustPin_eq : s.adjustPin =
    if s.beatSource = 1 ∧ s.tb.rxInverted ≠ s.wantsInverted then s.turnReceiver s.wantsInverted else s := by
  have turns : ¬ (s.beatSource ≠ 1 ∨ s.tb.rxInverted = s.wantsInverted) ↔ s.beatSource = 1 ∧ s.tb.rxInverted ≠ s.wantsInverted := by
    rw [not_or, not_not]
  exact (ite_not ..).symm.trans (if_congr turns (turnReceiver_eq _).symm rfl)

/-- Pulses seen reversed set INVERTED, and clear it where they come through an inverted receiver. -/
theorem pinInverted_eq : s.pinInverted = (s.setFld ⟨.tbStatus, 0, 0⟩ 2 1 (if s.tb.rxInverted then 0 else 1)).adjustPin := by
  unfold State.pinInverted
  cases s.tb.rxInverted <;> rfl

theorem beatOutShort_new (h : bit (s.reg ⟨.tbStatus, 0, 0⟩) 3 = false) :
    s.beatOutShort = (s.setFld ⟨.tbStatus, 0, 0⟩ 3 1 1).report { typ := 0x2C, source := 0x8005, body := [0] } :=
  if_neg (ne_true_of_eq_false h)

end

/-- Settles O24: each source's tick finds its guard met, and `beatNow_eq` and `adjustPin_eq` say what a tick and the receiver do. -/
theorem beatTicksAndPins : Obligations.BeatTicksAndPins := by
  unfold Obligations.BeatTicksAndPins
  refine ⟨fun s hs hp hg hr => congrArg Host.Outcome.next (internalTick_due hs hp hg hr), ?edge,
    fun s hg => congrArg Host.Outcome.next (reach_gated hg),
    fun s hs hp hn hg hr => congrArg Host.Outcome.next (beatFlywheel_due hs hp hn hg hr),
    fun s v hv hg ht => congrArg Host.Outcome.next (remoteApply_due hv hg ht), ?tick, ?inverted,
    fun _ => rfl, fun _ => rfl, fun s h => congrArg Host.Outcome.next (beatOutShort_new h), fun _ => rfl⟩
  case edge =>
    rintro s _ hg hw rfl
    rw [exec_beatPinEdge_now hg hw]
    refine ⟨fun hl => congrArg Host.Outcome.next (beatPinEdge_lockstep hl), fun hl hs hg' hr => ⟨fun early => ?_, fun early late => ?_⟩⟩
    · exact congrArg Host.Outcome.next ((beatPinEdge_free hl).trans (pinEdge_early hs hg' hr early))
    · exact congrArg Host.Outcome.next ((beatPinEdge_free hl).trans (pinEdge_inWindow hs hg' hr early late))
  case tick =>
    rintro s _ _ v acc rfl rfl
    exact beatNow_eq v acc
  case inverted =>
    rintro s _ _ rfl rfl
    exact congrArg Host.Outcome.next (pinInverted_eq.trans adjustPin_eq)

end Sys2Proof.Machine
end

section
/-! Across chips (10_across_chips.md): what a port's events leave alone, and the commands that end stops, dumps, trace and returns. -/
namespace Sys2Proof.Machine

/-! ### The state beside the links (R187, R306) -/

section
variable {s t u : State} {k : Nat}

/-- The state without the links, the packets that wait for the Report Queue, and what was driven. -/
def State.besideLinks (s : State) : State := { s with li := {}, out := [], fe := { s.fe with fifo := [], stalled := [] } }

/-- The counters that a port's events advance: LI_SLICE_REJECTS and PARCELS_SENT. -/
def Reg.countsParcels (r : Reg) : Prop := r.name = .sliceRejects ∨ r = gcnt 6

/-- Each counter of the list advanced by 1, in order. -/
def State.countUp (s : State) (rs : List Reg) : State := s.each rs fun a r => a.bump r 1

theorem countUp_append (l m : List Reg) : s.countUp (l ++ m) = (s.countUp l).countUp m := List.foldl_append ..

theorem countUp_besideLinks (rs : List Reg) : (s.countUp rs).besideLinks = s.besideLinks.countUp rs :=
  (List.foldl_hom State.besideLinks fun _ _ => rfl).symm

/-- `t` differs from `s` by the links, the waiting packets, what was driven and advances of the parcel counters. -/
def State.MovesLinks (s t : State) : Prop :=
  ∃ rs : List Reg, (∀ r ∈ rs, r.countsParcels) ∧ t.besideLinks = s.besideLinks.countUp rs

theorem movesLinks_of_eq (h : t.besideLinks = s.besideLinks) : s.MovesLinks t := ⟨[], by simp, h⟩

theorem State.MovesLinks.refl (s : State) : s.MovesLinks s := movesLinks_of_eq rfl

theorem State.MovesLinks.trans (h : s.MovesLinks t) (h' : t.MovesLinks u) : s.MovesLinks u := by
  obtain ⟨l, hl, e⟩ := h
  obtain ⟨m, hm, e'⟩ := h'
  refine ⟨l ++ m, fun r hr => (List.mem_append.1 hr).elim (hl r) (hm r), ?_⟩
  rw [e', e, countUp_append]

theorem bump_movesLinks {r : Reg} (h : r.countsParcels) : s.MovesLinks (s.bump r 1) := ⟨[r], by simpa using h, rfl⟩

theorem each_movesLinks {α : Type} {f : State → α → State} (h : ∀ (t : State) (a : α), t.MovesLinks (f t a)) (l : List α) :
    ∀ s : State, s.MovesLinks (s.each l f) := by
  induction l with
  | nil => exact State.MovesLinks.refl
  | cons a l ih => exact fun s => (h s a).trans (ih _)

/-! ### What moves the links alone (R298, R306 to R310) -/

theorem setLi_movesLinks (l : LinkUnit) : s.MovesLinks { s with li := l } := movesLinks_of_eq rfl

theorem updPort_movesLinks (f : Port → Port) : s.MovesLinks (s.updPort k f) := setLi_movesLinks _

theorem emit_movesLinks (o : Out) : s.MovesLinks (s.emit o) := movesLinks_of_eq rfl

theorem report_movesLinks (p : Packet) : s.MovesLinks (s.report p) :=
  movesLinks_of_eq (by unfold State.report; dsimp only; split <;> rfl)

theorem portEvent_movesLinks (typ reason : Nat) : s.MovesLinks (s.portEvent k typ reason) := report_movesLinks _

theorem sliceReject_movesLinks (slice : Nat) : s.MovesLinks (s.sliceReject k slice) := by
  have counted : s.MovesLinks (s.bump ⟨.sliceRejects, k, 0⟩ 1) := bump_movesLinks (.inl rfl)
  unfold State.sliceReject
  dsimp only
  split
  next => exact (counted.trans (updPort_movesLinks _)).trans (report_movesLinks _)
  next => exact counted

theorem respond_movesLinks (p : Parcel) : s.MovesLinks (s.respond p) := by
  unfold State.respond
  split
  next => exact setLi_movesLinks _
  next =>
    split
    next => exact updPort_movesLinks _
    next => exact sliceReject_movesLinks _

theorem placeResponses_movesLinks : s.MovesLinks s.placeResponses :=
  (setLi_movesLinks { s.li with respWait := [] }).trans (each_movesLinks (fun _ _ => respond_movesLinks _) _ _)

theorem leaveUp_movesLinks (cause : Nat) : s.MovesLinks (s.leaveUp k cause) := by
  unfold State.leaveUp
  split
  next => exact (updPort_movesLinks _).trans (report_movesLinks _)
  next => exact .refl s

theorem toPortState_movesLinks (st : PortState) (cause : Nat) : s.MovesLinks (s.toPortState k st cause) := by
  have changed := fun f => (leaveUp_movesLinks (s := s) (k := k) cause).trans (updPort_movesLinks (k := k) f)
  unfold State.toPortState
  dsimp only
  split
  next => exact ((changed _).trans (setLi_movesLinks _)).trans placeResponses_movesLinks
  next => exact changed _

theorem comeUp_movesLinks : s.MovesLinks (s.comeUp k) :=
  ((toPortState_movesLinks _ _).trans (updPort_movesLinks _)).trans (portEvent_movesLinks _ _)

theorem judgePort_movesLinks : s.MovesLinks (s.judgePort k) := by
  unfold State.judgePort
  dsimp only
  split
  next => exact .refl s
  next =>
    split
    next => exact comeUp_movesLinks
    next => exact ((toPortState_movesLinks _ _).trans (updPort_movesLinks _)).trans (portEvent_movesLinks _ _)

theorem phyReady_movesLinks : s.MovesLinks (s.phyReady k) := by
  unfold State.phyReady
  split
  next => exact toPortState_movesLinks _ _
  next => exact .refl s

theorem retrainExpiry_movesLinks : s.MovesLinks (s.retrainExpiry k) := by
  unfold State.retrainExpiry
  split
  next => exact toPortState_movesLinks _ _
  next => exact .refl s

theorem linkSilent_movesLinks : s.MovesLinks (s.linkSilent k) := by
  unfold State.linkSilent
  dsimp only
  split
  next => exact (updPort_movesLinks _).trans (report_movesLinks _)
  next => exact .refl s

theorem helloSend_movesLinks : s.MovesLinks (s.helloSend k) := by
  unfold State.helloSend
  dsimp only
  split
  next =>
    exact (((updPort_movesLinks _).trans (emit_movesLinks _)).trans (bump_movesLinks (.inr rfl))).trans judgePort_movesLinks
  next => exact .refl s

/-! ### The registers, and all that lies beyond them -/

def State.sansRegs (s : State) : State := { s with regs := [] }

theorem countUp_sansRegs (rs : List Reg) : (s.countUp rs).sansRegs = s.sansRegs :=
  State.each_keeps State.sansRegs _ _ _ fun _ _ => rfl

/-- The state without its registers and without what a port's events move. -/
def State.beyondLinks (s : State) : State := s.besideLinks.sansRegs

theorem wake_beyondLinks (n : Nat) : (s.wake n).beyondLinks = s.beyondLinks := by
  unfold State.wake
  split <;> rfl

theorem State.MovesLinks.beyond (h : s.MovesLinks t) : t.beyondLinks = s.beyondLinks := by
  obtain ⟨rs, -, e⟩ := h
  exact (congrArg State.sansRegs e).trans (countUp_sansRegs rs)

theorem State.MovesLinks.regs (h : s.MovesLinks t) : ∃ rs : List Reg, (∀ r ∈ rs, r.countsParcels) ∧ t.regs = (s.countUp rs).regs := by
  obtain ⟨rs, hrs, e⟩ := h
  exact ⟨rs, hrs, (congrArg State.regs (e.trans (countUp_besideLinks rs).symm) :)⟩

end

/-- Settles O54: each event is made of changes to a port, packets, sends and counts, and `MovesLinks` holds of each and of their chain. -/
theorem portEventsTouchOnlyTheLinks : Obligations.PortEventsTouchOnlyTheLinks := by
  unfold Obligations.PortEventsTouchOnlyTheLinks
  refine ⟨?moves, fun s k hg => congrArg Host.Outcome.next (reach_gated hg)⟩
  case moves =>
    intro s w t k x hg hw hx ht
    have hwt : w.MovesLinks t := by
      rcases hx with ⟨rfl, rfl⟩ | ⟨rfl | rfl | rfl, rfl⟩
      · cases ht.symm.trans (congrArg Host.Outcome.next (reach_now hg hw))
        exact phyReady_movesLinks
      · cases ht; exact retrainExpiry_movesLinks
      · cases ht; exact linkSilent_movesLinks
      · cases ht; exact helloSend_movesLinks
    have hws : w.beyondLinks = s.beyondLinks := by
      rcases hx with ⟨-, rfl⟩ | ⟨-, rfl⟩
      · exact wake_beyondLinks 6
      · rfl
    have h := hwt.beyond.trans hws
    exact ⟨(congrArg State.gs h :), (congrArg State.dl h :), (congrArg State.sy h :), (congrArg State.rs h :), (congrArg State.tb h :),
      (congrArg State.fc h :), (congrArg State.st h :), (congrArg State.ob h :), (congrArg State.sv h :), (congrArg State.mem h :),
      (congrArg State.now h :), hwt.regs⟩

/-! ### Stops, the snapshot dump and the cut's markers (R319, R415, R417) -/

section
variable {s t : State} {k : Nat}

theorem quiesceReached_idle (hq : s.ob.stop = .quiescing) (hi : s.enginesIdle = true) :
    s.quiesceReached = (s.cutMade .quiesced).report { typ := 0x82, source := 0x8007, body := [s.beat] } := if_pos ⟨hq, hi⟩

/-- The dump is over. -/
def State.dumpEnded (s : State) : State := { s with ob := { s.ob with dumpBusy := false, dumpAt := 0, dumpHeader := [], dumpNext := 0 } }

theorem snapDumpDone_written (hd : s.ob.dumpBusy = true) (hb : s.ob.dumpBody = []) (hp : 0 < s.dl.obsBucket)
    (hw : s.writeBytes devSpace s.ob.dumpAt s.ob.dumpHeader = some t) :
    s.snapDumpDone = (t.dumpEnded.bump (gcnt 14) ((s.ob.dumpHeader.length + 63) / 64)).payObs ((s.ob.dumpHeader.length + 63) / 64) := by
  rw [State.snapDumpDone, if_pos ⟨hd, hb, hp⟩, hw]
  rfl

theorem markerTimeout_late (hs : s.ob.stop = .snapped) (hc : (s.port k).cut = 4) (ht : s.ob.snapAt + 100 ≤ s.now) :
    s.markerTimeout k = (s.updPort k fun x => { x with cut := 3, inCut := false }).cutCheck := if_pos ⟨hs, hc, ht⟩

end

/-! ### The trace unit's sink (R406 to R411) -/

section
variable {s : State}

theorem writeBytes_getD_ob (sp adr : Nat) (bs : List Byte) : ((s.writeBytes sp adr bs).getD s).ob = s.ob := by
  cases hw : s.writeBytes sp adr bs with
  | none => rfl
  | some t => obtain ⟨m, p, rfl⟩ := writeBytes_frame hw; rfl

/-- The sink's taking of a frame leaves the reason of a drain owed. -/
theorem sinkPut_draining (fseq : Nat) (bs : List Byte) : (s.sinkPut fseq bs).ob.draining = s.ob.draining := by
  unfold State.sinkPut
  split
  next => simp [writeBytes_getD_ob]
  next =>
    unfold State.portPut
    dsimp only
    split <;> rfl

theorem traceEnter_draining : s.traceEnter.ob.draining = s.ob.draining := rfl

theorem lossResume_draining : s.lossResume.ob.draining = s.ob.draining := by
  unfold State.lossResume
  split <;> rfl

/-- The frame of up to seven oldest records is with the sink, and what waited for room in the buffer has entered it. -/
def State.frameTaken (s : State) : State :=
  (({ s with ob := { s.ob with trace := s.ob.trace.drop 7, fseq := (s.ob.fseq + 1) % 2 ^ 32 } } : State).sinkPut s.ob.fseq
    (s.frame (s.ob.trace.take 7) (s.ob.draining.isSome && decide (s.ob.trace.length ≤ 7)))).traceEnter.lossResume

theorem frameTaken_draining : s.frameTaken.ob.draining = s.ob.draining := by
  unfold State.frameTaken
  rw [lossResume_draining, traceEnter_draining, sinkPut_draining]

/-- The drain that was owed for the reason `why` is over, and TRACE_STOPPED says so. -/
def State.drainEnded (s : State) (why : Nat) : State :=
  ({ s with ob := { s.ob with draining := none } } : State).report { typ := 0x81, source := 0x8007, body := [why] }

theorem frameSend_taken (ho : s.sinkOn = true) (hd : s.sinkDue = true) (hr : s.sinkReady = true) :
    s.frameSend = if (s.ob.draining.isSome && decide (s.ob.trace.length ≤ 7)) = true then
        s.frameTaken.drainEnded (s.frameTaken.ob.draining.getD 0)
      else s.frameTaken := by
  have emptied : decide (s.ob.trace.drop 7 = []) = decide (s.ob.trace.length ≤ 7) := decide_eq_decide.2 List.drop_eq_nil_iff
  unfold State.frameSend
  rw [if_pos (by simp [ho, hd, hr])]
  dsimp only
  rw [emptied]
  rfl

/-- The last frame of a drain ends it. -/
theorem frameSend_due (ho : s.sinkOn = true) (hd : s.sinkDue = true) (hr : s.sinkReady = true) :
    s.frameSend = match s.ob.draining with
      | some why => if s.ob.trace.length ≤ 7 then s.frameTaken.drainEnded why else s.frameTaken
      | none => s.frameTaken := by
  rw [frameSend_taken ho hd hr, frameTaken_draining]
  cases s.ob.draining with
  | none => rfl
  | some why => simp

theorem alignSend_due (h : s.alignDue = true) :
    s.alignSend = ({ s with ob := { s.ob with alignedAt := some s.now } } : State).sendLanes fun lane => [controlBlock 0xA1 lane s.ob.fseq] :=
  if_pos h

theorem alignSend_notDue (h : s.alignDue = false) : s.alignSend = s := if_neg (ne_true_of_eq_false h)

end

/-! ### The UART's pin and returns to service (R355, R368) -/

section
variable {s : State}

theorem uartFault_new (h : s.sv.uartOff = false) :
    s.uartFault = (({ s with sv := { s.sv with uartOff := true, session := false } } : State).bump ⟨.uartErr, 0, 0⟩
      (1 + Config.framingErrors s.now (s.reg ⟨.uartErr, 0, 0⟩).toNat)).report { typ := 0x2C, source := 0x8009, body := [1] } :=
  if_neg (ne_true_of_eq_false h)

/-- A unit that left the map of benched ones is reported with the map's number, and work is homed afresh. -/
def State.unitBack (s : State) (lv u : Nat) : State :=
  (s.report { typ := 0x24, source := 0x8009, body := [lv + u * 2 ^ 16, (s.reg ⟨.mapSeq, 0, 0⟩).toNat] }).rehome

/-- The oldest return is the one that ends; the map at its end says whether its unit is still benched. -/
theorem unbenchEnd_oldest {lv u : Nat} {rest : List (Nat × Nat)} (hu : s.fc.unbench = (lv, u) :: rest) (ho : s.hubOn = true) (ok : Bool) :
    s.unbenchEnd ok =
      if ok = true ∧ s.benchedAt lv u = true then
        (({ s with fc := { s.fc with unbench := rest } } : State).clearBench lv u).mapChange.unitBack lv u
      else ({ s with fc := { s.fc with unbench := rest } } : State).fcErr 0 := by
  simp only [State.unbenchEnd, hu, ho, not_true_eq_false, if_false]
  rfl

end

/-- Settles O20: each command finds its guard met, and the drain, the port or the map says what its end brings. -/
theorem stopsDumpsTraceAndReturnsEnd : Obligations.StopsDumpsTraceAndReturnsEnd := by
  unfold Obligations.StopsDumpsTraceAndReturnsEnd
  refine ⟨fun s hq hi => congrArg Host.Outcome.next (quiesceReached_idle hq hi),
    fun s t hd hb hp hw => congrArg Host.Outcome.next (snapDumpDone_written hd hb hp hw),
    fun s k hs hc ht => congrArg Host.Outcome.next (markerTimeout_late hs hc ht), ?frame,
    fun s h => congrArg Host.Outcome.next (alignSend_due h), fun s h => congrArg Host.Outcome.next (alignSend_notDue h),
    fun s h => congrArg Host.Outcome.next (uartFault_new h), fun _ => rfl, ?returned⟩
  case frame =>
    rintro s _ ho hd hr rfl
    exact congrArg Host.Outcome.next (frameSend_due ho hd hr)
  case returned =>
    rintro s _ _ lv u rest ok hu ho rfl rfl
    exact congrArg Host.Outcome.next (unbenchEnd_oldest hu ho ok)

end Sys2Proof.Machine
end

section
/-! Determinism (11_determinism.md): reads of host memory in LOCKSTEP, the global control registers, and accesses that are held or
aborted. -/
namespace Sys2Proof.Machine

/-! ### Reads of host memory in LOCKSTEP (R328) -/

section
variable {s : State} {i : Instr} {f : State → State}

/-- In LOCKSTEP a running hub's row that reads host memory waits, once, as the completion of its read. -/
theorem viaHost_waits (hl : s.lockstep = true) (ho : s.hubOn = true) {sp a : Nat} (hh : s.hostAt sp a = true)
    (hi : .completion i ∉ s.ob.inputs) : s.viaHost sp a i f = s.holdInput (.completion i) :=
  viaHost_held (by simp [State.atOnce, hl, hh]) ho hi f

theorem viaHostAt_waits (hl : s.lockstep = true) (ho : s.hubOn = true) {w : Option (Nat × Nat)} {x : Nat × Nat} (hw : w = some x)
    (hh : s.hostAt x.1 x.2 = true) (hi : .completion i ∉ s.ob.inputs) : s.viaHostAt w i f = s.holdInput (.completion i) :=
  hw ▸ viaHost_waits hl ho hh hi

/-- The turn passes to the slot as its fetch is made, and the fetch waits for its read. -/
theorem ringFetch_waits {n : Nat} (hl : s.lockstep = true) (ho : s.hubOn = true) (hn : s.nextFetch = some n) (h8 : s.fetchesOut.length < 8)
    (hh : s.hostAt (ctxSpace (s.slotCtx n)) ((s.reg ⟨.slotRing, n, 0⟩).toNat + (s.slot n).wdev.toNat % s.ringSize n * 64) = true)
    (hi : .completion (.ringFetch n) ∉ s.ob.inputs) :
    s.ringFetch n = (s.fetchedLast n).holdInput (.completion (.ringFetch n)) :=
  (if_pos ⟨hn, h8⟩).trans (viaHost_waits (s := s.fetchedLast n) hl ho hh hi)

end

/-- Settles O52: each row's effect begins with its read, which `viaHost` holds back as a completion. -/
theorem hostReadsWaitInLockstep : Obligations.HostReadsWaitInLockstep := by
  unfold Obligations.HostReadsWaitInLockstep
  intro s hl ho
  have waits {sp a : Nat} {i : Instr} {f : State → State} (hh : s.hostAt sp a = true) (hi : .completion i ∉ s.ob.inputs) :
      Host.Outcome.next (s.viaHost sp a i f) = (.next (s.holdInput (.completion i)) : Host.Outcome State Fault Refusal) :=
    congrArg _ (viaHost_waits hl ho hh hi)
  have waitsAt {w : Option (Nat × Nat)} {i : Instr} {f : State → State} (x : Nat × Nat) (hw : w = some x) (hh : s.hostAt x.1 x.2 = true)
      (hi : .completion i ∉ s.ob.inputs) :
      Host.Outcome.next (s.viaHostAt w i f) = (.next (s.holdInput (.completion i)) : Host.Outcome State Fault Refusal) :=
    congrArg _ (viaHostAt_waits hl ho hw hh hi)
  exact ⟨fun _ => waits, fun _ hm hh hi => (congrArg _ (if_pos hm)).trans (waits hh hi), fun _ _ => waits, fun _ _ => waits, fun _ _ => waits,
    fun _ _ => waits, fun _ => waits, waitsAt, waitsAt, fun _ => waitsAt, fun _ => waitsAt, fun _ => waitsAt, fun _ => waitsAt,
    fun _ => waitsAt, fun _ _ => waitsAt, fun _ _ => waitsAt, fun _ => waitsAt,
    fun _ hn h8 hh hi => congrArg Host.Outcome.next (ringFetch_waits hl ho hn h8 hh hi)⟩

/-! ### The global control registers (R321, R322, R330, R373, R380 to R382, R389, R425) -/

section
variable {s w t : State} {who : Requester} {r : Reg} {v : BitVec 64}

/-- An admitted write is its effect, and a resume that it makes is completed. -/
theorem regIn_effect (h : s.admits r w) (hv : r.valid = true) (ha : r.name ≠ .aperture) (ht : w.writeReg who r v = t) :
    s.regIn who r v = t.flushSnap := by
  rw [regIn_admits h hv ha, ht]

/-- The global registers belong to no sub-unit, so that an access of TSU_MODE starts no clock. -/
theorem State.admits.tsuMode (h : s.admits ⟨.tsuMode, 0, 0⟩ w) : w = s := by
  obtain ⟨_, _, _, _, _, rfl⟩ := h
  rfl

theorem State.admits.det (h : s.admits r w) : s.det ≠ 2 := by
  obtain ⟨_, free, _⟩ := h
  exact of_decide_eq_false free

/-- TSU_MODE.HOLD is written. -/
def State.setHold (s : State) (v : BitVec 64) : State := s.setFld ⟨.tsuMode, 0, 0⟩ 4 1 (bits v 4 1)

theorem writeMode_sameDet (h3 : bit v 3 = false) (hd : bits v 0 2 = s.det) : s.writeMode v = s.setHold v := by
  simp [State.writeMode, State.setHold, h3, hd]

theorem writeMode_otherDet (h3 : bit v 3 = false) (hd : bits v 0 2 ≠ s.det) (h : bits v 0 2 ≠ 3) (hq : s.quiet = true) :
    s.writeMode v = (s.setFld ⟨.tsuMode, 0, 0⟩ 0 2 (bits v 0 2)).modeAlign.setHold v := by
  simp [State.writeMode, State.setHold, h3, hd, h, hq]

theorem writeMode_restart (h3 : bit v 3 = true) (hd : bits v 0 2 = 2) (hl : s.det ≠ 2) (hq : s.quiet = true) (hr : s.restartable = true) :
    s.writeMode v = ((s.setFld ⟨.tsuMode, 0, 0⟩ 0 2 2).modeAlign.setHold v).lockstepRestart := by
  simp [State.writeMode, State.setHold, State.restartOk, h3, hd, hl.symm, hq, hr]

theorem writeClken_accepted (h : bit v 31 = s.compat ∨ s.quiet = true) (ht : t = s.plainWrite ⟨.tsuClken, 0, 0⟩ v) :
    s.writeClken v = if t.compat = true ∨ s.compat = true then t.regate else t := by
  have accepted : (decide (bit v 31 ≠ s.compat) && !s.quiet) = false := by
    obtain same | quiet := h
    · simp [same]
    · simp [quiet]
  subst ht
  simp only [State.writeClken, accepted, Bool.false_eq_true, if_false]

theorem writeSettings_reload (hv : bit v 0 = true) (hr : s.sv.reloading = false) (hp : s.sv.reloadPending = false)
    (ht : t = s.plainWrite ⟨.tsuSettings, 0, 0⟩ v) :
    s.writeSettings v = if s.sv.spiBusy then { t with sv := { t.sv with reloadPending := true } }
      else { t with sv := { t.sv with reloading := true } } := by
  subst ht
  have idle : ¬ (s.sv.reloading = true ∨ s.sv.reloadPending = true) := by simp [hr, hp]
  exact (if_neg (not_not.2 hv)).trans (if_neg idle)

end

/-- Settles O6: an admitted write does what its register's write does, and DET, the block's quiet and the SPI's work say what. -/
theorem globalControlWrites : Obligations.GlobalControlWrites := by
  unfold Obligations.GlobalControlWrites
  refine ⟨?sameDet, ?otherDet, ?hold, ?restart, ?reset, ?compat, ?reload⟩
  case sameDet =>
    rintro s w who v _ h rfl hd
    exact congrArg Host.Outcome.next (regIn_settled h (by decide) nofun (writeMode_sameDet (bit_setBit_self _ _ _ (by decide)) hd) rfl)
  case otherDet =>
    rintro s w who v _ h rfl hd h3 hq
    exact congrArg Host.Outcome.next
      (regIn_effect h (by decide) nofun (writeMode_otherDet (bit_setBit_self _ _ _ (by decide)) hd h3 hq))
  case hold =>
    rintro s w who v _ h rfl
    have noRestart : bit (setBits (setBit (w64 v) 3 false) 0 2 s.det) 3 = false := by
      rw [bit, getLsbD_setBits _ _ _ _ _ (by decide), if_neg (by decide)]
      exact bit_setBit_self _ _ _ (by decide)
    have sameDet : bits (setBits (setBit (w64 v) 3 false) 0 2 s.det) 0 2 = w.det := by
      rw [bits_setBits _ _ _ _ (by decide), h.tsuMode]
      exact Nat.mod_eq_of_lt (Nat.mod_lt _ (by decide))
    exact congrArg Host.Outcome.next (regIn_settled h (by decide) nofun (writeMode_sameDet noRestart sameDet) rfl)
  case restart =>
    rintro s w who v _ h rfl hd hq hr
    have hl : w.det ≠ 2 := h.tsuMode ▸ h.det
    exact congrArg Host.Outcome.next
      (regIn_effect h (by decide) nofun (writeMode_restart (bit_setBit_self _ _ _ (by decide)) hd hl hq hr))
  case reset =>
    intro s w who v h hk hv
    exact congrArg Host.Outcome.next (regIn_settled h (by decide) nofun ((if_pos hk).trans (if_pos hv)) rfl)
  case compat =>
    intro s w a who v h hc ha
    exact congrArg Host.Outcome.next (regIn_effect h (by decide) nofun (writeClken_accepted hc ha))
  case reload =>
    intro s w a who v h hr hp ha
    refine congrArg Host.Outcome.next
      (regIn_settled h (by decide) nofun (writeSettings_reload (bit_setBit_self _ _ _ (by decide)) hr hp ha) ?_)
    subst ha
    split <;> rfl

/-! ### Accesses that are held or aborted (R328, R329, R331, R375, R416) -/

section
variable {s : State} {who : Requester} {r : Reg} {off n : Nat} {h : Held}

/-- In LOCKSTEP the host port's stall is disclosed (R331). -/
theorem disturb_postFull (hl : s.lockstep = true) : s.disturb 1 = s.orReg ⟨.tsuDisturb, 0, 0⟩ 2 := if_pos hl

theorem disturb_free (hl : s.lockstep = false) (b : Nat) : s.disturb b = s := if_neg (ne_true_of_eq_false hl)

/-- A write held while SNAPPED. -/
def State.withHeld (s : State) (h : Held) : State := { s with ob := { s.ob with snapHeld := s.ob.snapHeld ++ [h] } }

theorem pushSnap_eq : s.pushSnap h =
    if s.lockstep = true ∧ 64 ≤ s.ob.snapHeld.length then (s.withHeld h).orReg ⟨.tsuDisturb, 0, 0⟩ 2 else s.withHeld h := by
  change (if 64 ≤ s.ob.snapHeld.length then (s.withHeld h).disturb 1 else s.withHeld h) = _
  by_cases full : 64 ≤ s.ob.snapHeld.length
  · cases hl : s.lockstep
    · simp [full, disturb_free (s := s.withHeld h) hl]
    · simp [full, disturb_postFull (s := s.withHeld h) hl]
  · simp [full]

/-- An input that waits for the lockstep tick. -/
def State.withInput (s : State) (h : Held) : State := { s with ob := { s.ob with inputs := s.ob.inputs ++ [h] } }

theorem holdInput_eq (hl : s.lockstep = true) : s.holdInput h =
    if s.holding ∧ 4096 ≤ ((s.withInput h).ob.inputs.filter fun h => !h.free).length + (s.withInput h).heldParcels then
      (s.withInput h).orReg ⟨.tsuDisturb, 0, 0⟩ 2 else s.withInput h := by
  rw [← disturb_postFull (s := s.withInput h) hl]
  rfl

theorem snapHolds_outside (hs : s.ob.stop = .snapped) (h8 : off / 0x10000 ≠ 8) (hb : off / 0x10000 ≠ 0xB) : s.snapHolds off = true := by
  simp [State.snapHolds, hs, h8, hb]

theorem snapHolds_running (hs : s.ob.stop ≠ .snapped) : s.snapHolds off = false := by simp [State.snapHolds, hs]

theorem inputsWait_lockstep (hl : s.lockstep = true) (hs : s.ob.stop ≠ .snapped) : s.inputsWait = true := by
  simp [State.inputsWait, hl, hs]

theorem arrive_waits (hi : s.inputsWait = true) : s.arrive h = s.holdInput h := if_pos hi

/-- An access that nothing holds is answered by an abort. -/
theorem arrive_aborted (hi : s.inputsWait = false) (hn : s.ob.snapHeld = []) (ha : s.applyHeld h = s.emit (.abort who)) :
    s.arrive h = s.emit (.abort who) := by
  rw [State.arrive, if_neg (ne_true_of_eq_false hi), State.process, ha]
  exact flushSnap_nil hn

theorem accessWrite_notReady (hr : s.ready = false) {wide : Bool} {v : BitVec 64} : s.accessWrite who off wide v = s.emit (.abort who) := by
  unfold State.accessWrite
  split
  next => rfl
  next => simp [hr]

theorem accessRead_notReady (hr : s.ready = false) {x : Part32} (ht : target off false = some (r, x)) (he : earlyRead r.name = false) :
    s.accessRead who off false = s.emit (.abort who) := by
  simp [State.accessRead, State.readData, Nat.not_le.2 (target_lt ht), ht, hr, he]

theorem accessDoorbell_notReady (hr : s.ready = false) {v : BitVec 32} : s.accessDoorbell n v = s.emit (.abort .host) := by
  simp [State.accessDoorbell, hr]

end

/-- Settles O44: SNAPPED, LOCKSTEP and the start each stand in the way of an access before it has an effect. -/
theorem accessesWaitOrAreAborted : Obligations.AccessesWaitOrAreAborted := by
  unfold Obligations.AccessesWaitOrAreAborted
  refine ⟨?held, ?bellHeld, ?lockstep, ?notReady⟩
  case held =>
    rintro s _ who r v hs hv h8 hb rfl
    rw [exec_registerWrite hv]
    exact congrArg Host.Outcome.next ((if_pos (snapHolds_outside hs h8 hb)).trans pushSnap_eq)
  case bellHeld =>
    rintro s _ n v hs rfl
    exact congrArg Host.Outcome.next ((if_pos hs).trans pushSnap_eq)
  case lockstep =>
    intro s hl hs
    have waits {h : Held} : s.arrive h = s.holdInput h := arrive_waits (inputsWait_lockstep hl hs)
    refine ⟨fun who r v hv => ?write, fun who off => congrArg Host.Outcome.next waits,
      fun n v => congrArg Host.Outcome.next ((if_neg hs).trans waits), ?full⟩
    case write =>
      rw [exec_registerWrite hv]
      exact congrArg Host.Outcome.next ((if_neg (ne_true_of_eq_false (snapHolds_running hs))).trans waits)
    case full =>
      rintro h _ rfl
      exact holdInput_eq hl
  case notReady =>
    intro s hr hi hn hs
    refine ⟨fun who off v => ?write, fun n v => ?bell, fun who r x off ht h1 h2 => ?read⟩
    case write =>
      have aborts {wide : Bool} : s.admitWrite who off wide v = s.emit (.abort who) :=
        (if_neg (ne_true_of_eq_false (snapHolds_running hs))).trans (arrive_aborted hi hn (accessWrite_notReady hr))
      exact congrArg Host.Outcome.next aborts
    case bell =>
      exact congrArg Host.Outcome.next ((if_neg hs).trans (arrive_aborted hi hn (accessDoorbell_notReady hr)))
    case read =>
      exact congrArg Host.Outcome.next (arrive_aborted hi hn (accessRead_notReady hr ht (by simp [earlyRead, h1, h2])))

end Sys2Proof.Machine
end

section
/-! Faults and recovery (12_faults_and_recovery.md) and the start: what a teardown frees, the registers of the service cores and the
Fault Controller, supply dips, settings and firmware. -/
namespace Sys2Proof.Machine

/-! ### What a teardown frees (R343) -/

section
variable {s : State} {c : Nat}

/-- Nothing of context `c` stands in the Graph Store, at a dealer or on its way to the hub. -/
structure State.ClearOf (s : State) (c : Nat) : Prop where
  nodes : s.ctxNodes c = []
  edges : ∀ e ∈ s.gs.edges, e.1 / 2 ^ 22 ≠ c
  dealers : ∀ r d, (r, d) ∈ s.dl.dealers → (∀ h ∈ d.hands, nkCtx h.key ≠ c) ∧ (∀ h : Share, h ∈ d.shares → nkCtx h.key ≠ c) ∧
    ∀ x ∈ d.confirmed, nkCtx x.1 ≠ c
  starts : ∀ x ∈ s.dl.starts, x.2.ctx ≠ c

theorem State.ClearOf.of_eq {t : State} (h : s.ClearOf c) (hg : t.gs = s.gs) (hd : t.dl.dealers = s.dl.dealers)
    (hs : t.dl.starts = s.dl.starts) : t.ClearOf c where
  nodes := by rw [State.ctxNodes, hg]; exact h.nodes
  edges := hg ▸ h.edges
  dealers := hd ▸ h.dealers
  starts := hs ▸ h.starts

theorem updPod_clearOf (h : s.ClearOf c) (p : Nat) (f : Pod → Pod) : (s.updPod p f).ClearOf c := h.of_eq rfl rfl rfl

theorem report_clearOf (h : s.ClearOf c) (p : Packet) : (s.report p).ClearOf c := by
  unfold State.report
  dsimp only
  split <;> exact h.of_eq rfl rfl rfl

/-- Step 8 of a teardown takes every entry of the context away. -/
theorem tearFree_clearOf (s : State) (c : Nat) : (s.tearFree c).ClearOf c where
  nodes := by
    simp only [State.ctxNodes, State.tearFree, State.updCtx, List.filter_filter, List.map_eq_nil_iff, List.filter_eq_nil_iff]
    simp +contextual
  edges e he := by simpa using (List.mem_filter.1 he).2
  dealers r d hd := by
    obtain ⟨x, -, hx⟩ := List.mem_map.1 hd
    obtain ⟨-, rfl⟩ := Prod.mk.inj hx
    simp +contextual [List.mem_filter]
  starts x hx := of_decide_eq_true (List.mem_filter.1 hx).2

/-- A teardown frees the context's entries last; the pod's note of a swap and the packet that follow touch none. -/
theorem tearOn_clearOf (s : State) (c : Nat) : (s.tearOn c).ClearOf c := by
  unfold State.tearOn
  exact report_clearOf (updPod_clearOf (tearFree_clearOf _ c) _ _) _

end

/-- Settles O43: the drained teardown goes on to step 8, which filters the context out of each table. -/
theorem teardownLeavesNothingOfTheContext : Obligations.TeardownLeavesNothingOfTheContext := by
  unfold Obligations.TeardownLeavesNothingOfTheContext
  intro c s t hf ht hs hd ho e
  obtain rfl : s.tearOn c = t := Host.Outcome.next.inj ((congrArg _ (teardownContinue_drained hf ht hs hd ho).symm).trans e)
  obtain ⟨nodes, edges, dealers, starts⟩ := tearOn_clearOf s c
  exact ⟨nodes, edges, dealers, starts⟩

/-! ### Registers of the service cores and the Fault Controller (R343, R347, R350, R355, R388, R391, R393, R418, R441 to R443) -/

section
variable {s w t : State} {who : Requester} {v : BitVec 64} {k c : Nat}

theorem fwCtrl_valid (hk : k < 9) : Reg.valid ⟨.fwCtrl, k, 0⟩ = true := Reg.valid_iff.2 ⟨hk, by decide⟩

theorem svWdog_valid (hk : k < 9) : Reg.valid ⟨.svWdog, k, 0⟩ = true := Reg.valid_iff.2 ⟨hk, by decide⟩

/-- GO with nothing in the way stores the fields, and the controller drives the command. -/
theorem writeSpiCtrl_go (hv : bit v 30 = true) (hb : s.sv.spiBusy = false) (hl : bits v 16 7 ≤ 64) (hr : s.sv.reloading = false)
    (hs : s.ready = true) (hd : (bit v 24 && bit v 23) = false) (ht : t = s.plainWrite ⟨.spiCtrl, 0, 0⟩ v) :
    s.writeSpiCtrl v = ({ t with sv := { t.sv with spiBusy := true } } : State).emit
      (.spi (bits v 0 8) (leBytes (bits v 8 2) (t.reg ⟨.spiAddr, 0, 0⟩).toNat).reverse (bits v 12 4) (bits v 16 7) (bit v 24)
        (if bit v 23 then t.spiBuf.take (bits v 16 7) else [])) := by
  subst ht
  refine (if_neg ?_).trans (if_pos hv)
  rintro (busy | long | ⟨-, reloading | notReady | both⟩)
  · simp [hb] at busy
  · omega
  · simp [hr] at reloading
  · exact notReady hs
  · simp [both] at hd

theorem resetCore_region (hk : k ≠ 8) (st : Nat) :
    s.resetCore k st = (s.updCore k fun c => { c with st := st, mem := [], entry := 0 }).emit (.coreReset k) := by
  simp only [State.resetCore, if_neg hk]

/-- A LOAD is taken by a core that is not loading, if its region is not benched. -/
theorem writeFwCtrl_load (hv : bit v 0 = true) (hs : (s.core k).st ≠ 1) (hb : k < 8 → bit (s.reg ⟨.benchRegions, 0, 0⟩) k = false) :
    s.writeFwCtrl k v = (s.resetCore k 1).updCore k fun c => { c with addr := (s.reg ⟨.fwAddr, k, 0⟩).toNat } := by
  refine (if_neg (not_not.2 hv)).trans (if_neg ?_)
  rintro (loading | ⟨region, benched⟩)
  · exact hs loading
  · simp [hb region] at benched

theorem writeDraoft_host (h : bit (s.reg ⟨.svDraoft, 0, 0⟩) 8 = true → bits v 0 2 ≤ s.fld ⟨.svDraoft, 0, 0⟩ 0 2) :
    s.writeDraoft .host v =
      s.setReg ⟨.svDraoft, 0, 0⟩ (BitVec.ofNat 64 (bits v 0 2) ||| ((s.reg ⟨.svDraoft, 0, 0⟩ ||| v) &&& 0x100)) :=
  if_neg fun refused => refused.elim (absurd rfl) fun ⟨locked, above⟩ => Nat.not_lt.2 (h locked) above

theorem driverTeardown_inUse (hv : bit v 31 = true) (hc : c = bits v 0 9) (hu : (s.ctx c).st ≠ .unused) (hf : (s.ctx c).st ≠ .faulted) :
    s.driverTeardown v = s.ctxFault c { cause := 0x94 } 0x8009 := by
  subst hc
  exact if_pos ⟨hv, hu, hf⟩

theorem driverTeardown_ignored (hc : c = bits v 0 9) (h : (s.ctx c).st = .unused ∨ (s.ctx c).st = .faulted) : s.driverTeardown v = s := by
  subst hc
  exact if_neg fun ⟨_, unused, faulted⟩ => h.elim unused faulted

theorem writeUnbench_start {q : Nat × Nat} (hv : bit v 31 = true) (hq : q = (bits v 16 3, bits v 0 14)) (hn : q ∉ s.fc.unbench)
    (hb : s.benchedAt q.1 q.2 = true) : s.writeUnbench v = { s with fc := { s.fc with unbench := s.fc.unbench ++ [q] } } := by
  subst hq
  exact (if_neg fun h => h.elim (· hv) hn).trans (if_pos hb)

/-- A 32-bit word has its fields as a register value too. -/
theorem bits_of_w64 (v : BitVec 32) (lo w : Nat) : bits (w64 v) lo w = bits v lo w := by
  rw [bits, toNat_w64, bits]

end

/-- Settles O7: an admitted write does what its register's write does, and each clause's hypotheses keep it from every refusal. -/
theorem serviceAndFaultRegisterWrites : Obligations.ServiceAndFaultRegisterWrites := by
  unfold Obligations.ServiceAndFaultRegisterWrites
  refine ⟨?spi, ?load, ?loadHub, ?kick, ?lock, ?teardown, ?unbench⟩
  case spi =>
    rintro s w a who v _ h rfl hb hl hr hs hd ha
    have go := writeSpiCtrl_go (bit_setBit_self _ _ _ (by decide)) hb hl hr hs hd ha
    refine congrArg Host.Outcome.next (regIn_settled h (by decide) nofun go ?_)
    subst ha
    rfl
  case load =>
    intro s w who k v h hk hs hb
    have load := writeFwCtrl_load (bit_setBit_self (w64 v) 0 true (by decide)) hs fun _ => hb
    rw [resetCore_region hk.ne] at load
    exact congrArg Host.Outcome.next (regIn_settled h (fwCtrl_valid (by omega)) nofun load rfl)
  case loadHub =>
    intro s w who v h hs
    have load := writeFwCtrl_load (bit_setBit_self (w64 v) 0 true (by decide)) hs fun hk => absurd hk (Nat.lt_irrefl 8)
    exact congrArg Host.Outcome.next (regIn_settled h (fwCtrl_valid (by decide)) nofun load rfl)
  case kick =>
    intro s w who k v h hk
    refine congrArg Host.Outcome.next (regIn_settled h (svWdog_valid hk) nofun rfl ?_)
    split <;> rfl
  case lock =>
    rintro s w v _ h rfl hl
    exact congrArg Host.Outcome.next (regIn_settled h (by decide) nofun (writeDraoft_host hl) rfl)
  case teardown =>
    intro s w who v c h hc hu hf
    have faults := driverTeardown_inUse (bit_setBit_self (w64 v) 31 true (by decide)) hc hu hf
    exact congrArg Host.Outcome.next (regIn_effect h (by decide) nofun faults)
  case unbench =>
    intro s w who v q h hq hn hb
    have starts := writeUnbench_start (bit_setBit_self (w64 v) 31 true (by decide)) hq hn hb
    exact congrArg Host.Outcome.next (regIn_settled h (by decide) nofun starts rfl)

/-- Settles O48: the context that the word names is in use, or the write is ignored. -/
theorem driverTeardownFaultsTheContext : Obligations.DriverTeardownFaultsTheContext := by
  unfold Obligations.DriverTeardownFaultsTheContext
  intro s w who v c h hc
  have named : c = bits (setBit (w64 v) 31 true) 0 9 := by
    rw [bits_setBit_apart _ _ _ _ _ (by decide), bits_of_w64, hc]
  refine ⟨fun hu hf => ?inUse, fun hi => ?ignored⟩
  case inUse =>
    have faults := driverTeardown_inUse (bit_setBit_self (w64 v) 31 true (by decide)) named hu hf
    exact congrArg Host.Outcome.next (regIn_effect h (by decide) nofun faults)
  case ignored =>
    exact congrArg Host.Outcome.next (regIn_settled h (by decide) nofun (driverTeardown_ignored named hi) rfl)

/-! ### Service cores that fail, and supply dips (R359, R363 to R366, R376, R377, R396) -/

section
variable {s a : State} {k d : Nat}

/-- A core's fault is told with 0 WATCHDOG or 1 PARITY beside its number. -/
theorem coreFault_reported (hk : k < 9) (reason : Nat) :
    s.coreFault k reason = (s.resetCore k 4).report { typ := 0x2B, source := 0x8009, body := [k + reason * 16] } := by
  simp only [State.coreFault, Nat.mod_eq_of_lt (show k < 16 by omega)]
  rfl

theorem coreExpiry_late (hk : k < 9) (hs : (s.core k).st = 2) (ht : (s.core k).kickedAt + 100000 ≤ s.now) :
    s.coreExpiry k = s.coreFault k 0 := if_pos ⟨hk, hs, ht⟩

theorem corePathParity_running (hk : k < 9) (hs : (s.core k).st ≠ 4) : s.corePathParity k = s.coreFault k 1 := if_pos ⟨hk, hs⟩

/-- A READY compute die's clock turns towards half, but not in LOCKSTEP. -/
def State.turnDown (s : State) (d : Nat) : State :=
  if d < 8 ∧ s.lockstep = false ∧ s.ready then s.updClock d fun x => { x with goal := 8 } else s

/-- A warning that begins a dip. -/
theorem supplyWarn_fresh (hd : d ≤ 8) (hw : (s.supply d).warn = false) (hn : (s.supply d).dipped = false)
    (ha : a = (((s.updSupply d fun x => { x with
      warn := true, clearFor := none, dipped := true, us := 0,
      lowest := if s.ready ∨ (s.clock d).pll = false then 0 else 16 - (s.clock d).step }).bump ⟨.supplyDips, 0, 0⟩ 1).pinEvent 3).report {
        typ := 0x28, source := 0x8009, body := [d] }) : s.supplyWarn d = a.turnDown d := by
  subst ha
  simp only [State.supplyWarn, State.dipped, State.turnDown, Nat.not_lt.2 hd, hw, hn, sourceUnit, Bool.not_eq_true, Bool.false_eq_true,
    Bool.not_false, or_self, if_true, if_false]

/-- A warning during a dip. -/
theorem supplyWarn_again (hd : d ≤ 8) (hw : (s.supply d).warn = false) (hn : (s.supply d).dipped = true)
    (ha : a = s.updSupply d fun x => { x with warn := true, clearFor := none, dipped := true }) : s.supplyWarn d = a.turnDown d := by
  subst ha
  simp only [State.supplyWarn, State.dipped, State.turnDown, Nat.not_lt.2 hd, hw, hn, Bool.not_eq_true, Bool.false_eq_true,
    Bool.not_true, or_self, if_false]

theorem supplyClear_warned (hw : (s.supply d).warn = true) :
    s.supplyClear d = s.updSupply d fun x => { x with warn := false, clearFor := some 0 } := if_pos hw

theorem allClear_of (h : ∀ x, x < 9 → (s.supply x).dipped = true → ∃ u, (s.supply x).clearFor = some u ∧ 50 ≤ u) : s.allClear = true := by
  refine List.all_eq_true.2 fun x hx => ?_
  cases hd : (s.supply x).dipped with
  | false => simp [State.dipped, hd]
  | true =>
    obtain ⟨u, hu, h50⟩ := h x (List.mem_range.1 hx) hd
    simp [hu, h50]

/-- Once CLEAR has held, a ramped clock goes up first, and otherwise the dip is over. -/
theorem supplyRecover_held {t : Nat} (hd : (s.supply d).dipped = true) (hc : (s.supply d).clearFor = some t) (ht : 50 ≤ t)
    (ha : s.lockstep = true → s.allClear = true) :
    s.supplyRecover d =
      if d < 8 ∧ s.lockstep = false ∧ s.ready ∧ (s.clock d).pll = true ∧ (s.clock d).step ≠ 16 then s.updClock d fun x => { x with goal := 16 }
      else (s.updClock d fun x => { x with goal := 16 }).dipOver d := by
  have clear : s.lockstep = false ∨ s.allClear = true := by
    cases hl : s.lockstep with
    | false => exact .inl rfl
    | true => exact .inr (ha hl)
  simp only [State.supplyRecover, State.dipped, hd, hc, ht, decide_true, clear, Bool.not_eq_true, and_self, if_true]

/-- The clock of a domain takes step `n`; the dealer of a compute die is out of its lead. -/
def State.setStep (s : State) (d n : Nat) : State :=
  if d < 8 then (s.updClock d fun x => { x with step := n }).updDealer d fun y => { y with lead := none }
  else s.updClock d fun x => { x with step := n }

theorem setStep_dipped (n : Nat) : (s.setStep d n).dipped = s.dipped := by
  unfold State.setStep
  split <;> rfl

/-- The step next to the present one on the way to the goal. -/
def Clock.nextStep (x : Clock) : Nat := if x.step < x.goal then x.step + 1 else x.step - 1

/-- A step that a dip of a compute die notes. -/
def State.noteStep (s : State) (d n : Nat) : State := s.updSupply d fun y => { y with lowest := max y.lowest (16 - n) }

theorem rampStep_due (hp : (s.clock d).pll = true) (hg : (s.clock d).step ≠ (s.clock d).goal)
    (hr : s.ready = true ∨ s.dipped (min d 8) = false) :
    s.rampStep d =
      if d < 8 ∧ s.dipped d = true then
        if ((s.setStep d (s.clock d).nextStep).noteStep d (s.clock d).nextStep).dipped d = true ∧
            (s.clock d).nextStep = 16 ∧ (s.clock d).goal = 16 then
          ((s.setStep d (s.clock d).nextStep).noteStep d (s.clock d).nextStep).dipOver d
        else (s.setStep d (s.clock d).nextStep).noteStep d (s.clock d).nextStep
      else s.setStep d (s.clock d).nextStep := by
  have steps : ¬ (¬ (s.clock d).pll = true ∨ (s.clock d).step = (s.clock d).goal ∨ ¬ s.ready = true ∧ s.dipped (min d 8) = true) := by
    rintro (noPll | there | ⟨notReady, dip⟩)
    · exact noPll hp
    · exact hg there
    · exact hr.elim notReady fun clear => by simp [dip] at clear
  refine (if_neg steps).trans ?_
  change (let t := s.setStep d (s.clock d).nextStep
    let u := if d < 8 ∧ t.dipped d = true then t.noteStep d (s.clock d).nextStep else t
    if d < 8 ∧ u.dipped d = true ∧ (s.clock d).nextStep = 16 ∧ (s.clock d).goal = 16 then u.dipOver d else u) = _
  by_cases dip : d < 8 ∧ s.dipped d = true
  · simp only [setStep_dipped, dip, true_and, and_self, if_true]
  · have ends : ¬ (d < 8 ∧ s.dipped d = true ∧ (s.clock d).nextStep = 16 ∧ (s.clock d).goal = 16) :=
      fun ⟨compute, dipped, _⟩ => dip ⟨compute, dipped⟩
    simp only [setStep_dipped, dip, ends, if_false]

/-- A domain has no dip of its own where its die has none. -/
theorem not_dipped_of_min (h : s.dipped (min d 8) = false) : ¬ (d < 8 ∧ s.dipped d = true) := fun ⟨compute, dip⟩ => by
  rw [min_eq_left compute.le, dip] at h
  cases h

end

/-- Settles O22: each event finds what it reports so, and what the core, the die's supply or its clock holds gives what follows. -/
theorem serviceCoresAndSupply : Obligations.ServiceCoresAndSupply := by
  unfold Obligations.ServiceCoresAndSupply
  refine ⟨?expiry, ?parity, ?warn, ?again, fun s d hw => congrArg Host.Outcome.next (supplyClear_warned hw), ?recover, ?ramp, ?rampDip⟩
  case expiry =>
    intro s k hk hs ht
    exact congrArg Host.Outcome.next ((coreExpiry_late hk hs ht).trans (coreFault_reported hk 0))
  case parity =>
    intro s k hk hs
    exact congrArg Host.Outcome.next ((corePathParity_running hk hs).trans (coreFault_reported hk 1))
  case warn =>
    intro s a d hd hw hn ha
    exact congrArg Host.Outcome.next (supplyWarn_fresh hd hw hn ha)
  case again =>
    rintro s a d hd hw hn ha
    refine congrArg Host.Outcome.next ((supplyWarn_again hd hw hn ha).trans ?_)
    subst ha
    rfl
  case recover =>
    intro s d t hd hc ht ha
    exact congrArg Host.Outcome.next (supplyRecover_held hd hc ht fun hl => allClear_of (ha hl))
  case ramp =>
    intro s d hp hg hd
    refine congrArg Host.Outcome.next ((rampStep_due hp hg.ne (.inr hd)).trans ((if_neg (not_dipped_of_min hd)).trans ?_))
    simp only [Clock.nextStep, if_pos hg, State.setStep]
  case rampDip =>
    rintro s _ _ d _ hk hr hp hg hd rfl rfl rfl hs
    refine congrArg Host.Outcome.next ((rampStep_due hp hg (.inl hr)).trans ((if_pos ⟨hk, hd⟩).trans ?_))
    simp only [State.noteStep, State.setStep, Clock.nextStep, if_pos hk, hs, true_and]

/-! ### Start, settings and firmware (R365, R372, R374, R376, R379, R380, R384, R385, R388, R391, R392, R396) -/

section
variable {s t : State} {f : FlashRead} {d k u : Nat}

/-- The start goes on with the PLLs. -/
def State.toPllPhase (s : State) : State := { s with st := { s.st with phase := .pll } }

@[simp] theorem State.report_st (s : State) (p : Packet) : (s.report p).st = s.st := by
  unfold State.report
  dsimp only
  split <;> rfl

theorem toPllPhase_report (p : Packet) : (s.report p).toPllPhase = { s.report p with st := { s.st with phase := .pll } } := by
  rw [State.toPllPhase, State.report_st]

/-- The sequencer's commands go out, and what it found of the copies and of the source is kept. -/
def State.settingsFound (s : State) (f : FlashRead) : State :=
  (((s.each ((s.choose f).startCommands f) State.emit).noteBad (s.choose f)).setFld ⟨.tsuStart, 0, 0⟩ 4 2 (s.choose f).src).setFld
    ⟨.tsuStart, 0, 0⟩ 2 2 (s.choose f).why

theorem settingsRead_due (hp : s.st.phase = .settings) :
    s.settingsRead f = if (s.choose f).src = 0 then
        ((s.settingsFound f).report { typ := 0x2D, source := 0x8009, body := [(s.choose f).why] }).toPllPhase
      else ((s.settingsFound f).applyAtStart (s.choose f).recs).toPllPhase :=
  (if_neg (not_not.2 hp)).trans (apply_ite State.toPllPhase _ _ _)

theorem gsInit_starting (h : s.ready = false) : s.gsInit = { s with st := { s.st with gsDone := true } } := if_neg (ne_true_of_eq_false h)

theorem pllStable_waiting (hp : s.st.phase = .pll) (hc : (s.clock d).pll = false) :
    s.pllStable d = s.updClock d fun x => { x with pll := true, step := 1, goal := 16 } := if_pos ⟨hp, ne_true_of_eq_false hc⟩

theorem startReady_due (hp : s.st.phase = .pll) (hg : s.st.gsDone = true) (hc : ∀ d, d < 10 → (s.clock d).pll = true ∧ (s.clock d).step = 16)
    (ht : t = s.align [0, 1, 2, 3, 4, 5, 6, 7]) :
    s.startReady = ({ t with st := { t.st with phase := .ready, alignAt := (t.reg (gcnt 0)).toNat } } : State).setFld ⟨.tsuStart, 0, 0⟩ 0 2 3 := by
  subst ht
  refine if_pos ⟨hp, hg, List.all_eq_true.2 fun d hd => ?_⟩
  obtain ⟨pll, step⟩ := hc d (List.mem_range.1 hd)
  simp [pll, step]

theorem reloadComplete_due (hr : s.sv.reloading = true)
    (ht : t = (State.each { s with sv := { s.sv with reloading := false } } ((s.chooseCopy f).commands f) State.emit).noteBad (s.chooseCopy f)) :
    s.reloadComplete f = if (s.chooseCopy f).src = 0 then t.orReg ⟨.tsuSettings, 0, 0⟩ 0x200
      else ((t.setFld ⟨.tsuStart, 0, 0⟩ 4 2 (s.chooseCopy f).src).setFld ⟨.tsuStart, 0, 0⟩ 2 2 0).applyLive (s.chooseCopy f).recs := by
  subst ht
  exact if_neg (not_not.2 hr)

theorem spiDone_busy {rx bs : List Byte} (hb : s.sv.spiBusy = true)
    (hbs : bs = if bit (s.reg ⟨.spiCtrl, 0, 0⟩) 23 then s.spiBuf
      else fit (s.fld ⟨.spiCtrl, 0, 0⟩ 16 7) rx ++ s.spiBuf.drop (s.fld ⟨.spiCtrl, 0, 0⟩ 16 7))
    (ht : t = s.each (List.range 16) fun t j => t.setReg ⟨.spiData, j, 0⟩ (BitVec.ofNat 64 (leAt bs (4 * j) 4))) :
    s.spiDone rx = { t with sv := { t.sv with
      spiBusy := false, reloading := t.sv.reloading || t.sv.reloadPending, reloadPending := false } } := by
  subst hbs ht
  exact if_pos hb

theorem fwLoaded_accepted {h body : List Byte} (hs : (s.core k).st = 1) (hj : s.fwJudge k = .inr (h, body)) :
    s.fwLoaded k = ((s.updCore k fun c => { c with
      st := 2, reason := 0, kickedAt := s.now, mem := h ++ body, entry := leAt h 0x10 4 }).setReg ⟨.fwVersion, k, 0⟩
        (BitVec.ofNat 64 (leAt h 8 4))).emit (.coreStart k (leAt h 0x10 4)) := by
  simp only [State.fwLoaded, hs, hj, not_true_eq_false, ne_eq, if_false]

theorem fwLoaded_rejected {why : Nat} (hs : (s.core k).st = 1) (hj : s.fwJudge k = .inl why) :
    s.fwLoaded k = ((s.updCore k fun c => { c with st := 3, reason := why, mem := [], entry := 0 }).setReg ⟨.fwVersion, k, 0⟩ 0).report
      { typ := 0x2E, source := 0x8008, body := [k + why * 2 ^ 8] } := by
  simp only [State.fwLoaded, hs, hj, not_true_eq_false, ne_eq, if_false]
  rfl

theorem gateStop_idle (hb : s.unitBusy u = false) (hc : s.compat = true → bit (s.reg ⟨.tsuClken, 0, 0⟩) u = false) :
    s.gateStop u = s.setGated u true :=
  if_neg fun h => h.elim (ne_true_of_eq_false hb) fun ⟨compat, enabled⟩ => ne_true_of_eq_false (hc compat) enabled

end

/-- Settles O19: each row finds its guard met, and what the flash, the image or the phase of the start holds gives what follows. -/
theorem startResetAndServiceEvents : Obligations.StartResetAndServiceEvents := by
  unfold Obligations.StartResetAndServiceEvents
  refine ⟨?settings, fun s h => congrArg Host.Outcome.next (gsInit_starting h),
    fun s d hp hc => congrArg Host.Outcome.next (pllStable_waiting hp hc),
    fun s t hp hg hc ht => congrArg Host.Outcome.next (startReady_due hp hg hc ht),
    fun s t f hr ht => congrArg Host.Outcome.next (reloadComplete_due hr ht),
    fun s t rx bs hb hbs ht => congrArg Host.Outcome.next (spiDone_busy hb hbs ht), ?firmware,
    fun s u hb hc => congrArg Host.Outcome.next (gateStop_idle hb hc), fun s => rfl, fun s => rfl⟩
  case settings =>
    rintro s _ f hp rfl
    have goesOn := settingsRead_due (f := f) hp
    rw [toPllPhase_report] at goesOn
    exact congrArg Host.Outcome.next goesOn
  case firmware =>
    intro s k hs
    refine congrArg Host.Outcome.next ?_
    split
    next hj => exact fwLoaded_accepted hs hj
    next hj => exact fwLoaded_rejected hs hj

end Sys2Proof.Machine
end

section
/-! Observation and debug (14_observation_and_debug.md): what a stop stops, the registers of the Observation Unit, the monitor's
commands, and the hub cycle of an empty queue. -/
namespace Sys2Proof.Machine

/-! ### A stopped hub (R364, R415) -/

section
variable {s : State} {n k r e i c p q : Nat} {st : CellStatus} {w : BitVec 32} (h : s.hubOn = false)
include h

/-- While the hub is stopped no sub-unit takes work. -/
theorem stopped_takes (u : Nat) : s.takes u = false := by simp [State.takes, h]

theorem stopped_runs (u : Nat) : ¬ s.runs u = true := by simp [State.runs, stopped_takes h]

/-! The Resolver, the scrubber and dispatch. -/

theorem stopped_resolverUpdate : s.resolverUpdate = s := if_neg (stopped_runs h 1)

theorem stopped_scrub (u : Upset) : s.scrub c i u = s := if_pos (stopped_runs h 1)

theorem stopped_nodeDispatch : s.nodeDispatch k = s := if_neg fun ⟨_, runs, _⟩ => stopped_runs h 1 runs

theorem stopped_backlogDispatch : s.backlogDispatch p r = s := if_neg fun ⟨runs, _⟩ => stopped_runs h 1 runs

/-! Offer rounds. -/

theorem stopped_dealerOn : ¬ s.dealerOn r = true := by simp [State.dealerOn, stopped_runs h 2]

theorem stopped_offerAnswer : s.offerAnswer r k = s := if_neg fun ⟨_, on, _⟩ => stopped_dealerOn h on

theorem stopped_answerArrival : s.answerArrival r k = s := by
  unfold State.answerArrival
  dsimp only
  split
  next => rfl
  next => exact if_pos (.inl (stopped_runs h 1))

theorem stopped_windowClose : s.windowClose k = s := by
  unfold State.windowClose
  dsimp only
  split
  next => rfl
  next => exact if_pos (.inl (stopped_runs h 1))

theorem stopped_offerConfirm : s.offerConfirm r k = s := by
  unfold State.offerConfirm
  dsimp only
  split
  next => rfl
  next => exact if_pos (.inl (stopped_runs h 2))

theorem stopped_offerWithdraw : s.offerWithdraw r k = s := by
  unfold State.offerWithdraw
  dsimp only
  split
  next => rfl
  next => exact if_pos (.inl (stopped_runs h 2))

/-! Issue slots, start reports, shares and completions. -/

theorem stopped_issueSlot : s.issueSlot r = s := if_pos (.inl (stopped_runs h 2))

theorem stopped_leIssueSlot : s.leIssueSlot = s := if_pos (.inl (stopped_runs h 6))

theorem stopped_startReport : s.startReport e = s := by
  unfold State.startReport
  split
  next => rfl
  next => exact if_pos (.inl (stopped_runs h 1))

theorem stopped_shareDone : s.shareDone r k = s := if_neg fun ⟨_, runs, _⟩ => stopped_runs h 1 runs

theorem stopped_engineDone : s.engineDone e st w = s := by
  unfold State.engineDone
  dsimp only
  split
  next => rfl
  next => exact if_pos (by simp [h])

theorem stopped_completionAccept : s.completionAccept e = s := by
  unfold State.completionAccept
  split
  next => rfl
  next => exact if_pos (.inr (.inl (stopped_runs h 1)))

theorem stopped_leDone : s.leDone k st w = s := by
  unfold State.leDone
  dsimp only
  split
  next => rfl
  next => exact if_pos (by simp [stopped_takes h 6])

theorem stopped_drainDone : s.drainDone e st = s := by
  unfold State.drainDone
  dsimp only
  split
  next => rfl
  next => exact if_pos (by simp [h])

/-! Loops, sprouts, FANOUTs and remote sends. -/

theorem stopped_loopStart : s.loopStart k = s := if_neg fun ⟨_, _, runs, _⟩ => stopped_runs h 1 runs

theorem stopped_iterationEnd : s.iterationEnd k = s := by
  unfold State.iterationEnd
  dsimp only
  split
  next => rfl
  next => exact if_neg fun ⟨_, _, runs, _⟩ => stopped_runs h 1 runs

theorem stopped_sproutRead : s.sproutRead k = s := if_neg fun ⟨_, _, _, runs⟩ => stopped_runs h 1 runs

theorem stopped_fanoutExpand : s.fanoutExpand = s := by
  unfold State.fanoutExpand
  split
  next => rfl
  next => exact if_pos (.inr (.inl (stopped_runs h 1)))

theorem stopped_landingResume : s.landingResume = s := by
  unfold State.landingResume
  split
  next => rfl
  next => exact if_neg fun ⟨_, _, runs⟩ => stopped_runs h 1 runs

theorem stopped_fanoutInstantiate : s.fanoutInstantiate = s := by
  unfold State.fanoutInstantiate
  split
  next => rfl
  next => exact if_pos (.inr (stopped_runs h 1))

theorem stopped_fanoutComplete : s.fanoutComplete k = s := if_neg fun ⟨_, _, _, runs⟩ => stopped_runs h 1 runs

theorem stopped_remoteSend : s.remoteSend k = s := if_neg fun ⟨_, _, runs, _⟩ => stopped_runs h 6 runs

/-! Tricks, their records and imports, and landing entries. -/

theorem stopped_trickCompose : s.trickCompose k = s := if_neg fun ⟨_, _, runs, _⟩ => stopped_runs h 4 runs

theorem stopped_composeRetry : s.composeRetry k = s := if_neg fun ⟨_, _, _, runs, _⟩ => stopped_runs h 4 runs

theorem stopped_trickInstantiate : s.trickInstantiate k = s := by
  unfold State.trickInstantiate
  split
  next => rfl
  next => exact if_neg fun ⟨_, _, _, _, runs⟩ => stopped_runs h 4 runs

theorem stopped_trickEnd : s.trickEnd k = s := by
  unfold State.trickEnd
  split
  next => rfl
  next => exact if_pos (.inr (.inr (stopped_runs h 4)))

theorem stopped_retireWrite : s.retireWrite k = s := retireWrite_idle (.inr (.inr (eq_false_of_ne_true (stopped_runs h 4))))

theorem stopped_logWrite : s.logWrite k = s := by
  unfold State.logWrite
  split
  next => rfl
  next => exact if_pos (.inr (.inr (stopped_runs h 4)))

theorem stopped_importLanded : s.importLanded q = s := by
  unfold State.importLanded
  dsimp only
  split
  next => rfl
  next => exact if_pos (.inr (.inr (stopped_runs h 4)))

theorem stopped_landingTimeout : s.landingTimeout k = s := by
  unfold State.landingTimeout
  dsimp only
  split
  next => rfl
  next => exact if_neg fun ⟨_, _, _, runs⟩ => stopped_runs h 6 runs

theorem stopped_landingFree : s.landingFree k = s := if_neg fun ⟨_, _, _, runs⟩ => stopped_runs h 6 runs

/-! The Front End. -/

/-- No slot has entries to fetch, and so no slot is the next. -/
theorem stopped_ringFetch : s.ringFetch n = s := by
  refine if_neg fun ⟨next, _⟩ => ?_
  obtain ⟨due, -⟩ := minBy_some next
  simp [State.canFetch, stopped_runs h 0] at due

theorem stopped_recordWrite : s.recordWrite n = s := by
  unfold State.recordWrite
  split
  next => rfl
  next => exact if_pos (.inr (stopped_runs h 0))

theorem stopped_commandRetire : s.commandRetire n q = s := by
  unfold State.commandRetire
  split
  next => rfl
  next => exact if_neg fun ⟨_, _, _, _, _, _, runs⟩ => stopped_runs h 0 runs

end

/-- Settles O55: each of the events asks that its unit run or take work, and a stopped hub lets none. -/
theorem aStoppedHubDoesNothing : Obligations.AStoppedHubDoesNothing := by
  unfold Obligations.AStoppedHubDoesNothing
  intro s h
  have same {t : State} (e : t = s) : Host.Outcome.next t = (.next s : Host.Outcome State Fault Refusal) := congrArg _ e
  have read {sp a : Nat} {i : Instr} {f : State → State} (e : f s = s) : Host.Outcome.next (s.viaHost sp a i f) =
      (.next s : Host.Outcome State Fault Refusal) := congrArg _ ((viaHost_off h sp a i f).trans e)
  have readAt {w : Option (Nat × Nat)} {i : Instr} {f : State → State} (e : f s = s) : Host.Outcome.next (s.viaHostAt w i f) =
      (.next s : Host.Outcome State Fault Refusal) := congrArg _ ((viaHostAt_off h w i f).trans e)
  refine ⟨same (stopped_resolverUpdate h), same (stopped_leIssueSlot h), readAt (stopped_fanoutExpand h), same (stopped_landingResume h),
    readAt (stopped_fanoutInstantiate h), fun c i u => ?nodes, fun r c i => ?dealers, fun k => ?units, fun e st w => ?engines,
    fun n q => same (stopped_commandRetire h)⟩
  case nodes =>
    exact ⟨same (stopped_scrub h u), same (stopped_nodeDispatch h), same (stopped_windowClose h), read (stopped_loopStart h),
      same (stopped_iterationEnd h), read (stopped_sproutRead h), same (stopped_fanoutComplete h), readAt (stopped_trickCompose h),
      readAt (stopped_composeRetry h), same (stopped_remoteSend h)⟩
  case dealers =>
    exact ⟨same (stopped_offerAnswer h), same (stopped_answerArrival h), same (stopped_offerConfirm h), same (stopped_offerWithdraw h),
      same (stopped_shareDone h), same (stopped_backlogDispatch h)⟩
  case units =>
    exact ⟨same (stopped_issueSlot h), same (stopped_startReport h), same (stopped_completionAccept h), same (stopped_trickInstantiate h),
      readAt (stopped_trickEnd h), same (stopped_retireWrite h), same (stopped_logWrite h), same (stopped_importLanded h),
      same (stopped_landingTimeout h), same (stopped_landingFree h), same (stopped_ringFetch h), same (stopped_recordWrite h)⟩
  case engines =>
    exact ⟨same (stopped_engineDone h), fun hg hw h' => congrArg Host.Outcome.next ((reach_now hg hw).trans (stopped_leDone h')),
      same (stopped_drainDone h)⟩

/-! ### The registers of the Observation Unit (R402, R406, R408, R414 to R417, R462 to R464) -/

section
variable {s w t : State} {who : Requester} {r : Reg} {v : BitVec 64} {i j : Nat}

/-- An admitted write of the Observation Unit's window is its effect, and a resume that it makes is completed. -/
theorem regIn_stopEffect (h : s.admitsStop r w) (hv : r.valid = true) (ha : r.name ≠ .aperture) (h8 : r.off / 0x10000 = 8)
    (ht : w.writeReg who r v = t) : s.regIn who r v = t.flushSnap := by
  rw [regIn_admitsStop h hv ha (.inl h8), ht]

/-- One that holds no write for a later resume is its effect alone. -/
theorem regIn_stopSettled (h : s.admitsStop r w) (hv : r.valid = true) (ha : r.name ≠ .aperture) (h8 : r.off / 0x10000 = 8)
    (ht : w.writeReg who r v = t) (ho : t.ob.snapHeld = w.ob.snapHeld) : s.regIn who r v = t := by
  rw [regIn_stopEffect h hv ha h8 ht, flushSnap_nil (ho.trans h.held)]

theorem freezeCmd_running (hs : s.ob.stop = .running) : s.freezeCmd = (s.cutMade .frozen).stopTaken .frozen := by
  simp only [State.freezeCmd, hs]

theorem quiesceCmd_running (hs : s.ob.stop = .running) : s.quiesceCmd = s.stopTaken .quiescing := by simp only [State.quiesceCmd, hs]

theorem snapCmd_higher (hs : s.ob.stop ≠ .snapped) (hi : higher32 (s.fld ⟨.snapId, 0, 0⟩ 0 32) (s.fld ⟨.snapLast, 0, 0⟩ 0 32) = true) :
    s.snapCmd = s.takeSnap (s.fld ⟨.snapId, 0, 0⟩ 0 32) none := if_pos ⟨hs, hi⟩

/-- A chip that was stopped but not SNAPPED runs again. -/
theorem resumeCmd_stopped (hf : s.fatal = false) (hs : s.ob.stop = .frozen ∨ s.ob.stop = .quiescing ∨ s.ob.stop = .quiesced) :
    s.resumeCmd = { s with ob := { s.ob with stop := .running } } := by
  refine (if_neg (ne_true_of_eq_false hf)).trans ?_
  obtain hs | hs | hs := hs <;> simp only [hs]

/-- From SNAPPED the chip goes on as before, and no block lies in the cut any more. -/
theorem resumeCmd_snapped (hf : s.fatal = false) (hs : s.ob.stop = .snapped) :
    s.resumeCmd = { s with
      ob := { s.ob with stop := s.ob.before }
      li := { s.li with ports := s.li.ports.map fun p =>
        (p.1, { p.2 with inCut := false, rx := p.2.rx.map fun q => (q.1, q.2.map fun (b : RxBlock) => { b with inCut := false }) }) } } := by
  refine (if_neg (ne_true_of_eq_false hf)).trans ?_
  simp only [hs]

/-- A mode is entered from OFF with counts in range. -/
theorem writeTrcCfg_start (h0 : bits v 0 2 ≠ 0) (h3 : bits v 0 2 ≠ 3) (hm : s.trcMode = 0)
    (hc : bits v 0 2 = 2 → s.fld ⟨.trcCounts, 0, 0⟩ 24 24 ≠ 0 ∧ s.fld ⟨.trcCounts, 0, 0⟩ 0 24 + s.fld ⟨.trcCounts, 0, 0⟩ 24 24 ≤ 262143) :
    s.writeTrcCfg v = (s.plainWrite ⟨.trcCfg, 0, 0⟩ v).trcStart := by
  refine (if_neg ?_).trans ((if_neg (hm ▸ h0)).trans (if_neg h0))
  rintro (bad | ⟨-, on⟩ | ⟨trigger, zero | many⟩ | ⟨-, on, -⟩)
  · exact h3 bad
  · exact on hm
  · exact (hc trigger).left zero
  · exact Nat.not_lt.2 (hc trigger).right many
  · exact on hm

/-- OFF is written with the fields that stand fast in a mode as they are. -/
theorem writeTrcCfg_off (h0 : bits v 0 2 = 0) (hm : s.trcMode ≠ 0) (hv : (v ^^^ s.reg ⟨.trcCfg, 0, 0⟩) &&& 0x14 = 0) :
    s.writeTrcCfg v = (s.plainWrite ⟨.trcCfg, 0, 0⟩ v).trcStop := by
  refine (if_neg ?_).trans ((if_neg fun same => hm (same.symm.trans h0)).trans (if_pos h0))
  rintro (bad | ⟨changed, -⟩ | ⟨trigger, -⟩ | ⟨on, -⟩)
  · omega
  · exact of_decide_eq_true changed hv
  · omega
  · exact on h0

/-- An occurrence that the unit waits for is counted, and the COUNT-th fires. -/
theorem trigger_awaited {src : Nat} (hm : s.trcMode = 2) (ht : s.tracing = true) (hn : s.ob.triggered = false)
    (hs : s.fld ⟨.trcTrig, 0, 0⟩ 16 2 = src) (h : t = { s with ob := { s.ob with trigSeen := s.ob.trigSeen + 1 } }) :
    s.trigger src = if s.ob.trigSeen + 1 = s.fld ⟨.trcTrig, 0, 0⟩ 0 16 then t.fireTrigger src else t := by
  subst h
  exact if_pos ⟨hm, ht, ne_true_of_eq_false hn, hs⟩

/-- Copying counters to their shadows leaves the Observation Unit's own state. -/
theorem gcntSnapCmd_ob (s : State) (v : BitVec 64) : (s.gcntSnapCmd v).ob = s.ob := by
  unfold State.gcntSnapCmd
  split
  next =>
    dsimp only
    rw [State.each_ob, State.each_ob]
    · exact fun _ _ => rfl
    · exact fun t r => State.each_ob t _ _ fun _ _ => rfl
  next => rfl

theorem cutStands_iff : s.cutStands = true ↔ s.ob.stop = .frozen ∨ s.ob.stop = .quiesced ∨ s.ob.stop = .snapped := by
  simp [State.cutStands, or_assoc]

/-- A dump with room for the header notes the image and its header. -/
theorem snapDumpStart_roomy {size len : Nat} {body : List Byte} (hv : bit v 0 = true) (hc : s.cutStands = true) (hb : s.ob.dumpBusy = false)
    (hz : size = s.fld ⟨.snapDumpSize, 0, 0⟩ 0 32) (h512 : 512 ≤ size) (hl : len = min s.imageLen (size / 64 * 64))
    (hbody : body = (List.range (len - 512)).map fun i => s.imageByte (512 + i)) :
    s.snapDumpStart v = { s with ob := { s.ob with
      dumpBusy := true, dumpAt := (s.reg ⟨.snapDumpAddr, 0, 0⟩).toNat
      dumpNext := (s.reg ⟨.snapDumpAddr, 0, 0⟩).toNat + 512, dumpBody := body
      dumpHeader := s.snapHeader (decide (len < s.imageLen)) (crc32c (s.snapHeader (decide (len < s.imageLen)) 0 ++ body)).toNat } } := by
  have starts : bit v 0 = true ∧ s.cutStands = true ∧ ¬ s.ob.dumpBusy = true := ⟨hv, hc, ne_true_of_eq_false hb⟩
  have room : ¬ s.fld ⟨.snapDumpSize, 0, 0⟩ 0 32 < 512 := Nat.not_lt.2 (hz ▸ h512)
  unfold State.snapDumpStart
  simp only [if_pos starts, if_neg room]
  rw [hbody, hl, hz]

theorem writeInspSel_multiple (hv : bits v 0 16 = 0) (ht : t = s.plainWrite ⟨.inspSel, i, 0⟩ v) :
    s.writeInspSel who i v = { t with ob := { t.ob with insp := t.ob.insp.filter fun x => decide (x.1 ≠ who) } } := by
  subst ht
  exact if_neg (not_not.2 hv)

/-- The registers that choose what an aperture shows lie in the Observation Unit's window. -/
theorem inspSel_window (hi : i < 10) : Reg.off ⟨.inspSel, i, 0⟩ / 0x10000 = 8 := by
  change (0x80208 + i * 8 + 0 * 0) / 0x10000 = 8
  omega

theorem inspSel_valid (hi : i < 10) : Reg.valid ⟨.inspSel, i, 0⟩ = true := Reg.valid_iff.2 ⟨hi, by decide⟩

theorem target_aperture (hi : i < 10) (hj : j < 16384) : target (Reg.off ⟨.aperture, i, j⟩) false = some (⟨.aperture, i, j⟩, .whole) :=
  target_off (r := ⟨.aperture, i, j⟩) (Reg.valid_iff.2 ⟨hi, hj⟩)

end

/-- Settles O8: an admitted access does what its register's access does, and the stop state, the trace's mode or the sizes say what. -/
theorem stopTraceAndInspectionWrites : Obligations.StopTraceAndInspectionWrites := by
  unfold Obligations.StopTraceAndInspectionWrites
  refine ⟨?stop, ?snap, ?resume, ?resumeSnapped, ?traceStart, ?traceOff, ?trigger, ?counters, ?dump, ?select, ?inspect⟩
  case stop =>
    intro s w who h hs
    exact ⟨congrArg Host.Outcome.next (regIn_stopEffect h (by decide) nofun (by decide) (freezeCmd_running hs)),
      congrArg Host.Outcome.next (regIn_stopEffect h (by decide) nofun (by decide) (quiesceCmd_running hs))⟩
  case snap =>
    rintro s w who _ h hs rfl hi
    exact congrArg Host.Outcome.next (regIn_stopEffect h (by decide) nofun (by decide) (snapCmd_higher hs hi))
  case resume =>
    intro s w who h hf hs
    exact congrArg Host.Outcome.next (regIn_stopSettled h (by decide) nofun (by decide) (resumeCmd_stopped hf hs) rfl)
  case resumeSnapped =>
    intro s w who h hf hs
    exact congrArg Host.Outcome.next (regIn_stopSettled h (by decide) nofun (by decide) (resumeCmd_snapped hf hs) rfl)
  case traceStart =>
    rintro s w _ who v x h hx h0 h3 hm hc rfl
    subst hx
    exact congrArg Host.Outcome.next (regIn_stopSettled h (by decide) nofun (by decide) (writeTrcCfg_start h0 h3 hm hc) rfl)
  case traceOff =>
    rintro s w _ who v h hm hv rfl
    have off : bits (setBits (w64 v) 0 2 0) 0 2 = 0 := bits_setBits _ _ _ _ (by decide)
    exact congrArg Host.Outcome.next (regIn_stopSettled h (by decide) nofun (by decide) (writeTrcCfg_off off hm hv) rfl)
  case trigger =>
    intro s w a who v h hm ht hn hs ha
    have fires : w.writeReg who ⟨.trcCtrl, 0, 0⟩ (setBit (w64 v) 0 true) = _ :=
      (if_pos (bit_setBit_self (w64 v) 0 true (by decide))).trans (trigger_awaited hm ht hn hs ha)
    exact congrArg Host.Outcome.next (regIn_stopEffect h (by decide) nofun (by decide) fires)
  case counters =>
    intro s w who v h
    have kept : (w.gcntSnapCmd (setBit (w64 v) 0 true)).ob.snapHeld = w.ob.snapHeld := congrArg Observe.snapHeld (gcntSnapCmd_ob w _)
    refine congrArg Host.Outcome.next ((regIn_stopSettled h (by decide) nofun (by decide) rfl kept).trans ?_)
    exact if_pos (bit_setBit_self (w64 v) 0 true (by decide))
  case dump =>
    intro s w who v size len body h hc hb hz h512 hl hbody
    have dumps := snapDumpStart_roomy (bit_setBit_self (w64 v) 0 true (by decide)) (cutStands_iff.2 hc) hb hz h512 hl hbody
    exact congrArg Host.Outcome.next (regIn_stopSettled h (by decide) nofun (by decide) dumps rfl)
  case select =>
    rintro s w _ who i v hi h hv rfl
    exact congrArg Host.Outcome.next
      (regIn_stopSettled h (inspSel_valid hi) nofun (inspSel_window hi) (writeInspSel_multiple hv rfl) rfl)
  case inspect =>
    intro s w who i j hi hj h
    exact congrArg Host.Outcome.next (admitRead_admitsStop h (target_aperture hi hj))

/-! ### The monitor's commands (R418 to R420, R443) -/

section
variable {s a t : State} {i : Instr} {lvl : Nat}

/-- The hub core runs and listens at a level above 0. -/
theorem monitor_listens (hc : (t.core 8).st = 2) (hu : t.sv.uartOff = false) (hr : t.ready = true) (h1 : 1 ≤ t.fld ⟨.svDraoft, 0, 0⟩ 0 2) :
    ¬ ((t.core 8).st ≠ 2 ∨ t.sv.uartOff = true ∨ ¬ t.ready = true ∨ t.fld ⟨.svDraoft, 0, 0⟩ 0 2 = 0) := by
  rintro (held | off | notReady | silent)
  · exact held hc
  · simp [hu] at off
  · exact notReady hr
  · omega

/-- A line that is carried out as it ends is the command, and the end of its session. -/
theorem draoftLine_console (h : s.console lvl a) (hi : draoftLevel i = lvl) : s.draoftLine i = (a.draoftDo i).endSession.flushSnap := by
  obtain ⟨hg, hw, t, rfl, hc, hu, hr, h1, hl, hn, -, rfl⟩ := h
  have allowed : ¬ (s.wake 8).fld ⟨.svDraoft, 0, 0⟩ 0 2 < draoftLevel i := by omega
  exact (reach_now hg hw).trans ((if_neg (monitor_listens hc hu hr h1)).trans ((if_neg allowed).trans (if_neg (ne_true_of_eq_false hn))))

theorem State.console.held (h : s.console lvl a) : a.ob.snapHeld = [] := by
  obtain ⟨-, -, t, -, -, -, -, -, -, -, held, rfl⟩ := h
  exact held

/-- A command that only answers. -/
theorem draoftLine_answers (h : s.console lvl a) (hi : draoftLevel i = lvl) {ws : List (BitVec 32)} (e : a.draoftDo i = a.say ws) :
    s.draoftLine i = (a.say ws).endSession := by
  rw [draoftLine_console h hi, e]
  exact flushSnap_nil h.held

/-- A command does what it does where its sub-unit is not stopped. -/
theorem draoftDo_unit {u : Nat} (hi : draoftUnit i = some u) (hg : a.gated u = false) : a.draoftDo i = a.draoftRun i := by
  simp only [State.draoftDo, hi, hg, Bool.false_eq_true, if_false]

theorem draoftRun_rd {off n : Nat} {ws : List (BitVec 32)} (h : a.draoftWords off n = some (ws, t)) :
    a.draoftRun (.draoftRd off n) = t.say ws := by
  unfold State.draoftRun
  simp only [h]

/-- WR of a register that is neither barred nor gated. -/
theorem draoftWrite_reaches {off : Nat} {v : BitVec 32} {r : Reg} {x : Part32} (ht : target off false = some (r, x))
    (hb : draoftBarred r.name = false) (ha : r.name ≠ .aperture) (hg : a.unitGated r = false) (hs : a.snapHolds off = false) :
    a.draoftWrite off v = (a.accessWrite (.core 8) off false (v.setWidth 64)).say [] := by
  simp only [State.draoftWrite, ht, hb, ha, hg, hs, Bool.false_eq_true, or_self, if_false]

/-- A stop command that changes the stop state. -/
theorem draoftStop_changes {cmd : Nat} (ht : t = a.writeReg (.core 8) ⟨.obStop, 0, 0⟩ (BitVec.ofNat 64 cmd)) (hs : t.ob.stop ≠ a.ob.stop) :
    a.draoftStop cmd = t.say [] := by
  unfold State.draoftStop
  rw [← ht]
  exact if_neg hs

/-- A line above the level that the host allows is answered ERR 01. -/
theorem draoftLine_above (hg : s.gated 8 = false) (hw : ∀ x ∈ s.st.atGate, x.1 ≠ 8) (ht : t = s.wake 8) (hc : (t.core 8).st = 2)
    (hu : t.sv.uartOff = false) (hr : t.ready = true) (h1 : 1 ≤ t.fld ⟨.svDraoft, 0, 0⟩ 0 2)
    (hl : t.fld ⟨.svDraoft, 0, 0⟩ 0 2 < draoftLevel i) : s.draoftLine i = t.sayErr 1 := by
  subst ht
  exact (reach_now hg hw).trans ((if_neg (monitor_listens hc hu hr h1)).trans (if_pos hl))

theorem draoftLine_gated (hg : s.gated 8 = true) : s.draoftLine i = { s with st := { s.st with atGate := s.st.atGate ++ [(8, i)] } } :=
  reach_gated hg

end

/-- Settles O32: a line that nothing holds or refuses is its command, and the register, the object or the stop state says its answer. -/
theorem monitorCommandsAreAnswered : Obligations.MonitorCommandsAreAnswered := by
  unfold Obligations.MonitorCommandsAreAnswered
  refine ⟨fun s a h => ?shows, fun s a h => ?reads, fun s a h => ?writes, ?above, ?gated⟩
  case shows =>
    refine ⟨congrArg Host.Outcome.next (draoftLine_answers h rfl rfl), congrArg Host.Outcome.next (draoftLine_answers h rfl rfl),
      fun hg => congrArg Host.Outcome.next (draoftLine_answers h rfl (draoftDo_unit rfl hg)), ?_⟩
    rintro _ hg rfl
    exact congrArg Host.Outcome.next ((draoftLine_console h rfl).trans (congrArg (·.endSession.flushSnap) (draoftDo_unit rfl hg)))
  case reads =>
    refine ⟨fun off n ws t hw => ?rd, fun kind idx hg => ?obj, fun c i hg => ?node, fun byCtx id hg => ?dump⟩
    case rd => exact congrArg Host.Outcome.next ((draoftLine_console h rfl).trans (congrArg (·.endSession.flushSnap) (draoftRun_rd hw)))
    all_goals exact congrArg Host.Outcome.next (draoftLine_answers h rfl (draoftDo_unit rfl hg))
  case writes =>
    have acts {i : Instr} {t : State} (hi : draoftLevel i = 3) (e : a.draoftDo i = t) :
        Host.Outcome.next (s.draoftLine i) = (.next t.endSession.flushSnap : Host.Outcome State Fault Refusal) :=
      congrArg _ ((draoftLine_console h hi).trans (congrArg (·.endSession.flushSnap) e))
    refine ⟨fun off v r x ht hb ha hg hs => acts rfl (draoftWrite_reaches ht hb ha hg hs), fun hg => ?_⟩
    have unit {i : Instr} (hi : draoftUnit i = some 7) : a.draoftDo i = a.draoftRun i := draoftDo_unit hi hg
    refine ⟨acts rfl (unit rfl), fun t ht hs => ?freeze, fun t ht hs => ?quiesce, fun b t id hb ht hs => ?snap, fun t ht hs => ?resume⟩
    case freeze => exact acts rfl ((unit rfl).trans (draoftStop_changes ht hs))
    case quiesce => exact acts rfl ((unit rfl).trans (draoftStop_changes ht hs))
    case snap =>
      subst hb
      exact acts rfl ((unit rfl).trans (draoftStop_changes ht hs))
    case resume => exact acts rfl ((unit rfl).trans (draoftStop_changes ht hs))
  case above =>
    intro s t off v hg hw ht hc hu hr h1 h3
    exact congrArg Host.Outcome.next (draoftLine_above hg hw ht hc hu hr h1 h3)
  case gated =>
    intro s off n kind idx c i id byCtx v w hg r hr
    simp only [List.mem_cons, List.not_mem_nil, or_false] at hr
    rcases hr with rfl | rfl | rfl | rfl | rfl | rfl | rfl | rfl | rfl | rfl | rfl | rfl | rfl | rfl <;>
      exact congrArg Host.Outcome.next (draoftLine_gated hg)

/-! ### The hub cycle of an empty queue (R401; log entry 3) -/

section
variable {P : List Host.Cell → Prop} {q : List Instr} {u : List MmuRange} {o : List Out} {s w : State}

/-- Where every unit with something at its input is stopped, nothing is let in. -/
theorem gateOpen_closed (h : ∀ x ∈ s.st.atGate, s.gated x.1 = true) : s.gateOpen = s := by
  have kept : (s.st.atGate.filter fun x => s.gated x.1) = s.st.atGate := List.filter_eq_self.2 h
  have admitted : (s.st.atGate.filter fun x => !s.gated x.1) = [] := List.filter_eq_nil_iff.2 fun x hx => by simp [h x hx]
  simp only [State.gateOpen, kept, admitted, State.each, List.foldl_nil]

/-- What a hub cycle does once what waited at the gates is let in; it began in state `s`. -/
def State.cycleAfterGates (t s : State) : State :=
  let t := if t.hubOn then t.countWaits else t
  let t := t.each t.dl.engines fun t x => t.countEngine x.1 x.2
  t.highCheck.wakeBusy.orderRecs s

theorem hubCycle_eq (s : State) : s.hubCycle =
    if s.ob.stop = .snapped ∨ (s.lockstep ∧ (List.range 9).any s.dipped) then s
    else (s.bump (gcnt 0) 1).settleShort.gateOpen.cycleAfterGates s := rfl

/-- Counting, flags and clocks store nothing. -/
theorem kept_cycleAfterGates (h : Kept P q u o w) (s : State) : Kept P q u o (w.cycleAfterGates s) := by
  have waits : Kept P q u o (if w.hubOn then w.countWaits else w) := kept_ite.2 ⟨fun _ => kept_countWaits h, fun _ => h⟩
  exact kept_orderRecs (kept_wakeBusy (kept_highCheck (kept_each _ _ (fun _ _ h => kept_countEngine h _ _) waits))) _

/-- A cycle that lets nothing in leaves memory. -/
theorem hubCycle_mem (h : ∀ x ∈ (s.bump (gcnt 0) 1).settleShort.st.atGate, (s.bump (gcnt 0) 1).settleShort.gated x.1 = true) :
    s.hubCycle.mem = s.mem := by
  rw [hubCycle_eq]
  split
  next => rfl
  next =>
    rw [gateOpen_closed h]
    have start : Kept (· = s.mem) s.pending s.mmu s.out s := kept_sameMem s
    obtain ⟨-, -, -, hm⟩ := kept_cycleAfterGates (kept_settleShort (kept_bump start (gcnt 0) 1)) s
    exact hm

end

/-- Settles O36: the empty queue gives the hub cycle, whose operations keep the queue and the map, and store by what is let in alone. -/
theorem anEmptyQueueIsOneHubCycle : Obligations.AnEmptyQueueIsOneHubCycle := by
  unfold Obligations.AnEmptyQueueIsOneHubCycle
  intro s hq
  have := pokeClosed_true
  obtain ⟨hp, hu, -, -⟩ := kept_hubCycle (kept_self s)
  have cycle : step s = .next s.hubCycle := by
    unfold step
    rw [hq]
  refine ⟨s.hubCycle, cycle, rfl, hp.trans hq, hu, ?_⟩
  rintro _ rfl closed
  exact hubCycle_mem closed

end Sys2Proof.Machine
end
